-- ==== Sys2Proof/Word.lean ====
section
/-!
DEFINITION. The identifier and word types of the EX128 (Table 0-2) and nothing else: every helper that computes
stands in the files under Machine/.
-/

namespace Sys2Proof

/-- One byte (R8). -/
abbrev Byte := BitVec 8
/-- A 32-bit register value (R549). -/
abbrev W32 := BitVec 32
/-- A 64-bit word of a queue entry or a lane slot (R203, R394). -/
abbrev W64 := BitVec 64
/-- A duty word or sense sample in Q1.23 (R105, R149). -/
abbrev Q23 := BitVec 24
/-- Output channel CH0 to CH127. -/
abbrev Ch := Fin 128
/-- Power tile PT0 to PT15. -/
abbrev PTile := Fin 16
/-- Logical tile of Table 3-2: 0 to 15 for ET0 to ET15, 16 to 19 for MT0 to MT3. -/
abbrev LTile := Fin 20
/-- Physical tile of Table 3-9: 0 to 17 for ET0 to ET17, 18 to 22 for MT0 to MT4. -/
abbrev Phys := Fin 23
/-- Serial audio port SAP0 to SAP7. -/
abbrev Port := Fin 8
/-- Class 2 trip input TRIP0 to TRIP7. -/
abbrev Pin := Fin 8
/-- Release group 0 to 31. -/
abbrev RGroup := Fin 32
/-- Host stream HS0 to HS127. -/
abbrev HStream := Fin 128
/-- Queue pair Q0 to Q16383. -/
abbrev QId := Fin 16384
/-- Temperature sensor index of Table 15-3. -/
abbrev Sensor := Fin 54
/-- A fixed-length bank of like things (one per channel, tile, port, …). -/
abbrev Bank (α : Type) (n : Nat) := Vector α n

end Sys2Proof
end

