-- ==== Sys2Proof/Syntax.lean ====
section
/-!
DEFINITION. The commands of the EX128: one constructor of `Instr` for each row of the spec's table of operations and
events, with the operands the row needs. An event's operands are what the step takes from outside the block (a sense
sample, a pin level, the bytes of an entry); everything else a step uses is in the state.
-/

namespace Sys2Proof

/-- The two sense samples of one channel at a sampling instant, both Q1.23 (R149). -/
structure Sample where
  v : Q23
  i : Q23
  deriving DecidableEq, Repr

/-- One rail sample of a power tile: PVP and PVN against PGND in units of 10 mV, signed (R151). -/
structure RailSample where
  pvp : Int
  pvn : Int
  deriving DecidableEq, Repr

/-- The means of the sensed voltage and inductor current of one channel over a whole Fi period, in units of 2^(-23)
of the full scale of R149 (R266). -/
structure FiMean where
  v : Int
  i : Int
  deriving DecidableEq, Repr

/-- What names a host command: its queue, its CID, its buffer (PTR and LEN of Table 13-3), and its session, the number of
losses of the host before its fetch (R459). -/
structure CmdRef where
  q : QId
  cid : BitVec 16
  ptr : W64
  len : Nat
  session : Nat
  deriving DecidableEq, Repr

/-- TIMED_SET objects of Table 13-7, with the value each carries. -/
inductive SetObj where
  | termSource (ch : Ch) (term : Nat) (code : BitVec 16)
  | termGain (ch : Ch) (term : Nat) (g : BitVec 24)
  | outGain (ch : Ch) (g : BitVec 24)
  | groupGain (grp : Fin 64) (g : BitVec 24)
  | corner (code : BitVec 16) (sel : Byte)
  | delay (ch : Ch) (tau : Nat) (slew : Nat)
  | limiter (ch : Ch) (thr : Nat) (rel : Nat)
  | slotMask (p : Port) (mask : W32)
  deriving DecidableEq, Repr

/-- The gain objects a GAIN_TRAJECTORY can name (R339). -/
inductive GainObj where
  | term (ch : Ch) (term : Nat)
  | out (ch : Ch)
  | group (grp : Fin 64)
  deriving DecidableEq, Repr

/-- One tone of a MULTITONE generator (Table 13-8). -/
structure Tone where
  bin : BitVec 16
  amp : Q23
  phase : BitVec 16
  deriving DecidableEq, Repr

/-- Generator kinds of Table 8-5. -/
inductive GenKind where
  | sine | sweep | multitone | noise | mls
  deriving DecidableEq, Repr

/-- Nodes an injection tap can serve (R244, R245). -/
inductive TapNode where
  | mixOut | setpoint | error
  deriving DecidableEq, Repr

/-- Capture points of Table 8-7. -/
inductive CapPoint where
  | voltage | current | duty | setpoint | error
  deriving DecidableEq, Repr

/-- The strobe of capture points 0 and 1 (Table 13-8). -/
inductive CapStrobe where
  | carrier | cmpA | cmpB
  deriving DecidableEq, Repr

/-- A generator record of INJECT (Table 13-8, TYPE 1). -/
structure GenRec where
  gen : Fin 8
  kind : GenKind
  rept : Bool
  amp : Q23
  delta1 : W32
  delta2 : W32
  len : Nat
  theta0 : BitVec 16
  order : Nat
  seed : W32
  period : Nat
  tones : Nat
  deriving DecidableEq, Repr

/-- Records of INJECT ARM (Table 13-8). -/
inductive InjectRec where
  | gen (g : GenRec)
  | tones (g : Fin 8) (first : Nat) (ts : List Tone)
  | tap (t : Fin 16) (g : Fin 8) (node : TapNode) (ch : Ch) (gain : BitVec 24)
  | cap (u : Fin 16) (point : CapPoint) (ch : Ch) (cont : Bool) (strobe : CapStrobe) (dec : Nat) (ring : Nat) (count : Nat)
  deriving DecidableEq, Repr

/-- Fields of CREATE_QUEUE (Table 14-2). -/
structure QueueCfg where
  qid : QId
  cls : Fin 4
  ien : Bool
  vector : Nat
  sqDepth : Nat
  cqDepth : Nat
  sqBase : W64
  cqBase : W64
  deriving DecidableEq, Repr

/-- TIME and FLAGS of a submission entry (R394): untimed, at an STC, or at a Zaith frame plus an offset. -/
inductive When where
  | untimed
  | stc (b : Nat)
  | frame (f : Nat) (offset : Nat)
  deriving DecidableEq, Repr

/-- Where an uncorrectable code word was found (Table 16-1). -/
inductive EccPlace where
  | tileData (t : Phys)
  | tileSched (t : Phys)
  | spareTile (t : Phys)
  | fabric (src : LTile) (dst : LTile) (ord : Nat) (third : Bool)
  | delayLine (ch : Ch) (word : Nat)
  | captureRing (u : Fin 16) (entry : Nat)
  | streamFifo (h : HStream)
  | oneCopy
  | journal (q : QId) (cid : BitVec 16)
  | queueContext (q : QId)
  | imageCopy (t : LTile)
  | nvFirmware (slot : Fin 2)
  | nvImage (slot : Fin 4) (header : Bool)
  | nvRecord (slot : Fin 512)
  | nvHealth
  deriving DecidableEq, Repr

/-- The result of one segment's test: the switch, the segment's conductance in % of its calibrated value, whether its
gate responds, and the switch's measured on-resistance (µΩ) and output capacitance (fF) (R499, Table 16-2). -/
structure SegResult where
  ch : Ch
  low : Bool
  pct : Nat
  gate : Bool
  ron : Nat
  coss : Nat
  deriving DecidableEq, Repr

/-- The result of one converter's calibration, in units of 10^(-6) of full scale or of gain (Table 16-3). -/
structure CalResult where
  offset : Int
  gain : Int
  diff : Int
  deriving DecidableEq, Repr

/-- Levels the guard domain samples at a guard reset: straps (R523), pins of `GRD_STATUS` and `GRD_GPIO`. -/
structure GuardPins where
  dbgPermit : Bool
  smbAddr : BitVec 2
  safeLow : Bool
  prsnt : Bool
  trip : Byte
  gpio : BitVec 6
  deriving DecidableEq, Repr

/-- An error in a byte of a code word, or of a group of the non-volatile store: its place and the bits that are wrong (R490, R492). -/
structure SymErr where
  at_ : Nat
  err : Byte
  deriving DecidableEq, Repr

/-- Where a class 1 trip falls: the fine step of the channel's period, and the inductor current in mA in the direction of its switch (R172, R173). -/
structure TripPoint where
  fine : Nat
  ma : Nat
  deriving DecidableEq, Repr

/-- The levels at the guard domain's inputs at its poll: the balls GPIO2 to GPIO7, and the rails at its comparators (R565, Table 6-10). -/
structure PollLevels where
  gpio : BitVec 6
  rail : RailSample
  deriving DecidableEq, Repr

/-- A read of a code word, or of a group of the non-volatile store, with errors in some of its bytes (R490, R492). -/
structure EccRead where
  place : EccPlace
  errs : List SymErr
  deriving DecidableEq, Repr

/-- A place of a code word: memory 0 to 22 for the tiles of Table 3-9 and 23 for shared SRAM, and its number there; eight
in succession make a row (R497). -/
structure RowAddr where
  mem : Fin 24
  word : Nat
  deriving DecidableEq, Repr

/-- A resource that fails its self-test in a growth step (R524): a physical tile, a segment (11 is the spare) of a switch, a sense
converter (8 is the spare) of a power tile, a sensor, an SRAM row, or a resource of a kind that has no spare. -/
inductive BadPart where
  | tile (p : Phys)
  | segment (ch : Ch) (low : Bool) (k : Fin 12)
  | converter (t : PTile) (current : Bool) (k : Fin 9)
  | sensor (sn : Sensor)
  | row (r : RowAddr)
  | other
  deriving DecidableEq, Repr

/-- JTAG instructions of R545. -/
inductive JtagInstr where
  | bypass | idcode | samplePreload | extest | debug | halt
  deriving DecidableEq, Repr

/-- The commands: one constructor per row of the table of operations and events. (DESIGN CHOICE, log entry 72.) -/
inductive Instr where
  -- carrier, Fi and outer boundaries
  | carrierBoundary (samples : List Sample) (rails : List RailSample)
  | fiBoundary (means : List FiMean) (sapBits : List (List Nat))
  | outerBoundary
  | dutyHandover (ch : Ch) (near : Bool)
  | tilePeriodComplete (t : LTile) (fi : Bool) (count : Nat)
  -- modulator
  | takeUp (ch : Ch)
  | midPeriodTakeUp (ch : Ch)
  | gateEdge (ch : Ch)
  | periodEvent (ch : Ch)
  | cmpEvent (ch : Ch) (b : Bool) (ticks : Nat) (smp : Sample)
  | eviSignal (u : Fin 16)
  | manEnableWrite (ch : Ch) (value : W32)
  | manWordWrite (ch : Ch) (period : Bool) (value : W32) (near : Bool)
  | haltRequest (jtag : Bool)
  | haltEnd
  | cntClr (value : W32)
  -- release, stop, clear
  | releaseGroup (r : CmdRef) (g : RGroup)
  | stopGroup (r : CmdRef) (g : RGroup)
  | stopChannel (r : CmdRef) (ch : Ch)
  | clearLatch (r : CmdRef) (ch : Ch)
  | grdClearWrite (m : Fin 4) (mask : W32)
  | rampComplete (g : RGroup)
  | safeStopEnd (ch : Ch)
  | clampRelease (neg : Bool)
  -- protection
  | class1Trip (ch : Ch) (low : Bool) (at_ : TripPoint)
  | tripPinAssert (p : Pin)
  | dcThresholdCross (ch : Ch) (neg : Bool)
  | dcTrip (ch : Ch)
  | carrierLoss (ch : Ch)
  | safeAssert
  | guardBackstop
  | prsntDeassert
  | thermalShutdown (sn : Sensor)
  | railOvRelease (neg : Bool)
  | railUvRelease (neg : Bool)
  | shortCheckObserveEnd (ch : Ch)
  | shortCheckDriveEnd (ch : Ch)
  | shortCheckEnd (ch : Ch)
  | stewardPoll (answered : Bool) (hsvP : Nat) (hsvN : Nat) (levels : PollLevels)
  -- timebase
  | refQualified (e : Fin 3) (rate : Fin 8)
  | refDisqualified (e : Fin 3)
  | refSelect
  | refRevert
  | slewEnd
  | lockAcquired
  | holdExpired
  | zaithWord (w : W64) (phase : Nat)
  | frameLost
  | snapReq
  | snapCapture
  -- images
  | autoLoad
  | stagingEnd
  | weltOpen
  | weltSwitch
  -- Awl and capture
  | generatorStop (g : Fin 8)
  | captureEntry (u : Fin 16)
  -- outer loops, Shank, thermal
  | reWindowOpen (ch : Ch)
  | reWindowClose (ch : Ch)
  | grantCycle
  | thermalSample (sn : Sensor) (reading : Int) (fault : Bool)
  | sensorBroken (sn : Sensor)
  | sensorRetire (sn : Sensor)
  | nvWindowOpen
  | healthSave
  -- reliability
  | scrubPass (dur10ms : Nat) (found : List (RowAddr × List SymErr)) (kat : List Phys)
  | segmentTest (results : List SegResult)
  | senseCalibration (t : PTile) (current : Bool) (res : CalResult)
  | wearLevelMove (block : Nat)
  | telemetryInterval
  | eccUncorrectable (found : EccRead)
  | tileFailure (t : LTile) (cause : Fin 5)
  | failoverTakeover (t : LTile)
  -- load measurement
  | measureLoad (r : CmdRef) (ch : Ch) (steps : Byte)
  | measurePrecheckEnd (ch : Ch)
  | measureDcEnd (ch : Ch)
  | measureCableEnd (ch : Ch)
  | sweepPointEnd (ch : Ch)
  | measureSwitchingEnd (ch : Ch)
  | fitComplete (ch : Ch)
  | storeComplete (ch : Ch)
  | deleteComplete (ch : Ch)
  | measureResultWrite (ch : Ch)
  | supplyMeasureEnd (tileP : PTile) (tileN : PTile)
  | partnerMeasure (p : Port) (bclk : Nat) (rateMilliHz : Nat)
  -- serial ports
  | sapFrame (p : Port) (bits : List Bool) (clocks : Nat)
  | sapFrameTimeout (p : Port)
  | sapPhaseEval (p : Port)
  | sapSlip (p : Port)
  -- host streams and trajectories
  | streamRoom (h : HStream)
  | trajectoryEnd (q : QId) (cid : BitVec 16)
  -- queue interface
  | sqTailWrite (q : QId) (value : W32)
  | cqHeadWrite (q : QId) (value : W32)
  | barAccessError (offset : Nat) (size : Nat)
  | registerWrite (offset : BitVec 18) (value : W32)
  | commandFetch (entry : List Byte) (buffer : List Byte)
  | completionPost
  | cueCommit (q : QId) (cid : BitVec 16)
  | cueEffect
  | coalesceTimeout (vector : Fin 2048)
  | msixUnmask (vector : Option (Fin 2048))
  | qifEnable
  | qifDisable
  -- I/O commands
  | streamWrite (r : CmdRef) (h : HStream) (fin : Bool) (samples : List W32) (start : Option Nat)
  | captureRead (r : CmdRef) (u : Fin 16) (start : Nat)
  | tableWrite (r : CmdRef) (ch : Ch) (cond : Bool) (region : Fin 8) (words : List W64)
  | tableRead (r : CmdRef) (ch : Ch) (kind : Fin 3) (region : Fin 8)
  | timedSet (r : CmdRef) (obj : SetObj)
  | gainTrajectory (r : CmdRef) (obj : GainObj) (log : Bool) (g1 : BitVec 24) (steps : Nat)
  | injectArm (r : CmdRef) (recs : List InjectRec)
  | injectStop (r : CmdRef) (gens : Byte) (taps : BitVec 16) (units : BitVec 16)
  | telemetryRead (r : CmdRef) (offset : Nat) (count : Nat)
  -- admin commands
  | identify (r : CmdRef)
  | identifyLatency (r : CmdRef)
  | getLog (r : CmdRef) (page : Byte) (offset : Nat)
  | getFeature (r : CmdRef) (fid : Byte)
  | setFeature (r : CmdRef) (fid : Byte) (value : W64) (buf : List Byte)
  | createQueue (r : CmdRef) (cfg : QueueCfg)
  | deleteQueue (r : CmdRef) (qid : QId)
  | abort (r : CmdRef) (sqid : QId) (tcid : BitVec 16)
  | flush (r : CmdRef) (scope : BitVec 16)
  | flushDone (q : QId) (cid : BitVec 16)
  | queueReset (r : CmdRef) (qid : QId)
  | queueResetDone (q : QId) (cid : BitVec 16)
  | fwDownload (r : CmdRef) (offset : Nat) (chunk : List Byte)
  | fwCommit (r : CmdRef) (slot : Fin 2)
  | fwCommitBoot (r : CmdRef) (slot : Fin 2)
  | fwMarkBoot (r : CmdRef) (slot : Fin 2)
  | fwActivate (r : CmdRef) (slot : Fin 2)
  | fwRunning
  | fwFallback
  | imageLoad (r : CmdRef) (slot : Fin 4) (final : Bool) (offset : Nat) (chunk : List Byte)
  | imageActivate (r : CmdRef) (slot : Fin 4) (time : When) (late : Bool)
  | imageActivateMark (r : CmdRef) (slot : Fin 4) (time : When) (late : Bool)
  | imageMark (r : CmdRef) (slot : Fin 4)
  | imageClearMark (r : CmdRef) (slot : Fin 4)
  | nvWriteComplete
  -- host resets, bring-up, precharge
  | perst
  | functionLevelReset
  | linkDown
  | configReady
  | vauxRise (pins : GuardPins)
  | auxPor (pins : GuardPins)
  | guardReady
  | audioResetRelease
  | supplyFault
  | growthStep (bad : List BadPart)
  | arstKey (value : W32) (late : Bool)
  | audioReset
  | prechargeStart
  | prechargeStage (neg : Bool) (rise : Option (Nat × Nat)) (fall : Option Nat)
  | prechargeComplete
  | autoRelease
  | prechargeFail (timeout : Bool)
  | prechargeRetry (value : W32)
  -- SMBus, pins, link, JTAG
  | setPtr (v : BitVec 16) (pec : Bool)
  | smbRead (answers : Bool) (pec : Bool)
  | smbWrite (value : W32) (late : Bool) (pec : Bool)
  | setHist (v : Byte) (pec : Bool)
  | hist (pec : Bool)
  | smbStatus (pec : Bool)
  | alertResponse
  | safeDeassert
  | tripPinDeassert (p : Pin)
  | prsntAssert
  | dcTimerRestart (ch : Ch)
  | vauxLoss
  | linkTraining (width : BitVec 3) (speed : BitVec 4)
  | stewardsBooted
  | jtagInstruction (ir : JtagInstr)
  deriving DecidableEq, Repr

end Sys2Proof
end

