-- ==== Sys2Proof/Decode.lean ====
section
/-!
DEFINITION. Commands as words. No row of the table of operations and events has an encoding in bits: a command reaches
the block as an event, and the entries of the queue interface are read by `Sys2Proof.Machine.parseEntry`.
-/

namespace Sys2Proof

/-- The command a word spells by the table's bits: none, since no row has bits. (DESIGN CHOICE, log entry 2.) -/
def decodeTableWord (_nbits _w : Nat) : Option Instr := none

end Sys2Proof
end

