-- ==== Sys2Proof/Machine/State.lean ====
section
/-!
DEFINITION. The state of the EX128 as plain data, everything the spec gives the part, grouped by the chapter that owns
it, with the reset state, and the closed lists of faults and refusals. Register fields keep the spec's names.
-/

namespace Sys2Proof.Machine

/-- Faults. No command of the EX128 stops the block: protections, refusals and errors are effects on the state
(INVENTORY, Faults). The one constructor is kept for a queue that holds a command the block can't be given; no meaning
raises it. Safe. -/
inductive Fault where
  | noEvent
  deriving DecidableEq, Repr

/-- Refusals. `notModelled` is raised only by an arm of exec without a meaning (safe: nothing is claimed there). -/
inductive Refusal where
  | notModelled (mnemonic : String)
  deriving DecidableEq, Repr

/-! ### Words and blocks of the tiles (chapter 7) -/

/-- A lane slot in one of the formats of Table 7-2; `zero` is a word of a block that starts at zero (R208): M = 0 and
E = +31 read as S, A or C, and 0 read as F or I; `q` is a fixed-point word of a mix tile (Table 11-3). -/
inductive Slot where
  | zero
  | s (m : Int) (e : Int) (sat : Bool)
  | a (m : Int) (e : Int) (sat : Bool)
  | c (m : Int) (e : Int)
  | f (bits : Nat)
  | i (n : Nat)
  | q (v : Int)
  deriving DecidableEq, Repr

/-- A 32-byte kind-0 block: four lane slots (R201). -/
structure Block where
  l0 : Slot
  l1 : Slot
  l2 : Slot
  l3 : Slot
  deriving DecidableEq, Repr

/-- A block that starts at zero (R208). -/
def Block.zero : Block := ⟨.zero, .zero, .zero, .zero⟩

/-- A sparse memory: key and value pairs with strictly rising keys, none equal to what an unlisted key reads as. -/
abbrev Mem (α : Type) := List (Nat × α)

/-- A stitch word (Table 3-5). -/
structure Stitch where
  type : Nat
  lanes : BitVec 4
  fin : Bool
  slice : Bool
  suben : Bool
  sub : Nat
  var : BitVec 4
  dst : Nat
  srcA : Nat
  srcB : Nat
  deriving DecidableEq, Repr

/-- A block record (Table 3-4). -/
structure BlockRec where
  ident : Nat
  shape : Nat
  base : Nat
  size : Nat
  kind : Nat
  inner : Bool
  deriving DecidableEq, Repr

/-- A parameter record (R73) with the type of the section it stands in. -/
structure Param where
  sect : Nat
  code : Nat
  index : Nat
  val : List Byte
  deriving DecidableEq, Repr

/-- A Last image, read from its bytes (chapter 3). -/
structure Image where
  id : Nat
  build : Nat
  name : List Byte
  n : Nat
  keyIndex : Nat
  len : Nat
  member : Nat
  params : List Param
  blocks : List (Nat × List BlockRec)
  schedFc : List (Nat × List Stitch)
  schedFi : List (Nat × List Stitch)
  deriving DecidableEq, Repr

/-! ### Channels -/

/-- The period flags of R116. -/
structure Flags where
  ffSat : Bool
  hsSupp : Bool
  lsSupp : Bool
  range : Bool
  coll : Bool
  trip : Bool
  deriving DecidableEq, Repr

/-- A programmed gate edge of the present channel period: its fine step, the switch and its new state (R110, R111). -/
structure Edge where
  pos : Nat
  high : Bool
  on : Bool
  deriving DecidableEq, Repr

/-- What drives a channel's gates (R103); `off` is an unreleased channel under R168. -/
inductive Drive where
  | off | loop | manual | safeStop | measure | check
  deriving DecidableEq, Repr

/-- Image parameters of one channel (Tables 4-8, 5-5, 6-6, 7-7, 9-8, 10-7, 15-7). -/
structure ChanCfg where
  deadTime : Nat
  updMid : Bool
  ffEn : Bool
  ffRef : Nat
  manPermit : Bool
  relGroup : Option Nat
  polarityPair : Bool
  ilim : Nat
  blank : Nat
  tripCount : Nat
  tripWindow : Nat
  dcThresh : Nat
  dcTime : Nat
  privileged : Bool
  bridged : Bool
  outputScale : Nat
  xMax : Nat
  vMax : Nat
  tLim : Nat
  rc : Nat
  tauC : Nat
  rm : Nat
  tauM : Nat
  tAmb : Int
  alpha : Nat
  gFloor : Nat
  pilotEn : Bool
  reSigMin : Nat
  loadId : List Byte
  mms : Nat
  cableR : Nat
  lfDcr : Nat
  shankClass : Bool
  iRated : Nat
  inUse : Bool
  deriving DecidableEq, Repr

/-- The modulator of one channel (chapter 4). `handoff` holds the words the loop has computed and not handed over;
`nearPrev` and `nearPrevP` the unreloaded word a colliding word met; `edgeAt` is the fine step of the last gate edge
from the present count 0; `tripPend` says that a switch tripped in the present channel period and `tripSmp` that one tripped since the last sense sample; `dead` is
the dead time of the last take-up (R113), `wordIn` says that a reload accepted the pending word, and `held` is the current that the
track-and-hold stages have shown since both switches turned off (R150); `phase` the offset of count 0 from R104 that manual periods have built up; `exitHold` is 1
while a manual period completes after an exit and 2 while both switches wait for R104's count 0. -/
structure Mod where
  handoff : List Q23
  shadow : Q23
  shadowNew : Bool
  nearPrev : Option (Option Q23)
  nearPrevP : Option (Option Nat)
  pending : Q23
  pendRails : RailSample
  manShadowP : Nat
  manNewP : Bool
  pendPeriod : Nat
  period : Nat
  e1 : Int
  e2 : Int
  flags : Flags
  sampleFlags : Flags
  collPend : Bool
  tripPend : Bool
  tripSmp : Bool
  dead : Nat
  wordIn : Bool
  held : Option Int
  duty : Q23
  edge : Nat
  hs : Bool
  ls : Bool
  plan : List Edge
  edgeAt : Int
  phase : Nat
  collisions : Nat
  cmpA : Nat
  cmpB : Nat
  auxA : Bool
  auxB : Bool
  cmpANow : Nat
  cmpBNow : Nat
  manEnable : Bool
  manFF : Bool
  manDuty : Q23
  manPeriod : Nat
  manual : Bool
  manPend : Option Bool
  exitHold : Nat
  halted : Bool
  counting : Bool
  deriving DecidableEq, Repr

/-- The short check of a latch clear (R194): its step, its class 1 limit in 50 mA units, what it saw, the current sum of step 2 and the
commands that wait for its outcome (none for a write of `GRD_CLEAR`). -/
structure Check where
  step : Nat
  ilim : Nat
  driven : Bool
  tripped : Bool
  sum : Int
  cnt : Nat
  fi : Nat
  outcome : Nat
  startStc : Nat
  refs : List CmdRef
  deriving DecidableEq, Repr

/-- Protection and release state of one channel (chapters 5 and 6); `sweep` marks the closed loop of a sweep (R296). (DEDUCED, log entry 13.) -/
structure Prot where
  drive : Drive
  released : Bool
  ssPend : Bool
  ssCount : Nat
  sweep : Bool
  latched : Bool
  cause : Nat
  perIdx : Nat
  tripAt : List Nat
  trips : Nat
  dcNeg : Option Bool
  oos : Nat
  check : Option Check
  deriving DecidableEq, Repr

/-- Loop, region and outer status registers of one channel (Tables 7-8, 8-11, 9-9 to 9-12). -/
structure LoopStat where
  frozen : Bool
  clamped : Bool
  held : Bool
  ramp : Bool
  satf : Bool
  satRun : Bool
  freezes : Nat
  region : Nat
  switched : Bool
  cond : Nat
  condRun : Nat
  switches : Nat
  tc : Nat
  tm : Nat
  initT : Bool
  measured : Bool
  pilot : Bool
  unident : Bool
  hot : Bool
  reMeas : Nat
  rejects : Nat
  windows : Nat
  gExc : Nat
  gTh : Nat
  gGrant : Nat
  bind : Nat
  xpk : Nat
  deriving DecidableEq, Repr

/-- Samples and outer-loop working state of one channel: the sample of the last carrier boundary, the Fi means of the last
Fi period and the voltage mean before it, the power sum of the outer period and its last report with BIND, the running
peak of XPK in µm, the Fi periods since the window origin counted so that 2,400 to 14,399 is a place in a window, a closed
window that THERMAL has not read, whether EXCUR has seen LOOP since the outer input stage started at zero (R280), an Re measurement
that waits for the outer boundary with the STC of its Fi period, its value in mΩ and whether it was rejected by range (R284), and the
first boundary at which the window origin may fall (R278). -/
structure Sense where
  v : Int
  i : Int
  meanV : Int
  meanI : Int
  meanVPrev : Int
  powSum : Int
  report : Int
  reportBind : Nat
  xpkRun : Nat
  winCnt : Option Nat
  winClosed : Bool
  seenLoop : Bool
  reNext : Option (Nat × Nat × Bool)
  originAt : Nat
  deriving DecidableEq, Repr

/-- Region tables and condition words of one channel: twelve C words for each of eight regions, seven condition words
and the decay factor (R252), with the words in force (R238). -/
structure RegionSet where
  tables : List (List W64)
  conds : List W64
  rho : W64
  link : List Nat
  deriving DecidableEq, Repr

/-- A point of an impedance sweep (Table 10-4): FREQ, FLAGS, Z in µΩ. -/
structure SweepPoint where
  freq : Nat
  valid : Bool
  throttled : Bool
  tripped : Bool
  zRe : Int
  zIm : Int
  dRe : Int
  dIm : Int
  deriving DecidableEq, Repr

/-- A load measurement in progress, with the results of its completed steps (Tables 10-1, 10-4). -/
structure Meas where
  ref : CmdRef
  steps : Nat
  step : Nat
  done : Nat
  cls : Nat
  driven : Bool
  tripped : Bool
  point : Nat
  fi : Nat
  sumV : Int
  sumI : Int
  sumSw : Int
  cnt : Nat
  cntSw : Nat
  rdc : Nat
  idc : Nat
  rcable : Nat
  length : Nat
  cableValid : Bool
  points : List SweepPoint
  fit : List Nat
  fitPoor : Bool
  mechValid : Bool
  lf : Nat
  fres : Nat
  notchDev : Nat
  stored : Bool
  mismatch : Bool
  status : Nat
  stc : Nat
  writing : Bool
  units : List Nat
  deriving DecidableEq, Repr

/-- One output channel; `loadRec` is the load record that its last release bound, as it stood then (R277). `conf` marks a
configured channel and `lost` one that carrier-loss detection or the thermal latch released, until its next release (R515). `seg`
holds the retired segments of the high-side and the low-side switch, bit 11 the spare segment, and `segSwap` the switches whose spare
comes in at the next count 0; `ron` and `coss` their measured
on-resistance in µΩ and capacitance in fF. -/
structure Chan where
  cfg : ChanCfg
  mod : Mod
  prot : Prot
  stat : LoopStat
  sense : Sense
  region : RegionSet
  meas : Option Meas
  measClass : Nat
  bound : Option Nat
  loadRec : List Byte
  kv : Slot
  late : Nat
  seg : List (BitVec 12)
  segSwap : List Bool
  ron : List Nat
  coss : List Nat
  wear : Nat
  conf : Bool
  lost : Bool
  deriving DecidableEq, Repr

/-! ### Power tiles, rails and hot swap (chapters 5, 10, 17) -/

/-- A power tile: rail sense, sag limiter and converters. `sagGain` is in units of 2^(-47); `sagPend` is the gain that the next
outer boundary puts in force (R33, R159); `sagPhase` is 0 until an outer
period lies wholly after precharge, 1 in the first such period and 2 from then on (R282). Bit 8 of `vFailed` and `iFailed` is the
spare converter. -/
structure Power where
  rail : RailSample
  sagGain : Nat
  sagPend : Option Nat
  hmin : Nat
  hRun : Option Nat
  fiMin : Option Nat
  fiMinLast : Nat
  sumP : Int
  sumN : Int
  cnt : Nat
  senseRemote : Bool
  sagEn : Bool
  vKnee : Nat
  vMargin : Nat
  sagRise : Nat
  sagPhase : Nat
  vSpare : Bool
  iSpare : Bool
  vFailed : BitVec 9
  iFailed : BitVec 9
  calV : Nat
  calI : Nat
  deriving DecidableEq, Repr

/-- Rail-wide state: clamp outputs (Table 5-8), supply measurement (Table 10-9) and precharge (Table 17-10): the stages of both
rails, and for the precharge that runs its I_IN, its PRE_TIMEOUT and the Fi periods since its start. -/
structure Rails where
  clampP : Bool
  clampN : Bool
  riseP : Bool
  riseN : Bool
  reportP : Bool
  reportN : Bool
  belowP : Bool
  belowN : Bool
  clampFiP : Bool
  clampFiN : Bool
  riseThr : Nat
  riseHyst : Nat
  supVrailP : Nat
  supVrailN : Nat
  supRsrcP : Nat
  supRsrcN : Nat
  cbulkP : Nat
  cbulkN : Nat
  ppP : Nat
  ppN : Nat
  rippleFreq : Nat
  icapP : Option Nat
  icapN : Option Nat
  sumP : Int
  sumN : Int
  sumCnt : Nat
  minP : Int
  maxP : Int
  minN : Int
  maxN : Int
  crossP : Mem Nat
  crossN : Mem Nat
  preState : Nat
  stageP : Nat
  stageN : Nat
  preFail : Nat
  preDone : Nat
  prsntMs : Nat
  supplyMs : Nat
  hsvP : Nat
  hsvN : Nat
  stage3Fi : Nat
  iIn : Nat
  iInNow : Nat
  preTimeout : Nat
  preTimeNow : Nat
  preFi : Nat
  sinceDone : Nat
  okSinceFi : Bool
  okLast : Bool
  deriving DecidableEq, Repr

/-! ### The guard domain (chapters 6, 17, 19) -/

/-- A history record (Table 6-3). `stc` is none when the timebase was not running. -/
structure HistRec where
  stc : Option Nat
  guardTime : Nat
  ch : Nat
  cause : Nat
  detail : Nat
  flags : Nat
  deriving DecidableEq, Repr

/-- Guard-domain state; `arst` is 1 while a keyed audio reset has started its safe stop and not yet reset the audio domain (R537). -/
structure Guard where
  ready : Bool
  audioReset : Bool
  thermLatch : Bool
  safe : Bool
  prsnt : Bool
  ovP : Bool
  ovN : Bool
  uvP : Bool
  uvN : Bool
  trip : Byte
  event : BitVec 16
  history : List HistRec
  uncopied : Nat
  timeUs : Nat
  powerOnMs : Nat
  tripMask : List (List Bool)
  gpioIn : BitVec 6
  gpioOe : BitVec 6
  gpioOut : BitVec 6
  keyArmed : Bool
  keyCount : Nat
  arst : Bool
  dbgPermit : Bool
  smbAddr : BitVec 2
  smbPtr : Nat
  smbHist : Nat
  smbIgnored : Bool
  smbNotServed : Bool
  smbAlert : Bool
  smbOut : List Byte
  backstops : List Bool
  hold : Bool
  missedPolls : Nat
  serial : List Byte
  jtag : JtagInstr
  jtagRefused : Bool
  deriving DecidableEq, Repr

/-! ### The timebase (chapter 2) -/

/-- Timebase states of Table 2-2. -/
inductive TbState where
  | freerun | locked | holdover
  deriving DecidableEq, Repr

/-- What an Fi boundary brings beside FI_BOUNDARY itself, each with a row of its own: an image's boundary B or B + 1, the outer
boundary, the end and the opening of a channel's Re window, the grant cycle, a snapshot, and the selection of a source. -/
inductive BdEvent where
  | welt
  | outer
  | windowClose (c : Nat)
  | windowOpen (c : Nat)
  | grant
  | snap
  | select
  deriving DecidableEq, Repr

/-- Timebase registers and state. `qualAt` holds for each source code the first Fi boundary at or after its qualification (R49). `marks` holds STC, phase and carrier multiple of the last marks, newest first; `todo` holds the events that the present Fi boundary still brings, and `cmdsDue` says that its
commands, which apply after them (R401), have not run. -/
structure Timebase where
  src : List (BitVec 2)
  sapSel : Nat
  refinMode : Bool
  autoFallback : Bool
  revert : Bool
  qualAt : List Nat
  state : TbState
  active : BitVec 2
  lost : BitVec 2
  slewing : Bool
  qual : BitVec 3
  refinRate : Nat
  event : BitVec 5
  n : Nat
  running : Bool
  stc : Nat
  started : Bool
  m : Nat
  snapPend : Bool
  snapReady : Bool
  snapSeq : Nat
  snapStc : Nat
  snapFrame : Nat
  snapPhase : Nat
  snapValid : Bool
  snapMstc : Nat
  markFrame : Nat
  markPhase : Nat
  markValid : Bool
  markStc : Nat
  marksPresent : Bool
  frameCount : Nat
  frameLow : Nat
  lowSeen : Bool
  markWait : Option (Nat × Nat)
  marks : List (Nat × Nat × Nat)
  partner : Nat
  period : Nat
  zaithRate : Bool
  ztx : W64
  ztxIdx : Nat
  target : BitVec 2
  stepping : Bool
  frameSeen : Bool
  markCycle : Bool
  todo : List BdEvent
  cmdsDue : Bool
  deriving DecidableEq, Repr

/-! ### Tiles and the image in force (chapters 3, 7, 16) -/

/-- One logical tile: its data half, the shadows waiting for a boundary, its state copy in the spares (`copyPrev` as it stood before
the last Fc sequence), whether the shared copy of its image is unreadable, and the physical tile that serves it. `before` is the data half as it stood just before the present Fi boundary, from which every
rescale of that boundary starts (R239); a carrier boundary drops it. A word of `outerShadow` stands with the STC of the Fi period in which it was written; `grantMiss` marks a GRANT
that found no complete grant cycle (R278), and `skipNext` a mix sequence that R90 leaves out in the next Fi period. -/
structure TileState where
  data : Mem Block
  before : Option (Mem Block)
  shadow : List (Nat × Block)
  outerShadow : List (Nat × Nat × Nat × Slot)
  grantMiss : Bool
  copy : Mem Block
  copyPrev : Mem Block
  copyBad : Bool
  phys : Nat
  failed : Bool
  loading : Option Nat
  skipFc : Bool
  skipFi : Bool
  skipNext : Bool
  holdSlices : Bool
  lateFi : Bool
  lateNext : Bool
  groupLoop : List Bool
  fiLoop : List Bool
  deriving DecidableEq, Repr

/-- Slack telemetry of one physical tile (Table 3-9). -/
structure SlackRec where
  fcMin : Nat
  fcMinInt : Nat
  fiMin : Nat
  fiMinInt : Nat
  lateFi : Nat
  skipped : Nat
  fcLast : Nat
  deriving DecidableEq, Repr

/-- A block on the fabric: source, destination, its place among the XFER_OUT stitches of that pair, and content. -/
structure XferBlk where
  src : Nat
  dst : Nat
  ord : Nat
  blk : Block
  deriving DecidableEq, Repr

/-- Progress of an image activation (R92 to R96). -/
inductive ActPhase where
  | staging | stagedWait | welt
  deriving DecidableEq, Repr

/-- The activation that is staged or in its welt period. `fetch` is the first Fi boundary after its fetch (R92), `at_` the
boundary B at which its welt period opened. -/
structure Activation where
  ref : Option CmdRef
  fetch : Nat
  slot : Nat
  image : Image
  phase : ActPhase
  at_ : Nat
  mark : Bool
  deriving DecidableEq, Repr

/-- Tiles, fabric, image in force and activation. -/
structure Core where
  tiles : Bank TileState 20
  slack : Bank SlackRec 23
  xferNow : List XferBlk
  xferNext : List XferBlk
  shared : Mem Block
  image : Option Image
  imageSlot : Nat
  act : Option Activation
  deriving DecidableEq, Repr

/-! ### The Awl and capture (chapter 8) -/

/-- A generator: its record, tones, and running state. -/
structure Gen where
  cfg : Option GenRec
  tones : List Tone
  running : Bool
  n : Nat
  phase : Nat
  lfsr : Nat
  value : Int
  deriving DecidableEq, Repr

/-- An injection tap. -/
structure Tap where
  gen : Nat
  node : TapNode
  ch : Nat
  gain : Int
  deriving DecidableEq, Repr

/-- A capture entry (Table 8-8). -/
structure CapEntry where
  value : Int
  flags : Nat
  inj : Int
  bad : Bool
  deriving DecidableEq, Repr

/-- A capture unit: its record, ring and counters. -/
structure Cap where
  armed : Bool
  point : CapPoint
  ch : Nat
  cont : Bool
  strobe : CapStrobe
  dec : Nat
  ring : Nat
  limit : Nat
  entries : List CapEntry
  first : Nat
  written : Nat
  overwritten : Nat
  evals : Nat
  latch : CapEntry
  due : Bool
  heldBy : Option Nat
  half : Bool
  deriving DecidableEq, Repr

/-- The Awl: 8 generators, 16 taps and 16 capture units, with the injection of each channel's last evaluation. -/
structure Awl where
  gens : Bank Gen 8
  taps : Bank (Option Tap) 16
  caps : Bank Cap 16
  inj : Bank Int 128
  deriving DecidableEq, Repr

/-! ### Mixes, sources and streams (chapter 11) -/

/-- A mix term: source code and gain in Q4.20. -/
structure Term where
  code : Nat
  gain : Int
  deriving DecidableEq, Repr

/-- One output mix. `inj` is what the AWL stitch of the present Fi period adds to its bus (R244), and `delayHold` marks a sample whose DLY_RD delivers its previous output (Table 16-1). -/
structure MixCh where
  terms : List Term
  outGain : Int
  group : Option Nat
  tau : Nat
  slew : Nat
  tauNow : Nat
  thr : Nat
  rel : Nat
  gLim : Int
  win : List Int
  line : Mem Int
  lineSize : Nat
  lastDelay : Int
  out : Int
  delayWord : Int
  inj : Int
  busSat : Nat
  gainSat : Nat
  limGr : Nat
  delayHold : Bool
  deriving DecidableEq, Repr

/-- A sample of a host-stream FIFO, with the END flag of its STREAM_WRITE on its last sample (R331). -/
structure HsSample where
  v : Int
  fin : Bool
  deriving DecidableEq, Repr

/-- A timed STREAM_WRITE that has its room: its `count` samples start `ahead` samples behind the FIFO's head at `at_` (R412). -/
structure HsStart where
  at_ : Nat
  ahead : Nat
  count : Nat
  ref : CmdRef
  deriving DecidableEq, Repr

/-- One host stream. -/
structure Stream where
  en : Bool
  rate : Nat
  fifo : List HsSample
  running : Bool
  acc : Nat
  last : Int
  hist : List Int
  underruns : Nat
  underLog : Nat
  overLog : Nat
  discardNext : Nat
  starts : List HsStart
  deriving DecidableEq, Repr

/-- A gain trajectory that started at boundary `start` and has taken `k` of its steps (R339). -/
structure Traj where
  ref : CmdRef
  start : Nat
  obj : GainObj
  g0 : Int
  g1 : Int
  steps : Nat
  k : Nat
  log : Bool
  deriving DecidableEq, Repr

/-- A gain group (Table 11-5). -/
structure GainGroup where
  gain : Int
  deriving DecidableEq, Repr

/-- Mixes, sources, streams, trajectories; `muteDue` waits for the Fi boundary after a loss of the host (R460); `gBefore` holds the gains that stood just before the present boundary where a
command has changed them there (R339). -/
structure Mix where
  chs : Bank MixCh 128
  groups : Bank GainGroup 64
  corners : Mem Nat
  hpf : Mem (Int × Int)
  srcNow : Mem Int
  streams : Bank Stream 128
  trajs : List Traj
  taps : Mem (Nat × Bool)
  muted : Bool
  muteDue : Bool
  gBefore : List (GainObj × Int)
  deriving DecidableEq, Repr

/-! ### Serial audio ports (chapter 12) -/

/-- The format of a port (Table 12-5). -/
structure SapFmt where
  en : Bool
  out : Bool
  master : Bool
  free : Bool
  bclkInv : Bool
  fsInv : Bool
  tristate : Bool
  fsHalf : Bool
  slots : Nat
  width : Nat
  dataBits : Nat
  offset : Nat
  rate : Nat
  div : Nat
  mclk : Nat
  deriving DecidableEq, Repr

/-- One serial audio port. `resync` is 0, or the LAST_KIND of what made the port resynchronise; `slipPend` is the slip an
evaluation decided (1 DROP, −1 REPEAT), doubled once it is due at the next tick; `evalSum` is the sum of the fill over 1,024 ticks that
waits for its evaluation, and `partMhz` the partner's measured frame rate in mHz, 0 while there is none. Frames are lists of Q1.31 samples, one per slot; a masked slot of an input frame holds 0. -/
structure Sap where
  fmt : SapFmt
  running : Bool
  resync : Nat
  started : Bool
  fifo : List (List Int)
  last : List Int
  sent : List Int
  sentMask : W32
  hist : List (List Int)
  outConv : List Int
  mask : W32
  maskPend : W32
  acc : Nat
  ticks : Nat
  fillSum : Int
  evalSum : Option Int
  phase : Int
  lastSlip : Int
  slipPend : Int
  discardNext : Nat
  drops : Nat
  repeats : Nat
  underruns : Nat
  overruns : Nat
  standin : Nat
  frameErr : Nat
  groupActs : Nat
  partPresent : Bool
  partMatch : Bool
  partRate : Nat
  partBclk : Nat
  partSlots : Nat
  partMhz : Nat
  deriving DecidableEq, Repr

/-- An alignment group (R376, Table 12-4). -/
structure AlignGroup where
  ports : Byte
  streams : List Nat
  events : Nat
  lastStc : Nat
  lastKind : Nat
  lastMember : Nat
  lastAction : Nat
  deriving DecidableEq, Repr

/-- All ports and groups; `bitsIn` holds what each port had received of its frame just before each tick of the present Fi period (R366). -/
structure Ports where
  sap : Bank Sap 8
  groups : Bank AlignGroup 16
  bitsIn : List (List Nat)
  deriving DecidableEq, Repr

/-! ### Queues and commands (chapters 13 and 14) -/

/-- A queue pair; `blocked` holds the CID of the CREATE_QUEUE whose completion isn't posted yet (R433). -/
structure Queue where
  cls : Nat
  ien : Bool
  vector : Nat
  sqDepth : Nat
  cqDepth : Nat
  sqBase : Nat
  cqBase : Nat
  sqHead : Nat
  sqTail : Nat
  cqTail : Nat
  cqHead : Nat
  phase : Bool
  blocked : Option (BitVec 16)
  deleting : Bool
  deriving DecidableEq, Repr

/-- Progress of a fetched command (Table 13-5, R447). -/
inductive Prog where
  | waiting | due | cue | committed | framed | started | copying | traj | checking
  deriving DecidableEq, Repr

/-- A fetched command that has not completed: its journal entry (R447, R513). `fetched` is the first Fi boundary after its fetch. -/
structure Flight where
  ref : CmdRef
  opcode : Nat
  order : Nat
  fetched : Nat
  cmd : Instr
  prog : Prog
  at_ : Nat
  frame : Nat
  offset : Nat
  lateApply : Bool
  timed : Bool
  written : Bool
  replay : Bool
  deriving DecidableEq, Repr

/-- A completion waiting to be posted (Table 13-4): until it is written its command stands in the journal (R447), with its place in
fetch order, and `at_` is the Fi boundary at which the command completed, if it did at one (R402). -/
structure Completion where
  q : QId
  cid : BitVec 16
  order : Nat
  at_ : Option Nat
  opcode : Nat
  status : Nat
  r0 : Nat
  r1 : Nat
  replayed : Bool
  deriving DecidableEq, Repr

/-- A command that waits for others (R422, R455 to R458): KIND 0 FLUSH, 1 QUEUE_RESET, 2 DELETE_QUEUE of queue `scope` over the
commands before `upTo` in fetch order, 3 ABORT of the command `upTo` of queue `scope`. -/
structure Waiter where
  ref : CmdRef
  kind : Nat
  scope : Nat
  upTo : Nat
  r0 : Nat
  r1 : Nat
  deriving DecidableEq, Repr

/-- A STREAM_WRITE that waits for room (R328). -/
structure StreamWait where
  ref : CmdRef
  h : Nat
  fin : Bool
  samples : List Int
  start : Option Nat
  deriving DecidableEq, Repr

/-- The MSI-X vectors (R426, R442): those whose mask bit is clear, the other words of the table, the function's mask,
pending bits, the messages sent (newest first) and the vectors with deferred signals and their counts. (PRESUMED, log entry 9.) -/
structure Msix where
  unmasked : List Nat
  table : Mem Nat
  funcMasked : Bool
  pendBits : List Nat
  sent : List Nat
  deferred : List (Nat × Nat)
  deriving DecidableEq, Repr

/-- An error record of log page 0x01 (Table 14-6). -/
structure ErrRec where
  stc : Nat
  sqId : Nat
  cid : Nat
  opcode : Nat
  status : Nat
  reason : Nat
  tile : Nat
  phase : Nat
  slice : Nat
  param : Nat
  index : Nat
  r0 : Nat
  r1 : Nat
  deriving DecidableEq, Repr

/-- The queue interface; `gone` lists the commands that outlived the loss of their queue's context (Table 16-1). -/
structure Qif where
  en : Bool
  rdy : Bool
  cfgErr : Bool
  paused : Bool
  width : BitVec 3
  speed : BitVec 4
  aqSq : Nat
  aqCq : Nat
  aqIen : Bool
  asqLo : W32
  asqHi : W32
  acqLo : W32
  acqHi : W32
  evVector : Nat
  evSel : BitVec 4
  evEn : Bool
  errQueue : Nat
  errKind : Nat
  errCount : Nat
  queues : Mem Queue
  flights : List Flight
  order : Nat
  outbox : List Completion
  waiters : List Waiter
  swaits : List StreamWait
  msix : Msix
  wHigh : Nat
  wMed : Nat
  wLow : Nat
  turnHigh : Nat
  turnMed : Nat
  turnLow : Nat
  lastServed : List Nat
  coalThresh : Nat
  coalTime : Nat
  cfgReady : Bool
  linkUp : Bool
  session : Nat
  gone : List CmdRef
  deriving DecidableEq, Repr

/-- A firmware slot (Table 14-8). -/
structure FwSlot where
  st : Nat
  rev : List Byte
  build : Nat
  len : Nat
  key : Nat
  stc : Nat
  acts : Nat
  deriving DecidableEq, Repr

/-- An image slot: its stored bytes, the STC of its load, and whether an uncorrectable code word affects its header (1) or the rest of
it (2). -/
structure ImgSlot where
  valid : Bool
  bytes : List Byte
  stc : Nat
  ecc : Nat
  deriving DecidableEq, Repr

/-- A write to the non-volatile store in progress (R446). A load record's write holds the contents it replaces as well, since while the
window is closed the copy in shared SRAM governs (R484). -/
inductive NvJob where
  | fw (ref : CmdRef) (slot : Nat) (c : FwSlot) (boot : Bool)
  | fwBoot (ref : CmdRef) (slot : Nat)
  | image (ref : CmdRef) (slot : Nat) (bytes : List Byte)
  | mark (ref : Option CmdRef) (slot : Option Nat)
  | record (slot : Nat) (old new : List Byte)
  | health
  | move (block : Nat)
  deriving DecidableEq, Repr

/-- The replay record of log page 0x08 (Table 14-9). -/
structure Replay where
  stcPause : Nat
  stcResume : Nat
  pauseUs : Nat
  fromSlot : Nat
  toSlot : Nat
  outcome : Nat
  journalled : Nat
  cuesDue : Nat
  recs : List (Nat × Nat × Nat × Nat × Nat)
  deriving DecidableEq, Repr

/-- Stewards (`recFree` lists the load-record slots no channel is bound to, longest unbound first): features, slots, staging buffers, logs, firmware activation. -/
structure Admin where
  booted : Bool
  policyMute : Bool
  telemetryMs : Nat
  fwBuf : List Byte
  imgBuf : List Byte
  fw : Bank FwSlot 2
  fwRunning : Nat
  fwBoot : Nat
  img : Bank ImgSlot 4
  autoSlot : Option Nat
  keys : List (Option (Nat × Nat))
  nv : List NvJob
  nvDeferred : List NvJob
  errLog : List ErrRec
  errTotal : Nat
  trips : List HistRec
  tripTotal : Nat
  act : Option (CmdRef × Nat × Nat)
  replay : Replay
  records : Mem (List Byte)
  recFree : List Nat
  bringup : Bool
  autoTried : Bool
  autoRelease : W32
  autoArmed : Bool
  hostMem : Mem Byte
  deriving DecidableEq, Repr

/-! ### The Shank and the temperature sensors (chapter 15) -/

/-- A temperature sensor (Table 15-11). -/
structure Therm where
  reading : Int
  read : Bool
  broken : Bool
  inUse : Bool
  retired : Bool
  fast : Bool
  fault : Bool
  deriving DecidableEq, Repr

/-- The Shank and the thermal levels. `tjRun` is the highest Tj so far in the present telemetry interval. -/
structure Shank where
  pCont : Nat
  pPeak : Nat
  bucket : Nat
  eta : Nat
  pIdle : Nat
  capP : Nat
  capN : Nat
  e : Int
  fRise : Int
  bind : Nat
  allow : Nat
  out : Nat
  irail : Nat
  icapP : Nat
  icapN : Nat
  cycles : Nat
  grants : Bank Nat 128
  govern : Bank Nat 128
  demand : Bank Nat 128
  level : Bank Nat 128
  fresh : Bool
  warnSet : Int
  warnHyst : Int
  thrHyst : Int
  thrSet : Int
  sensors : Bank Therm 54
  tileL : Bank (List Bool) 16
  coreL : List Bool
  warn : Bool
  throttle : Bool
  event : BitVec 7
  tjMax : Int
  tjRun : Int
  deriving DecidableEq, Repr

/-! ### The Cobbler (chapter 16) -/

/-- The Cobbler: the code words corrected in the last pass, hard-error rows that wait for a spare row, spare rows unused in each
memory, the segment tested next and the wear counts last saved. -/
structure Cobbler where
  lastPass : Nat
  latePass : Bool
  passes : Nat
  uncorr : Nat
  wher : Nat
  uncTotal : Nat
  corrected : Nat
  unavailable : Nat
  etMtFailed : List Bool
  failovers : Nat
  foLogical : Nat
  foFrom : Nat
  foTo : Nat
  foCause : Nat
  lastRows : List RowAddr
  hardRows : List RowAddr
  spareRows : List Nat
  segPos : Nat
  nvWear : Nat
  tsenseSpares : Nat
  wearSaved : List Nat
  deriving DecidableEq, Repr

/-- Growth (R524 to R526). -/
structure Growth where
  member : Nat
  growth : Nat
  step : Nat
  deriving DecidableEq, Repr

/-! ### The whole part -/

/-- Everything the spec gives the part. `free` is the model's own counter: how many free values have been taken
(DESIGN CHOICE: log entry 1). -/
structure Dev where
  chs : Bank Chan 128
  power : Bank Power 16
  rails : Rails
  guard : Guard
  tb : Timebase
  core : Core
  groupRel : Bank Bool 32
  groupRamp : Bank (Option Nat) 32
  rampLen : Bank Nat 32
  relWait : List (CmdRef × Nat)
  stops : List (CmdRef × List Nat × Nat)
  halt : Bool
  haltMask : List W32
  evi : Bank (Nat × Nat × Nat × Bool × Nat × Nat) 16
  awl : Awl
  mix : Mix
  ports : Ports
  qif : Qif
  admin : Admin
  shank : Shank
  cob : Cobbler
  growth : Growth
  free : Nat
  deriving DecidableEq, Repr

/-- The block: the commands that wait, first in, first out, and the part. -/
structure State where
  pending : List Instr
  dev : Dev
  deriving DecidableEq, Repr

/-! ### Reset values

The state after a guard reset (VAUX rising): guard, audio and host domain registers at the reset values of their
tables, audio reset asserted (R522), the non-volatile store as a part from which no image, firmware record or load
record has been written (DESIGN CHOICE: log entry 3). -/

/-- Reset values of the image parameters of a channel: the Reset columns of Tables 4-8, 5-5, 6-6, 7-7, 9-8, 10-7, 15-7. -/
def ChanCfg.reset : ChanCfg where
  deadTime := 40
  updMid := false
  ffEn := true
  ffRef := 18000
  manPermit := false
  relGroup := none
  polarityPair := false
  ilim := 130
  blank := 12
  tripCount := 16
  tripWindow := 64
  dcThresh := 200
  dcTime := 50
  privileged := false
  bridged := false
  outputScale := 16000
  xMax := 300
  vMax := 20000
  tLim := 1500
  rc := 400
  tauC := 8000
  rm := 150
  tauM := 900
  tAmb := 250
  alpha := 3930
  gFloor := 0x0CCD
  pilotEn := true
  reSigMin := 100
  loadId := List.replicate 16 0
  mms := 0
  cableR := 0
  lfDcr := 200
  shankClass := false
  iRated := 2500
  inUse := false

/-- No flag set. -/
def Flags.none : Flags := ⟨false, false, false, false, false, false⟩

/-- Tables 4-9 to 4-14; half duty before any word (R36), error states 0 (R109). (DESIGN CHOICE, log entry 7.) -/
def Mod.reset : Mod where
  handoff := []
  shadow := 0x400000#24
  shadowNew := false
  nearPrev := none
  nearPrevP := none
  pending := 0x400000#24
  pendRails := ⟨0, 0⟩
  manShadowP := 256
  manNewP := false
  pendPeriod := 256
  period := 256
  e1 := 0
  e2 := 0
  flags := .none
  sampleFlags := .none
  collPend := false
  tripPend := false
  tripSmp := false
  dead := 40
  wordIn := false
  held := none
  duty := 0x400000#24
  edge := 0x800
  hs := false
  ls := false
  plan := []
  edgeAt := 0
  phase := 0
  collisions := 0
  cmpA := 0
  cmpB := 0
  auxA := false
  auxB := false
  cmpANow := 0
  cmpBNow := 0
  manEnable := false
  manFF := false
  manDuty := 0x400000#24
  manPeriod := 256
  manual := false
  manPend := none
  exitHold := 0
  halted := false
  counting := false

/-- Table 6-8 and R189: unlatched, no trips, DC timer at zero, unreleased. (DESIGN CHOICE, log entry 7.) -/
def Prot.reset : Prot where
  drive := .off
  released := false
  ssPend := false
  ssCount := 0
  sweep := false
  latched := false
  cause := 0
  perIdx := 0
  tripAt := []
  trips := 0
  dcNeg := none
  oos := 0
  check := none

/-- Reset columns of Tables 7-8, 8-11 and 9-9 to 9-12. -/
def LoopStat.reset : LoopStat where
  frozen := false
  clamped := false
  held := false
  ramp := false
  satf := false
  satRun := false
  freezes := 0
  region := 0
  switched := false
  cond := 0
  condRun := 0
  switches := 0
  tc := 0
  tm := 0
  initT := false
  measured := false
  pilot := false
  unident := false
  hot := false
  reMeas := 0
  rejects := 0
  windows := 0
  gExc := 0x80
  gTh := 0x80
  gGrant := 0x80
  bind := 0
  xpk := 0

/-- No sample yet: previous values 0 (R36). (DESIGN CHOICE, log entry 7.) -/
def Sense.reset : Sense where
  v := 0
  i := 0
  meanV := 0
  meanI := 0
  meanVPrev := 0
  powSum := 0
  report := 0
  reportBind := 0
  xpkRun := 0
  winCnt := none
  winClosed := false
  seenLoop := false
  reNext := none
  originAt := 0

/-- No table written; all ENABLE 0 and ρ = 0 (Table 8-10); no link. -/
def RegionSet.reset : RegionSet where
  tables := List.replicate 8 (List.replicate 12 0)
  conds := List.replicate 7 0
  rho := 0
  link := List.replicate 10 0xFFFF

/-- A channel after reset. The segments and their on-resistance are those of a part as new (DESIGN CHOICE: log entry 3). -/
def Chan.reset : Chan where
  cfg := .reset
  mod := .reset
  prot := .reset
  stat := .reset
  sense := .reset
  region := .reset
  meas := none
  measClass := 4
  bound := none
  loadRec := []
  kv := .c 0x555555 0
  late := 0
  seg := [0, 0]
  segSwap := [false, false]
  ron := [150000, 150000]
  coss := [0, 0]
  wear := 0
  conf := false
  lost := false

/-- Tables 5-5, 5-7 and 16-11. -/
def Power.reset : Power where
  rail := ⟨0, 0⟩
  sagGain := 2 ^ 47
  sagPend := none
  hmin := 0
  hRun := none
  fiMin := none
  fiMinLast := 0
  sumP := 0
  sumN := 0
  cnt := 0
  senseRemote := false
  sagEn := true
  vKnee := 17000
  vMargin := 1000
  sagRise := 100
  sagPhase := 0
  vSpare := false
  iSpare := false
  vFailed := 0
  iFailed := 0
  calV := 0xF
  calI := 0xF

/-- Tables 5-5, 5-8, 10-9, 17-8 and 17-10. (DESIGN CHOICE, log entry 7.) -/
def Rails.reset : Rails where
  clampP := false
  clampN := false
  riseP := false
  riseN := false
  reportP := false
  reportN := false
  belowP := false
  belowN := false
  clampFiP := false
  clampFiN := false
  riseThr := 19500
  riseHyst := 500
  supVrailP := 0
  supVrailN := 0
  supRsrcP := 0xFFFF
  supRsrcN := 0xFFFF
  cbulkP := 0
  cbulkN := 0
  ppP := 0
  ppN := 0
  rippleFreq := 0
  icapP := none
  icapN := none
  sumP := 0
  sumN := 0
  sumCnt := 0
  minP := 0
  maxP := 0
  minN := 0
  maxN := 0
  crossP := []
  crossN := []
  preState := 0
  stageP := 0
  stageN := 0
  preFail := 0
  preDone := 0
  prsntMs := 0
  supplyMs := 0
  hsvP := 0
  hsvN := 0
  stage3Fi := 0
  iIn := 40
  iInNow := 40
  preTimeout := 500
  preTimeNow := 500
  preFi := 0
  sinceDone := 0
  okSinceFi := false
  okLast := false

/-- Tables 6-10 to 6-12, 17-9 and 17-11; the pins are low (DESIGN CHOICE: log entry 3). (PRESUMED, log entry 10.) -/
def Guard.reset : Guard where
  ready := false
  audioReset := true
  thermLatch := false
  safe := false
  prsnt := false
  ovP := false
  ovN := false
  uvP := false
  uvN := false
  trip := 0
  event := 0
  history := []
  uncopied := 0
  timeUs := 0
  powerOnMs := 0
  tripMask := List.replicate 8 (List.replicate 128 false)
  gpioIn := 0
  gpioOe := 0
  gpioOut := 0
  keyArmed := false
  keyCount := 0
  arst := false
  dbgPermit := false
  smbAddr := 0
  smbPtr := 0
  smbHist := 0
  smbIgnored := false
  smbNotServed := false
  smbAlert := false
  smbOut := []
  backstops := []
  hold := false
  missedPolls := 0
  serial := List.replicate 16 0
  jtag := .idcode
  jtagRefused := false

/-- Tables 2-6 to 2-9 and 10-10. -/
def Timebase.reset : Timebase where
  src := [1, 2, 3]
  sapSel := 0
  refinMode := false
  autoFallback := true
  revert := true
  qualAt := [0, 0, 0, 0]
  state := .freerun
  active := 0
  lost := 0
  slewing := false
  qual := 0
  refinRate := 0
  event := 0
  n := 18
  running := false
  stc := 0
  started := false
  m := 0
  snapPend := false
  snapReady := false
  snapSeq := 0
  snapStc := 0
  snapFrame := 0
  snapPhase := 0
  snapValid := false
  snapMstc := 0
  markFrame := 0
  markPhase := 0
  markValid := false
  markStc := 0
  marksPresent := false
  frameCount := 0
  frameLow := 0
  lowSeen := false
  markWait := none
  marks := []
  partner := 0
  period := 0
  zaithRate := false
  ztx := 0
  ztxIdx := 0
  target := 0
  stepping := false
  frameSeen := false
  markCycle := false
  todo := []
  cmdsDue := false

/-- A logical tile at audio reset: every block at zero, served by its own physical tile (R21, R22, R208). -/
def TileState.reset (phys : Nat) : TileState where
  data := []
  before := none
  shadow := []
  outerShadow := []
  grantMiss := false
  copy := []
  copyPrev := []
  copyBad := false
  phys := phys
  failed := false
  loading := none
  skipFc := false
  skipFi := false
  skipNext := false
  holdSlices := false
  lateFi := false
  lateNext := false
  groupLoop := List.replicate 8 false
  fiLoop := List.replicate 8 false

/-- Minima at their largest values (R91). -/
def SlackRec.reset : SlackRec := ⟨0xFFFF, 0xFFFF, 0xFFFFFFFF, 0xFFFFFFFF, 0, 0, 0⟩

/-- Tiles, fabric and images at audio reset. -/
def Core.reset : Core where
  tiles := Vector.ofFn fun t : Fin 20 => TileState.reset (if t.val < 16 then t.val else t.val + 2)
  slack := Vector.replicate 23 SlackRec.reset
  xferNow := []
  xferNext := []
  shared := []
  image := none
  imageSlot := 0xFF
  act := none

/-- A generator that no INJECT has armed. -/
def Gen.reset : Gen := ⟨none, [], false, 0, 0, 0, 0⟩

/-- An unarmed capture unit (Table 8-12). -/
def Cap.reset : Cap where
  armed := false
  point := .voltage
  ch := 0
  cont := false
  strobe := .carrier
  dec := 1
  ring := 1024
  limit := 1
  entries := []
  first := 0
  written := 0
  overwritten := 0
  evals := 0
  latch := ⟨0, 0, 0, false⟩
  due := false
  heldBy := none
  half := false

/-- The Awl at audio reset. -/
def Awl.reset : Awl := ⟨Vector.replicate 8 .reset, Vector.replicate 16 none, Vector.replicate 16 .reset, Vector.replicate 128 0⟩

/-- The reset values of Table 11-5 for one mix; the limiter's gain is 1 (R349). -/
def MixCh.reset : MixCh where
  terms := []
  outGain := 0x100000
  group := none
  tau := 0
  slew := 0
  tauNow := 0
  thr := 10
  rel := 30
  gLim := 2 ^ 64
  win := []
  line := []
  lineSize := 0
  lastDelay := 0
  out := 0
  delayWord := 0
  inj := 0
  busSat := 0
  gainSat := 0
  limGr := 0
  delayHold := false

/-- An idle, disabled stream (Tables 11-5 and 11-7). -/
def Stream.reset : Stream := ⟨false, 0, [], false, 0, 0, [], 0, 0, 0, 0, []⟩

/-- Mixes at audio reset. -/
def Mix.reset : Mix where
  chs := Vector.replicate 128 .reset
  groups := Vector.replicate 64 ⟨0x100000⟩
  corners := []
  hpf := []
  srcNow := []
  streams := Vector.replicate 128 .reset
  trajs := []
  taps := []
  muted := false
  muteDue := false
  gBefore := []

/-- Reset column of Table 12-5. -/
def SapFmt.reset : SapFmt :=
  ⟨false, false, false, false, false, false, false, false, 8, 32, 24, 0, 3, 0, 0⟩

/-- A disabled port (Tables 12-6 to 12-8 and 10-10). -/
def Sap.reset : Sap where
  fmt := .reset
  running := false
  resync := 0
  started := false
  fifo := []
  last := []
  sent := []
  sentMask := 0
  hist := []
  outConv := []
  mask := 0
  maskPend := 0
  acc := 0
  ticks := 0
  fillSum := 0
  evalSum := none
  phase := 0
  lastSlip := 0
  slipPend := 0
  discardNext := 0
  drops := 0
  repeats := 0
  underruns := 0
  overruns := 0
  standin := 0
  frameErr := 0
  groupActs := 0
  partPresent := false
  partMatch := false
  partRate := 0
  partBclk := 0
  partSlots := 0
  partMhz := 0

/-- Ports at audio reset. -/
def Ports.reset : Ports := ⟨Vector.replicate 8 .reset, Vector.replicate 16 ⟨0, [], 0, 0, 0, 0, 0⟩, []⟩

/-- The queue interface at a host reset (Tables 13-13 to 13-16; features 0x01 and 0x05 of Table 14-10). The link is
down until it trains. (PRESUMED, log entry 9.) -/
def Qif.reset : Qif where
  en := false
  rdy := false
  cfgErr := false
  paused := false
  width := 0
  speed := 0
  aqSq := 0
  aqCq := 0
  aqIen := false
  asqLo := 0
  asqHi := 0
  acqLo := 0
  acqHi := 0
  evVector := 0
  evSel := 0
  evEn := false
  errQueue := 0
  errKind := 0
  errCount := 0
  queues := []
  flights := []
  order := 0
  outbox := []
  waiters := []
  swaits := []
  msix := ⟨[], [], false, [], [], []⟩
  wHigh := 15
  wMed := 3
  wLow := 0
  turnHigh := 0
  turnMed := 0
  turnLow := 0
  lastServed := [16383, 16383, 16383, 16383]
  coalThresh := 0
  coalTime := 0
  cfgReady := false
  linkUp := false
  session := 0
  gone := []

/-- Stewards and stores: slots empty, no key installed, nothing marked (DESIGN CHOICE: log entry 3); Table 14-9 with none.
(DESIGN CHOICE, log entry 8.) -/
def Admin.reset : Admin where
  booted := false
  policyMute := false
  telemetryMs := 1000
  fwBuf := []
  imgBuf := []
  fw := Vector.replicate 2 ⟨0, List.replicate 8 0, 0, 0, 0, 0, 0⟩
  fwRunning := 0
  fwBoot := 0
  img := Vector.replicate 4 ⟨false, [], 0, 0⟩
  autoSlot := none
  keys := [none, none, none, none]
  nv := []
  nvDeferred := []
  errLog := []
  errTotal := 0
  trips := []
  tripTotal := 0
  act := none
  replay := ⟨0, 0, 0, 0, 0, 0xFF, 0, 0, []⟩
  records := []
  recFree := []
  bringup := true
  autoTried := false
  autoRelease := 0
  autoArmed := false
  hostMem := []

/-- A sensor that has not been sampled: READING and the health bits are X, taken as a part as new (DESIGN CHOICE: log entry 3). -/
def Therm.reset (inUse : Bool) : Therm := ⟨0, false, false, inUse, false, false, false⟩

/-- Tables 15-7 to 15-12 and R467, R471, R487. -/
def Shank.reset : Shank where
  pCont := 1280
  pPeak := 3200
  bucket := 4000
  eta := 900
  pIdle := 360
  capP := 0
  capN := 0
  e := 0
  fRise := 128
  bind := 0
  allow := 0
  out := 0
  irail := 0
  icapP := 0xFFFF
  icapN := 0xFFFF
  cycles := 0
  grants := Vector.replicate 128 0x8000
  govern := Vector.replicate 128 0x8000
  demand := Vector.replicate 128 0
  level := Vector.replicate 128 0
  fresh := false
  warnSet := 1100
  warnHyst := 50
  thrHyst := 50
  thrSet := 1200
  sensors := Vector.ofFn fun i : Fin 54 => Therm.reset (if i.val < 48 then i.val % 3 != 2 else i.val < 52)
  tileL := Vector.replicate 16 [false, false, false]
  coreL := [false, false, false]
  warn := false
  throttle := false
  event := 0
  tjMax := -550
  tjRun := -550

/-- Tables 16-8 and 16-9, nothing retired. -/
def Cobbler.reset : Cobbler where
  lastPass := 0
  latePass := false
  passes := 0
  uncorr := 0
  wher := 0
  uncTotal := 0
  corrected := 0
  unavailable := 0
  etMtFailed := List.replicate 23 false
  failovers := 0
  foLogical := 0x1F
  foFrom := 0x1F
  foTo := 0x1F
  foCause := 0
  lastRows := []
  hardRows := []
  spareRows := List.replicate 23 41 ++ [2622]
  segPos := 0
  nvWear := 0
  tsenseSpares := 18
  wearSaved := List.replicate 128 0

/-- MEMBER 0x00 and GROWTH 0 (Table 17-9). -/
def Growth.reset : Growth := ⟨0, 0, 0⟩

/-- The part right after a guard reset. (DESIGN CHOICE, log entry 3.) -/
def Dev.reset : Dev where
  chs := Vector.replicate 128 .reset
  power := Vector.replicate 16 .reset
  rails := .reset
  guard := .reset
  tb := .reset
  core := .reset
  groupRel := Vector.replicate 32 false
  groupRamp := Vector.replicate 32 none
  rampLen := Vector.replicate 32 960
  relWait := []
  stops := []
  halt := false
  haltMask := [0, 0, 0, 0]
  evi := Vector.replicate 16 (0, 0, 0, false, 0, 0)
  awl := .reset
  mix := .reset
  ports := .reset
  qif := .reset
  admin := .reset
  shank := .reset
  cob := .reset
  growth := .reset
  free := 0

/-- The EX128 right after a guard reset, with an empty command queue. (DESIGN CHOICE, log entry 3.) -/
def State.reset : State := ⟨[], .reset⟩

end Sys2Proof.Machine
end

