-- ==== Sys2Proof/Machine/Bits.lean ====
section
/-!
DEFINITION. Helpers over bits, bytes, banks and sparse memories. They compute by structural recursion only.
-/

namespace Sys2Proof.Machine

/-! ### Banks -/

/-- Replace entry `i` of a bank by `f` of it. -/
def upd {α : Type} {n : Nat} (v : Vector α n) (i : Fin n) (f : α → α) : Vector α n := v.set i (f v[i])

/-- Rebuild every entry of a bank from its number and value. -/
def tab {α β : Type} {n : Nat} (v : Vector α n) (f : Fin n → α → β) : Vector β n := Vector.ofFn fun i => f i v[i]

/-- Entry `i` of a bank, or `x` where the bank has no such entry. -/
def look {α : Type} {n : Nat} (v : Vector α n) (i : Nat) (x : α) : α := if h : i < n then v[i] else x

/-- `upd` at a number that may be out of range. -/
def updN {α : Type} {n : Nat} (v : Vector α n) (i : Nat) (f : α → α) : Vector α n :=
  if h : i < n then v.set i (f v[i]) else v

/-- All numbers of a bank of `n`, rising. -/
def ixs (n : Nat) : List (Fin n) := List.finRange n

/-- Whether some entry of a bank meets `p`. -/
def anyB {α : Type} {n : Nat} (v : Vector α n) (p : Fin n → α → Bool) : Bool := (ixs n).any fun i => p i v[i]

/-- Whether every entry of a bank meets `p`. -/
def allB {α : Type} {n : Nat} (v : Vector α n) (p : Fin n → α → Bool) : Bool := (ixs n).all fun i => p i v[i]

/-! ### Numbers and bits -/

/-- 1 for true. -/
def b2n (b : Bool) : Nat := if b then 1 else 0

/-- Bit `i` of `n`. -/
def bit (n i : Nat) : Bool := n.testBit i

/-- `len` bits of `n` from bit `lo`. -/
def bits (n lo len : Nat) : Nat := n / 2 ^ lo % 2 ^ len

/-- The number whose bit `i` is entry `i` of the list. -/
def packBits : List Bool → Nat
  | [] => 0
  | b :: bs => b2n b + 2 * packBits bs

/-- Two's complement reading of the low `w` bits of `n`. -/
def signed (w n : Nat) : Int :=
  let m := n % 2 ^ w
  if w ≠ 0 ∧ 2 ^ (w - 1) ≤ m then (m : Int) - 2 ^ w else m

/-- The low `w` bits of an integer as a natural number. -/
def wrap (w : Nat) (z : Int) : Nat := (z % 2 ^ w).toNat

/-- `z` limited to `lo` … `hi`. -/
def clampI (lo hi z : Int) : Int := if z < lo then lo else if hi < z then hi else z

/-- Counter value limited to `m`. -/
def satN (m n : Nat) : Nat := if m < n then m else n

/-- Replace bits `lo` … `lo + len - 1` of `n` by `v`. -/
def putBits (n lo len v : Nat) : Nat := n - bits n lo len * 2 ^ lo + v % 2 ^ len * 2 ^ lo

/-- Signed value of a Q1.23 word. -/
def q23 (x : Q23) : Int := x.toInt

/-- Floor of `a / b` for `b > 0`. -/
def floorDiv (a b : Int) : Int := Int.fdiv a b

/-- Nearest integer to `a / b`, `b > 0`, ties to even. -/
def roundDiv (a b : Int) : Int :=
  let q := Int.fdiv a b
  let r := a - q * b
  if 2 * r < b then q else if b < 2 * r then q + 1 else if q % 2 = 0 then q else q + 1

/-- Integer square root by bisection: the bits of the root from bit `k - 1` down. -/
def sqrtBits (n : Nat) : Nat → Nat → Nat
  | 0, r => r
  | k + 1, r => let t := r + 2 ^ k; sqrtBits n k (if t * t ≤ n then t else r)

/-- Floor of the square root. -/
def sqrtN (n : Nat) : Nat := sqrtBits n (n.log2 / 2 + 1) 0

/-! ### Bytes, least significant first (R8) -/

/-- The number a list of bytes spells. -/
def leNat : List Byte → Nat
  | [] => 0
  | b :: bs => b.toNat + 256 * leNat bs

/-- `n` as `k` bytes. -/
def le : Nat → Nat → List Byte
  | 0, _ => []
  | k + 1, n => BitVec.ofNat 8 n :: le k (n / 256)

/-- `len` bytes from offset `o`, zeros past the end. -/
def slice (bs : List Byte) (o len : Nat) : List Byte :=
  let t := (bs.drop o).take len
  t ++ List.replicate (len - t.length) 0

/-- A list without its first `n` elements, as `List.drop` (`skip_eq_drop`), in a form that evaluates quickly. -/
def skip {α : Type} : Nat → List α → List α
  | 0, l => l
  | n + 1, l => skip n l.tail

theorem skip_eq_drop {α : Type} (n : Nat) (l : List α) : skip n l = l.drop n := by
  induction n generalizing l with
  | zero => rfl
  | succ n ih => cases l <;> simp [skip, ih]

/-- The number in `len` bytes at offset `o`. -/
def leAt (bs : List Byte) (o len : Nat) : Nat := leNat ((bs.drop o).take len)

/-- `bs` brought to `n` bytes by zeros or by cutting. -/
def fit (n : Nat) (bs : List Byte) : List Byte := slice bs 0 n

/-- `n` zero bytes. -/
def zeros (n : Nat) : List Byte := List.replicate n 0

/-! ### Sparse memories -/

/-- What key `a` reads as, `x` where it isn't listed. -/
def Mem.get {α : Type} (m : Mem α) (x : α) (a : Nat) : α :=
  match m with
  | [] => x
  | (k, v) :: t => if k = a then v else Mem.get t x a

/-- Whether key `a` is listed, and its value. -/
def Mem.find {α : Type} (m : Mem α) (a : Nat) : Option α :=
  match m with
  | [] => none
  | (k, v) :: t => if k = a then some v else Mem.find t a

/-- Remove key `a`. -/
def Mem.erase {α : Type} (m : Mem α) (a : Nat) : Mem α :=
  match m with
  | [] => []
  | (k, v) :: t => if k = a then t else (k, v) :: Mem.erase t a

/-- List key `a` with value `v`, at its place in the order. -/
def Mem.put {α : Type} (m : Mem α) (a : Nat) (v : α) : Mem α :=
  match m with
  | [] => [(a, v)]
  | (k, w) :: t => if a < k then (a, v) :: (k, w) :: t else if k = a then (a, v) :: t else (k, w) :: Mem.put t a v

/-- Write `v` at `a` in canonical form: writing what an unlisted key reads as removes the entry. -/
def Mem.set {α : Type} [DecidableEq α] (m : Mem α) (x : α) (a : Nat) (v : α) : Mem α :=
  if v = x then Mem.erase m a else Mem.put m a v

/-- Whether every key of `m` is above `b`. -/
def Mem.above {α : Type} (m : Mem α) (b : Nat) : Bool :=
  match m with
  | [] => true
  | (k, _) :: t => decide (b < k) && Mem.above t b

/-- The canonical form: keys strictly rising, no entry equal to `x`. -/
def Mem.wf {α : Type} [DecidableEq α] (m : Mem α) (x : α) : Bool :=
  match m with
  | [] => true
  | (k, v) :: t => Mem.above t k && decide (v ≠ x) && Mem.wf t x

/-- Write a run of bytes from address `a`. -/
def Mem.setBytes (m : Mem Byte) (a : Nat) : List Byte → Mem Byte
  | [] => m
  | b :: bs => Mem.setBytes (Mem.set m 0 a b) (a + 1) bs

/-- Read `n` bytes from address `a`. -/
def Mem.bytes (m : Mem Byte) (a : Nat) : Nat → List Byte
  | 0 => []
  | n + 1 => Mem.get m 0 a :: Mem.bytes m (a + 1) n

/-! ### CRC -/

/-- One bit of a reflected CRC with polynomial `p`. -/
def crcBit (p c : Nat) : Nat := (c / 2) ^^^ (c % 2 * p)

/-- One byte of the reflected CRC-32 of R71. -/
def crc32Byte (c : Nat) (b : Byte) : Nat :=
  let p := 0xEDB88320
  let x := c ^^^ b.toNat
  crcBit p (crcBit p (crcBit p (crcBit p (crcBit p (crcBit p (crcBit p (crcBit p x)))))))

/-- CRC-32: reflected polynomial 0xEDB8_8320, start and final exclusive-or of all ones. -/
def crc32 (bs : List Byte) : Nat := (bs.foldl crc32Byte 0xFFFFFFFF) ^^^ 0xFFFFFFFF

end Sys2Proof.Machine
end

