-- ==== Sys2Proof/Machine/Crypto.lean ====
section
/-!
DEFINITION. SHA-384 (FIPS 180-4) and ECDSA verification over P-384 (FIPS 186), the signature check of images and firmware
(R69).
-/

namespace Sys2Proof.Machine

/-- Sum of 64-bit words. -/
def add64 (a b : Nat) : Nat := (a + b) % 0x10000000000000000

/-- A 64-bit word written twice, so that its bits from place `k` on are the word rotated right by `k`. -/
def twice64 (x : Nat) : Nat := x * 0x10000000000000001

/-- The exclusive or of a 64-bit word rotated right by three amounts. -/
def rot3 (x i j k : Nat) : Nat :=
  let y := twice64 x
  (y >>> i ^^^ y >>> j ^^^ y >>> k) % 0x10000000000000000

/-- The exclusive or of a 64-bit word rotated right by two amounts and shifted right by a third. -/
def rot2 (x i j k : Nat) : Nat :=
  let y := twice64 x
  (y >>> i ^^^ y >>> j) % 0x10000000000000000 ^^^ x >>> k

/-- The largest whole number below `acc` + 2^`f` whose `k`th power is at most `n`, found from bit `f` - 1 down. -/
def wholeRoot (k n : Nat) : Nat → Nat → Nat
  | 0, acc => acc
  | f + 1, acc => wholeRoot k n f (if (acc + 2 ^ f) ^ k ≤ n then acc + 2 ^ f else acc)

/-- The first 64 bits after the point of the `k`th root of `p`. -/
def rootFraction (k p : Nat) : Nat := wholeRoot k (p * 2 ^ (64 * k)) 70 0 % 2 ^ 64

/-- The primes below `n`. -/
def primesBelow (n : Nat) : List Nat :=
  (List.range n).filter fun p => decide (2 ≤ p) && (List.range p).all fun d => decide (d < 2 ∨ p % d ≠ 0)

/-- The round constants of SHA-384: from the cube roots of the first 80 primes. -/
def sha512K : List Nat := (primesBelow 410).map (rootFraction 3)

/-- Start values of SHA-384: from the square roots of the 9th to the 16th prime. -/
def sha384H : List Nat := ((primesBelow 54).drop 8).map (rootFraction 2)

/-- The number a list of bytes spells, most significant first. -/
def beNat (bs : List Byte) : Nat := bs.foldl (fun n b => 256 * n + b.toNat) 0

/-- The 64-bit words of a block. -/
def beWords : Nat → List Byte → List Nat
  | 0, _ => []
  | n + 1, bs => beNat (bs.take 8) :: beWords n (bs.drop 8)

/-- Extend the message schedule, newest word first, by `n` words. -/
def shaSched : Nat → List Nat → List Nat
  | 0, w => w
  | n + 1, w =>
    shaSched n ((w.getD 15 0 + rot2 (w.getD 14 0) 1 8 7 + w.getD 6 0 + rot2 (w.getD 1 0) 19 61 6) % 0x10000000000000000 :: w)

/-- One round. -/
def shaRound (s : List Nat) (kw : Nat × Nat) : List Nat :=
  match s with
  | [a, b, c, d, e, f, g, h] =>
    let ch := (e &&& f) ^^^ ((0xffffffffffffffff ^^^ e) &&& g)
    let t1 := h + rot3 e 14 18 41 + ch + kw.1 + kw.2
    let mj := (a &&& b) ^^^ (a &&& c) ^^^ (b &&& c)
    [(t1 + rot3 a 28 34 39 + mj) % 0x10000000000000000, a, b, c, add64 d t1, e, f, g]
  | _ => s

/-- Compress one block of 128 bytes. -/
def shaBlock (h : List Nat) (bs : List Byte) : List Nat :=
  let ws := (shaSched 64 (beWords 16 bs).reverse).reverse
  List.zipWith add64 h ((sha512K.zip ws).foldl shaRound h)

/-- Compress `n` blocks. -/
def shaBlocks : Nat → List Nat → List Byte → List Nat
  | 0, h, _ => h
  | n + 1, h, bs => shaBlocks n (shaBlock h (bs.take 128)) (bs.drop 128)

/-- SHA-384 of a message, as a number of 384 bits. -/
def sha384 (bs : List Byte) : Nat :=
  let n := bs.length
  let pad := (239 - n % 128) % 128
  let m := bs ++ [0x80#8] ++ zeros pad ++ zeros 8 ++ (le 8 (8 * n)).reverse
  ((shaBlocks (m.length / 128) sha384H m).take 6).foldl (fun a w => a * 2 ^ 64 + w) 0

/-! ### P-384 -/

/-- Field prime. -/
def p384 : Nat := 2 ^ 384 - 2 ^ 128 - 2 ^ 96 + 2 ^ 32 - 1

/-- Order of the base point. -/
def n384 : Nat := 0xffffffffffffffffffffffffffffffffffffffffffffffffc7634d81f4372ddf581a0db248b0a77aecec196accc52973

/-- Curve coefficient b. -/
def b384 : Nat := 0xb3312fa7e23ee7e4988e056be3f82d19181d9c6efe8141120314088f5013875ac656398d8a2ed19d2a85c8edd3ec2aef

/-- Base point. -/
def g384 : Nat × Nat :=
  (0xaa87ca22be8b05378eb1c71ef320ad746e1d3b628ba79b9859f741e082542a385502f25dbf55296c3a545e3872760ab7,
   0x3617de4a96262c6f5d9e98bf9292dc29f8f41dbd289a147ce9da3113b5f0b8c00a60b1ce1d7e819d7a431d7c90ea0e5f)

/-- `b` to the power whose `k` low bits are those of `e`, modulo `m`. -/
def powMod (m : Nat) : Nat → Nat → Nat → Nat
  | 0, _, _ => 1 % m
  | k + 1, b, e =>
    let r := powMod m k (b * b % m) (e / 2)
    if e % 2 = 1 then r * b % m else r

/-- Inverse modulo a prime of 384 bits. -/
def invMod (m x : Nat) : Nat := powMod m 384 (x % m) (m - 2)

/-- Difference modulo `p384`. -/
def subP (a b : Nat) : Nat := (a + p384 - b % p384) % p384

/-- Double a point in Jacobian coordinates; Z = 0 is the point at infinity. -/
def ptDouble (q : Nat × Nat × Nat) : Nat × Nat × Nat :=
  let (x, y, z) := q
  let zz := z * z % p384
  let m := 3 * (subP x zz * (x + zz) % p384) % p384
  let yy := y * y % p384
  let s := 4 * x * yy % p384
  let x' := subP (m * m % p384) (2 * s)
  (x', subP (m * subP s x' % p384) (8 * yy * yy), 2 * y * z % p384)

/-- Add two points in Jacobian coordinates. -/
def ptAdd (q r : Nat × Nat × Nat) : Nat × Nat × Nat :=
  let (x1, y1, z1) := q
  let (x2, y2, z2) := r
  if z1 = 0 then r
  else if z2 = 0 then q
  else
    let a1 := z1 * z1 % p384
    let a2 := z2 * z2 % p384
    let u1 := x1 * a2 % p384
    let u2 := x2 * a1 % p384
    let s1 := y1 * z2 % p384 * a2 % p384
    let s2 := y2 * z1 % p384 * a1 % p384
    if u1 = u2 then (if s1 = s2 then ptDouble q else (1, 1, 0))
    else
      let h := subP u2 u1
      let rr := subP s2 s1
      let h2 := h * h % p384
      let h3 := h2 * h % p384
      let v := u1 * h2 % p384
      let x3 := subP (subP (rr * rr % p384) h3) (2 * v)
      (x3, subP (rr * subP v x3 % p384) (s1 * h3), z1 * z2 % p384 * h % p384)

/-- The `n` low bits of `k` times a point. -/
def ptMul : Nat → Nat → Nat × Nat × Nat → Nat × Nat × Nat
  | 0, _, _ => (1, 1, 0)
  | n + 1, k, q =>
    let r := ptMul n (k / 2) (ptDouble q)
    if k % 2 = 1 then ptAdd q r else r

/-- Whether a public key is a point of the curve. -/
def onCurve (q : Nat × Nat) : Bool :=
  decide (q.1 < p384 ∧ q.2 < p384) && decide (q.2 * q.2 % p384 = subP (q.1 * q.1 % p384 * q.1 + b384) (3 * q.1))

/-- ECDSA verification of hash `e` with signature (r, s) and a public key. -/
def ecdsaOk (key : Nat × Nat) (e r s : Nat) : Bool :=
  if onCurve key && decide (1 ≤ r ∧ r < n384 ∧ 1 ≤ s ∧ s < n384) then
    let w := invMod n384 s
    let q := ptAdd (ptMul 384 (e * w % n384) (g384.1, g384.2, 1)) (ptMul 384 (r * w % n384) (key.1, key.2, 1))
    let zi := invMod p384 q.2.2
    decide (q.2.2 ≠ 0) && decide (q.1 * (zi * zi % p384) % p384 % n384 = r)
  else false

end Sys2Proof.Machine
end

