-- ==== Sys2Proof/Config.lean ====
section
/-!
DEFINITION. The free values: results the spec leaves open on a machine that goes on. Each is an opaque constant without a
body, applied to the counter `Dev.free` (a fresh value every time) or to the operands it depends on, so no proof can
see a value of it (DESIGN CHOICE: log entry 1).
-/

namespace Sys2Proof.Config

/-- A choice between two outcomes the spec allows: which word a colliding reload takes (R26, Table 4-3), and the
neighbouring grid value a quantity takes where the spec names the grid and no rounding. (DESIGN CHOICE, log entry 1.) -/
opaque freeBit : Nat → Bool

/-- Deviation of a generator sample from its exact value, in units of 2^(-23), kept to the bound of R243 by its reader.
(DESIGN CHOICE, log entry 1.) -/
opaque genDev : Nat → Int

/-- Output of a rate converter from the input samples it has seen, newest first (R325: bounds only). (DESIGN CHOICE, log entry 1.) -/
opaque converter : Nat → List Int → Int

/-- A whole number in a place the spec names without giving its value. -/
opaque freeNat : Nat → Nat

end Sys2Proof.Config
end

