-- ==== Sys2Proof/Machine/Pwm.lean ====
section
/-!
DEFINITION. The modulator of one channel (chapter 4) and what protections do to its gates (chapters 5 and 6), as
functions of one channel. Positions are fine steps from the channel's count 0; 16 fine steps are one Fk tick.
-/

namespace Sys2Proof.Machine

/-- The low 7 bits of `c` in reversed order. -/
def rev7 (c : Nat) : Nat :=
  packBits [bit c 6, bit c 5, bit c 4, bit c 3, bit c 2, bit c 1, bit c 0]

/-- Phase offset of a channel's count 0 after a carrier boundary, in Fk ticks (R104). -/
def phi (c : Ch) : Nat := 2 * rev7 c.val

/-- Half duty, the word of an unreleased channel (R162). -/
def halfDuty : Q23 := 0x400000#24

/-- Whether the channel's counter drives its gates (R103, R580). -/
def switching (c : Chan) : Bool :=
  match c.prot.drive with
  | .off => false
  | .check => match c.prot.check with
    | some k => decide (2 ≤ k.step)
    | none => false
  | _ => true

/-- Whether the channel is in loop mode: the LOOP flag of its next sample (Table 7-2, R218), a sweep's closed loop
included (R296). -/
def loopMode (c : Chan) : Bool :=
  ((c.prot.released && decide (c.prot.drive = .loop)) || (c.prot.sweep && decide (c.prot.drive = .measure)))
    && !c.mod.halted && !c.prot.latched

/-- The magnitude of a duty word: a word whose bit 23 is 1 is taken as 0 (R105). -/
def wordMag (w : Q23) : Nat := if w.toNat < 2 ^ 23 then w.toNat else 0

/-- `n / d` on a whole grid: exact where it divides, otherwise one of the two neighbours, as the free bit says. (DESIGN CHOICE, log entry 35.) -/
def gridDiv (n d : Int) (up : Bool) : Int :=
  if n % d = 0 then n / d else Int.fdiv n d + (if up then 1 else 0)

/-- Supply feed-forward (R106, R108): d' of a word, and FF_SAT. `vref` in mV, rails in 10 mV. -/
def feedForward (d : Nat) (vref : Nat) (r : RailSample) (up : Bool) : Nat × Bool :=
  let p := 10 * r.pvp
  let n := 10 * r.pvn
  if p - n ≤ 0 then (d, true)
  else
    let num := 2 * (((d : Int) - 2 ^ 22) * vref - n * 2 ^ 22)
    if num < 0 then (0, true)
    else if (2 ^ 23 - 1) * (p - n) < num then (2 ^ 23 - 1, true)
    else ((gridDiv num (p - n) up).toNat, false)

/-- The requantizer (R109) from d' in units of 2^(-23): y, e1 and e2, the errors in units of 2^(-11) fine step. -/
def requantize (d : Nat) (p : Nat) (e1 e2 : Int) (up : Bool) : Nat × Int × Int :=
  let t : Int := 16 * p
  let x := gridDiv (d * t * 2 ^ 11) (2 ^ 23) up
  let v := x - 2 * e1 + e2
  let y := Int.fdiv (v + 2 ^ 10) (2 ^ 11)
  if y < 0 then (0, 0, 0)
  else if t - 1 < y then ((t - 1).toNat, 0, 0)
  else (y.toNat, y * 2 ^ 11 - v, e1)

/-- The take-up of `d`, a d' in units of 2^(-23) whose FF_SAT is `sat`, at period `p` (R109, R112, R113, R115): y, the flags, the error
states and the dead time in force. The bit settles the rounding the spec leaves open. -/
def takeDuty (c : Chan) (d : Nat) (sat : Bool) (p : Nat) (r : Bool) : Mod :=
  let m := c.mod
  let (y, e1, e2) := requantize d p m.e1 m.e2 r
  let dt := c.cfg.deadTime
  let t := 16 * p
  { m with
    duty := BitVec.ofNat 24 d
    edge := y
    period := p
    e1 := e1
    e2 := e2
    dead := dt
    collPend := false
    flags := ⟨sat, decide (y < dt + 16), decide (t < y + dt + 16), decide (y < dt + 16 ∨ t < y + dt + 16),
      m.collPend, false⟩ }

/-- The take-up of word `w` at period `p` (R106 to R109). -/
def takeWord (c : Chan) (w : Nat) (ff : Bool) (p : Nat) (r1 r2 : Bool) : Mod :=
  let (d, sat) := if ff then feedForward w c.cfg.ffRef c.mod.pendRails r1 else (w, false)
  takeDuty c d sat p r2

/-- The take-up of the odd half of a bridged pair in manual modulation: at the even half's period, duty 1 − d' of the even half's own
d', whose FF_SAT it shares (R132). 1 − 0 lies past the range of R108 and is brought to 1 − 2^(-23) without FF_SAT.
(DESIGN CHOICE, log entry 15.) -/
def takeOdd (c : Chan) (even : Mod) (r : Bool) : Mod :=
  takeDuty c (min (2 ^ 23 - even.duty.toNat) (2 ^ 23 - 1)) even.flags.ffSat even.period r

/-- The gate edges of a period that starts with compare value `y` (R111, R112): a switch already on that is to stay on
has no edge, and a change from one switch to the other has a dead time. `on` is where a high-side switch that is off turns on: `dt`,
or what a low-side trip late in the period before left of its dead time (R174). Where both switches are off at count 0 of a period whose
high side is suppressed, the low side turns on a dead time after count 0 (DESIGN CHOICE, log entry 13: the spec names no time). -/
def planPeriod (y dt on t : Nat) (hs : Bool) : List Edge :=
  if y < dt + 16 then [⟨0, true, false⟩, ⟨dt, false, true⟩]
  else
    (if hs then [⟨0, false, false⟩] else [⟨0, false, false⟩, ⟨on, true, true⟩])
      ++ (if t < y + dt + 16 then [] else [⟨y, true, false⟩, ⟨y + dt, false, true⟩])

/-- The edges that change a switch, from the states the switches start in. -/
def realEdges (hs ls : Bool) : List Edge → List Edge
  | [] => []
  | e :: rest =>
    if (if e.high then hs else ls) = e.on then realEdges hs ls rest
    else e :: (if e.high then realEdges e.on ls rest else realEdges hs e.on rest)

/-- The edges of a period from the gates that stand at its count 0; a suppressed high side with the low side on carries on without
an edge (R112). -/
def planFrom (y dt on t : Nat) (hs ls : Bool) : List Edge :=
  if y < dt + 16 ∧ ls = true ∧ hs = false then [] else realEdges hs ls (planPeriod y dt on t hs)

/-- Drive one edge onto the gates; a switch that turns on ends the hold of R150. -/
def applyEdge (m : Mod) (e : Edge) : Mod :=
  let h := if e.on then none else m.held
  if e.high then { m with hs := e.on, held := h, edgeAt := if m.hs = e.on then m.edgeAt else e.pos }
  else { m with ls := e.on, held := h, edgeAt := if m.ls = e.on then m.edgeAt else e.pos }

/-- What the period's end, at fine step `t`, finds: every edge before it has been performed, and a turn-on of the high side that a
low-side trip put past it (R174) stands, counted from the new count 0. -/
def finishPlan (m : Mod) : Mod :=
  let t := 16 * m.period
  { (m.plan.filter fun e => decide (e.pos < t)).foldl applyEdge m with
    plan := (m.plan.filter fun e => decide (t ≤ e.pos)).map fun e => { e with pos := e.pos - t } }

/-- Both switches off and nothing programmed. -/
def gatesOff (m : Mod) : Mod := { m with hs := false, ls := false, plan := [] }

/-- Both switches off and the channel off: the end of a safe stop, of manual drive and of a guard release. An accepted ENABLE that waits
starts nothing after such an end (R128). -/
def chanOff (c : Chan) : Chan :=
  { c with
    mod := { gatesOff c.mod with exitHold := 0, manual := false, manPend := none }
    prot := { c.prot with drive := .off, released := false, ssPend := false, ssCount := 0, sweep := false } }

/-- Bring the spare segment in for the retired segments that wait for a count 0 (R141, Table 16-3). -/
def swapSegs (c : Chan) : Chan := { c with segSwap := [false, false] }

/-- Count 0 of a channel, whatever follows: the period before has ended, a new channel period begins (R175), the compare values written
since take effect (Table 4-10) and a waiting spare segment comes in. -/
def countZero (c : Chan) : Chan :=
  let m := finishPlan c.mod
  swapSegs { c with
    mod := { m with edgeAt := m.edgeAt - 16 * m.period, cmpANow := m.cmpA, cmpBNow := m.cmpB, tripPend := false }
    prot := { c.prot with perIdx := c.prot.perIdx + 1 } }

/-- The edges of the period whose count 0 this is (R111), at the dead time of the last take-up (R113). -/
def startPeriod (c : Chan) (m : Mod) : Chan :=
  { c with mod :=
    if switching c then
      { m with plan := planFrom m.edge m.dead (match m.plan.find? (·.on) with | some e => min e.pos m.dead | none => m.dead) (16 * m.period) m.hs m.ls }
    else gatesOff m }

/-- Word of step 2 of a short check (R194): 0.5 + v / (2 × V_REF), `v` in mV, with a free last bit where it isn't on
the grid. -/
def checkWord (vref : Nat) (v : Int) (up : Bool) : Nat := (gridDiv (2 ^ 22 * ((vref : Int) + v)) vref up).toNat

/-- Drive voltage of a short check in mV: +0.1 V, and +0.05 V and −0.05 V on the halves of a bridged pair (R194). -/
def checkMv (c : Chan) (odd : Bool) : Int := if c.cfg.bridged then (if odd then -50 else 50) else 100

/-- The reload of manual modulation at the channel's own count 0 (R129, Table 4-3): duty word and period, each with the
outcome of a collision as a free bit of its own says. (DEDUCED, log entry 15.) -/
def manualReload (m : Mod) (take takeP : Bool) : Mod :=
  let m1 : Mod := match m.nearPrev with
    | some prev =>
      let m' := { m with nearPrev := none, collPend := true }
      if take then { m' with pending := m.shadow, shadowNew := false } else { m' with pending := prev.getD m.pending }
    | none => if m.shadowNew then { m with pending := m.shadow, shadowNew := false } else m
  match m1.nearPrevP with
  | some prev =>
    let m' := { m1 with nearPrevP := none, collPend := true }
    if takeP then { m' with pendPeriod := m1.manShadowP, manNewP := false } else { m' with pendPeriod := prev.getD m1.pendPeriod }
  | none => if m1.manNewP then { m1 with pendPeriod := m1.manShadowP, manNewP := false } else m1

/-- The reload at a carrier boundary (R117, R119, Table 4-3). `take` settles a collision. -/
def loopReload (m : Mod) (take : Bool) : Mod :=
  match m.nearPrev with
  | some prev =>
    let m' := { m with nearPrev := none, collPend := true }
    if take then { m' with pending := m.shadow, shadowNew := false } else { m' with pending := prev.getD m.pending }
  | none => if m.shadowNew then { m with pending := m.shadow, shadowNew := false } else m

/-- Whether a reload accepts a word, and does not repeat the pending one (R107). -/
def accepts (m : Mod) (take : Bool) : Bool :=
  match m.nearPrev with
  | some prev => take || prev.isSome
  | none => m.shadowNew

/-- Whether the reload leaves the word of this period out, which is one late stitch (R88, Table 4-3). (DEDUCED, log entry 14.) -/
def reloadLate (m : Mod) (take : Bool) : Bool := decide (m.handoff ≠ []) || (m.nearPrev.isSome && !take)

/-- The handshake of a duty or manual word: it replaces the word that waits in the shadow; `near` is less than one Fk
tick before the reload, or at it (R119, R120). (DEDUCED, log entry 14.) -/
def handShadow (m : Mod) (w : Q23) (near : Bool) : Mod :=
  if near then
    { m with shadow := w, shadowNew := true, nearPrev := some (if m.shadowNew then some m.shadow else none)
             collisions := satN 0xFFFF (m.collisions + 1) }
  else { m with shadow := w, shadowNew := true, nearPrev := none }

/-- The handshake of a manual period. -/
def handPeriod (m : Mod) (p : Nat) (near : Bool) : Mod :=
  if near then
    { m with manShadowP := p, manNewP := true, nearPrevP := some (if m.manNewP then some m.manShadowP else none)
             collisions := satN 0xFFFF (m.collisions + 1) }
  else { m with manShadowP := p, manNewP := true, nearPrevP := none }

/-- A manual period brought within 128 to 256 Fk ticks (R130). -/
def manPeriodClamp (n : Nat) : Nat := if n < 128 then 128 else if 256 < n then 256 else n

/-- The gates at count 128: every edge before it has been performed. -/
def atMid (m : Mod) : Mod :=
  { m.plan.foldl (fun n e => if e.pos < 2048 then applyEdge n e else n) m with plan := m.plan.filter fun e => decide (2048 ≤ e.pos) }

/-- Where the high side turns off in a period that compare value `y0` opened and `y` updates at count 128, the gates there being `m`
(R121): a switch that is still on, and has not tripped, turns off at the new value or at count 128. -/
def midOff (m : Mod) (y0 y : Nat) : Nat := if m.hs && !m.tripPend then max 2048 y else if m.tripPend then min 2048 y0 else y0

/-- Mid-period update of the pulse in progress (R121), `y` being the compare value taken up at count 128; a trip governs the pulse. -/
def midUpdate (m0 : Mod) (y dt : Nat) : Mod :=
  let t := 16 * m0.period
  let m1 := atMid m0
  if m1.hs && !m1.tripPend then
    let off := max 2048 y
    if t < off + dt + 16 then { m1 with plan := [] }
    else { m1 with plan := [⟨off, true, false⟩, ⟨off + dt, false, true⟩] }
  else m1

/-- The flags of a mid-period take-up (R116, R121): HS_SUPP by the compare value `y0` in use at count 0, LS_SUPP by where the high side
turned off in fact, RANGE by the value `y` taken up. -/
def midFlags (f : Flags) (m : Mod) (y0 y : Nat) (dt : Nat) : Flags :=
  { f with hsSupp := decide (y0 < m.dead + 16), lsSupp := decide (16 * m.period < midOff (atMid m) y0 y + dt + 16), trip := m.tripPend }

/-- Trip periods among the last `window` channel periods, the present one included (R175). -/
def winCount (p : Prot) (window : Nat) : Nat := (p.tripAt.filter fun k => decide (p.perIdx < k + window)).length

/-- Count a trip: at most one trip period per channel period (R175). The history reaches back over the largest window, so that a later
window finds what it covers (R197). (DEDUCED, log entry 13.) -/
def countTrip (p : Prot) : Prot :=
  if p.tripAt.head? = some p.perIdx then p
  else { p with tripAt := p.perIdx :: p.tripAt.filter fun k => decide (p.perIdx < k + 0xFFFF)
                trips := satN 0xFFFF (p.trips + 1) }

/-- The gates after a class 1 trip at position `pos`: the switch that tripped turns off and the other turns on a dead
time later; on a halted channel it stays off (R174, R135). A low side has no time past the next count 0 to turn on; a high side turns
on past it. -/
def tripGates (m : Mod) (low : Bool) (pos : Nat) : Mod :=
  let m1 := { m with flags := { m.flags with trip := true }, tripPend := true, tripSmp := true, edgeAt := (pos : Int) }
  let on := pos + m.dead
  let next : List Edge := if m.halted ∨ (low = false ∧ 16 * m.period ≤ on) then [] else [⟨on, low, true⟩]
  if low then { m1 with ls := false, plan := next } else { m1 with hs := false, plan := next }

/-- The class 1 limit that governs a channel, in 50 mA units: while a measurement or the drive of a short check switches it, the lower of
its own and 2.0 A (R194, R288). -/
def classLimit (c : Chan) : Nat :=
  if c.prot.drive = .measure then min c.cfg.ilim 40
  else match c.prot.check with
    | some k => if k.step = 2 then k.ilim else c.cfg.ilim
    | none => c.cfg.ilim

/-- Whether the comparators listen at `pos`: BLANK Fk ticks after the last gate edge (R173). -/
def unblanked (c : Chan) (pos : Nat) : Bool := decide (c.mod.edgeAt + 16 * c.cfg.blank ≤ pos)

/-- Whether a word of a channel's own sequence is in use, which no reload accepts: in a safe stop, in a short check and in the open-loop
steps of a measurement. -/
def ownWord (c : Chan) : Bool :=
  decide (c.prot.drive = .safeStop ∨ c.prot.drive = .check) || (decide (c.prot.drive = .measure) && !c.prot.sweep)

/-- Whether a channel runs its closed loop, so that a word that comes late is a late stitch (Table 4-3, R296). -/
def closedLoop (c : Chan) : Bool :=
  (decide (c.prot.drive = .loop) || (decide (c.prot.drive = .measure) && c.prot.sweep)) && !c.mod.manual && !c.mod.halted && c.cfg.inUse

/-- The sensed current of a channel where the converter reads `i` (R150): with both switches off, the value its track-and-hold stages
hold since the last of them turned off. -/
def heldCurrent (m : Mod) (i : Int) : Int := if m.hs || m.ls then i else m.held.getD i

/-- MODE of `PWM_CH_STAT` (Table 4-13). (DEDUCED, log entry 32.) -/
def chMode (c : Chan) : Nat :=
  if c.mod.halted then 3
  else match c.prot.drive with
    | .off => 0
    | .loop => 1
    | .manual => 2
    | .safeStop => 4
    | .measure => 5
    | .check => 6

/-- The flags as the F word and the registers number them (Table 7-2). -/
def Flags.num (f : Flags) : Nat := packBits [f.ffSat, f.hsSupp, f.lsSupp, f.range, f.coll, f.trip]

end Sys2Proof.Machine
end

