-- ==== Sys2Proof/Machine/Ops.lean ====
section
/-!
DEFINITION. The named operations every family shares: messages and events, the history, completions and the error log,
writes to host memory, and access to channels.
-/

namespace Sys2Proof.Machine

/-! ### Access -/

/-- The number `k` below `n`, none where it isn't. -/
def finOf (n k : Nat) : Option (Fin n) := if h : k < n then some ⟨k, h⟩ else none

/-- Replace one channel. -/
def Dev.ch (d : Dev) (c : Ch) (f : Chan → Chan) : Dev := { d with chs := upd d.chs c f }

/-- Replace every channel. -/
def Dev.chAll (d : Dev) (f : Ch → Chan → Chan) : Dev := { d with chs := tab d.chs f }

/-- Power tile of a channel. -/
def tileOf (c : Ch) : PTile := ⟨c.val / 8, by omega⟩

/-- The even channel of a channel's pair. -/
def evenOf (c : Ch) : Ch := ⟨c.val / 2 * 2, by omega⟩

/-- The odd channel of a channel's pair. -/
def oddOf (c : Ch) : Ch := ⟨c.val / 2 * 2 + 1, by omega⟩

/-- Whether a channel is half of a bridged pair; CHANNEL_KIND is held for both halves (R222). -/
def bridgedB (d : Dev) (c : Ch) : Bool := d.chs[c].cfg.bridged

/-- The channels a command or protection naming `c` acts on: both halves of a bridged pair (R166, R197, R411). (DEDUCED, log entry 17.) -/
def halves (d : Dev) (c : Ch) : List Ch := if bridgedB d c then [evenOf c, oddOf c] else [c]

/-- The channel that carries a pair's procedure: its even half. (DEDUCED, log entry 17.) -/
def lead (d : Dev) (c : Ch) : Ch := if bridgedB d c then evenOf c else c

/-- Do `f` for each channel of a list in turn. -/
def forCh (l : List Ch) (f : Dev → Ch → Dev) (d : Dev) : Dev := l.foldl f d

/-- Take a free bit. -/
def Dev.tick (d : Dev) : Dev := { d with free := d.free + 1 }

/-- Take `n` free values. -/
def Dev.ticks (d : Dev) (n : Nat) : Dev := { d with free := d.free + n }

/-! ### Instants -/

/-- STC of the first Fi boundary after the present instant (R58). -/
def nextStc (d : Dev) : Nat := if d.tb.started then d.tb.stc + 1 else 0

/-- Whether the present instant is an Fi boundary: its carrier boundary, which the table gives last, is still to come. (DEDUCED,
log entry 5.) -/
def atFi (d : Dev) : Bool := d.tb.started && decide (d.tb.m = 0)

/-- STC of the first Fi boundary at or after the present instant (Tables 6-3, 14-6, R59). -/
def hereStc (d : Dev) : Nat := if atFi d then d.tb.stc else nextStc d

/-- Whether a firmware activation keeps the stewards from running (R448). -/
def stewardsDown (d : Dev) : Bool := d.admin.act.isSome

/-- Whether the stewards count as stopped (R585). -/
def stewardsStopped (d : Dev) : Bool :=
  d.guard.audioReset || stewardsDown d || decide (10 ≤ d.guard.missedPolls)

/-- Whether an image is in force. -/
def imageOn (d : Dev) : Bool := d.core.image.isSome

/-- Whether the Cobbler's windows run: an image is in force, whose sequences hold them in every Fi period (R29, R81). (DEDUCED, log entry
62.) -/
def cobWorks (d : Dev) : Bool := imageOn d && d.tb.running

/-- Whether precharge is complete (Table 17-10). -/
def preDone (d : Dev) : Bool := decide (d.rails.preState = 4)

/-- The guard domain with the rail bits of `GRD_STATUS` at the levels of rail voltages (Table 6-10). -/
def railLevels (d : Dev) (rs : List RailSample) : Guard :=
  let done := preDone d
  { d.guard with
    ovP := rs.any fun r => decide (2200 < r.pvp)
    ovN := rs.any fun r => decide (r.pvn < -2200)
    uvP := done && rs.any fun r => decide (r.pvp < 850)
    uvN := done && rs.any fun r => decide (-850 < r.pvn) }

/-! ### Messages -/

/-- Send an MSI-X message, or set the vector's pending bit while it is masked (R426). (PRESUMED, log entry 9.) -/
def signal (d : Dev) (v : Nat) : Dev :=
  let x := d.qif.msix
  let x' := if x.funcMasked || !x.unmasked.contains v then
      if x.pendBits.contains v then x else { x with pendBits := v :: x.pendBits }
    else { x with sent := v :: x.sent }
  { d with qif := { d.qif with msix := x' } }

/-- A bit became 1 in an event register: source 0 `GRD_EVENT`, 1 `TB_EVENT`, 2 `HSW_CLAMP`, 3 `THM_EVENT` (R425). -/
def raiseEvt (d : Dev) (src : Nat) : Dev :=
  if d.qif.evEn && d.qif.evSel.getLsbD src then signal d d.qif.evVector else d

/-- Set bit `i` of `GRD_EVENT`; a bit that becomes 1 drives SMBALERT# low (R544) and is a device event (R425). -/
def setGrd (d : Dev) (i : Nat) : Dev :=
  if d.guard.event.getLsbD i then d
  else raiseEvt { d with guard := { d.guard with event := d.guard.event ||| (1#16 <<< i), smbAlert := true } } 0

/-- Set bit `i` of `TB_EVENT`. -/
def setTb (d : Dev) (i : Nat) : Dev :=
  if d.tb.event.getLsbD i then d
  else raiseEvt { d with tb := { d.tb with event := d.tb.event ||| (1#5 <<< i) } } 1

/-- Set bit `i` of `THM_EVENT`. -/
def setThm (d : Dev) (i : Nat) : Dev :=
  if d.shank.event.getLsbD i then d
  else raiseEvt { d with shank := { d.shank with event := d.shank.event ||| (1#7 <<< i) } } 3

/-- FAULT# is low: a latch, the thermal shutdown latch or an event bit stands (R190). -/
def faultLow (d : Dev) : Bool :=
  d.guard.thermLatch || decide (d.guard.event ≠ 0) || anyB d.chs fun _ c => c.prot.latched

/-! ### The history (R191) -/

/-- The stewards copy the guard's records that log page 0x04 doesn't hold yet. -/
def copyHist (d : Dev) : Dev :=
  if stewardsStopped d then d
  else { d with
    admin := { d.admin with trips := (d.guard.history.take d.guard.uncopied ++ d.admin.trips).take 1024 }
    guard := { d.guard with uncopied := 0 } }

/-- Write a history record (Table 6-3): channel 0xFF names every channel. The guard's clock is kept to the millisecond
of its poll; the microseconds within it are free. -/
def hist (d : Dev) (ch cause detail : Nat) (latched : Bool) : Dev :=
  let r : HistRec :=
    { stc := if d.tb.running then some (hereStc d) else none
      guardTime := (d.guard.timeUs + Config.freeNat d.free % 1000) % 2 ^ 32
      ch := ch
      cause := cause
      detail := detail
      flags := b2n latched + 2 * b2n (stewardsStopped d) }
  copyHist { d.tick with
    guard := { d.guard with history := (r :: d.guard.history).take 64, uncopied := min 64 (d.guard.uncopied + 1) }
    admin := { d.admin with tripTotal := d.admin.tripTotal + 1 } }

/-! ### Completions -/

/-- Status codes of Table 14-1. -/
def stSuccess : Nat := 0
def stOpcode : Nat := 1
def stField : Nat := 2
def stNotReady : Nat := 3
def stAborted : Nat := 4
def stByReset : Nat := 5
def stNotFound : Nat := 6
def stTemp : Nat := 7
def stLate : Nat := 8
def stLatched : Nat := 9
def stImage : Nat := 10

/-- Where an image check failed (R83): reason, tile, phase, slice, PARAM and INDEX. -/
structure FailInfo where
  reason : Nat
  tile : Nat
  phase : Nat
  slice : Nat
  param : Nat
  index : Nat
  deriving DecidableEq, Repr

/-- No image check failed. -/
def FailInfo.none : FailInfo := ⟨0, 0, 0, 0, 0, 0⟩

/-- Whether two references name one command. -/
def sameRef (a b : CmdRef) : Bool := decide (a.q = b.q ∧ a.cid = b.cid ∧ a.session = b.session)

/-- The flight of a command, if it was fetched. -/
def flightOf (d : Dev) (r : CmdRef) : Option Flight := d.qif.flights.find? fun f => sameRef f.ref r

/-- Whether a command's host is still there; a command from before a loss of the host, or of
its queue's context, has no queue to complete on (R459, Table 16-1). -/
def hostLive (d : Dev) (r : CmdRef) : Bool := decide (r.session = d.qif.session) && !d.qif.gone.any (sameRef r)

/-- Write an error record of log page 0x01 (R436). (DEDUCED, log entry 48.) -/
def errLog (d : Dev) (sq cid op status : Nat) (i : FailInfo) (r0 r1 : Nat) : Dev :=
  let e : ErrRec := ⟨hereStc d, sq, cid, op, status, i.reason, i.tile, i.phase, i.slice, i.param, i.index, r0, r1⟩
  { d with admin := { d.admin with errLog := (e :: d.admin.errLog).take 256
                                   errTotal := (d.admin.errTotal + 1) % 2 ^ 32 } }

/-- Whether a waiter is an ABORT of command `r`. -/
def abortsRef (r : CmdRef) (w : Waiter) : Bool := decide (w.kind = 3 ∧ w.scope = r.q.val ∧ w.upTo = r.cid.toNat)

/-- Put a completion behind the ones that wait: completions of one Fi boundary stand in fetch order (R402). The list is newest
first. -/
def insertDone (c : Completion) : List Completion → List Completion
  | [] => [c]
  | x :: rest => if c.at_.isSome ∧ x.at_ = c.at_ ∧ c.order < x.order then x :: insertDone c rest else c :: x :: rest

/-- The completion of a command, with its place in fetch order and the boundary at which it completes. -/
def completionOf (d : Dev) (r : CmdRef) (op status r0 r1 : Nat) : Completion :=
  let f := flightOf d r
  { q := r.q, cid := r.cid
    order := match f with | some x => x.order | none => d.qif.order
    at_ := if atFi d then some d.tb.stc else none
    opcode := op, status := status, r0 := r0 % 2 ^ 32, r1 := r1 % 2 ^ 32
    replayed := match f with | some x => x.replay | none => false }

/-- Complete a command: its completion takes the place of its entry in the journal and waits to be posted, that of an ABORT which
waits for it follows (R422), and a status other than SUCCESS enters the error log (R396, R436). -/
def completeWith (d : Dev) (r : CmdRef) (op status : Nat) (i : FailInfo) (r0 r1 : Nat) : Dev :=
  let d0 := { d with qif := { d.qif with flights := d.qif.flights.filter fun f => !sameRef f.ref r } }
  if !hostLive d r then { d0 with qif := { d0.qif with gone := d0.qif.gone.filter fun x => !sameRef x r } }
  else
    let (ws, keep) := d.qif.waiters.partition (abortsRef r)
    let d1 := { d0 with qif := { d0.qif with
      flights := d0.qif.flights.filter fun f => !ws.any fun w => sameRef f.ref w.ref
      waiters := keep
      outbox := (insertDone (completionOf d r op status r0 r1) d.qif.outbox.reverse).reverse
        ++ ws.map fun w => { completionOf d w.ref 0x07 stSuccess 0 0 with at_ := none } } }
    if status = stSuccess then d1 else errLog d1 r.q.val r.cid.toNat op status i r0 r1

/-- Complete a command with no check record. -/
def complete (d : Dev) (r : CmdRef) (op status r0 r1 : Nat) : Dev := completeWith d r op status .none r0 r1

/-- Complete reporting a boundary in RESULT0 and RESULT1 (R414). (DEDUCED, log entry 44.) -/
def completeAt (d : Dev) (r : CmdRef) (op status stc : Nat) : Dev :=
  complete d r op status (stc % 2 ^ 32) (stc / 2 ^ 32)

/-- RESULT0 and RESULT1 of a command that has no effect, where Table 14-3 gives them without reference to one: no bytes written,
the bytes a staging buffer holds, no check reason, nothing replayed. (DEDUCED, log entry 48.) -/
def refusedResults (d : Dev) (op : Nat) : Option (Nat × Nat) :=
  if op = 0x01 ∨ op = 0x04 ∨ op = 0x05 ∨ op = 0x07 ∨ op = 0x0A ∨ op = 0x0B then some (0, 0)
  else if op = 0x09 then some (d.admin.fwBuf.length, 0)
  else if op = 0x0C then some (d.admin.imgBuf.length, 0)
  else none

/-- Complete a command that took no effect at any boundary: where the spec gives its RESULT0 and RESULT1 no value, they are
free. (DEDUCED, log entry 44; DEDUCED, log entry 48.) -/
def refuse (d : Dev) (r : CmdRef) (op status : Nat) : Dev :=
  match refusedResults d op with
  | some (a, b) => complete d r op status a b
  | none => complete d.tick.tick r op status (Config.freeNat d.free) (Config.freeNat (d.free + 1))

/-- Write bytes of a result to the command's buffer in host memory, up to its length (R416). (DESIGN CHOICE, log entry 8.) -/
def hostWrite (d : Dev) (r : CmdRef) (bs : List Byte) : Dev :=
  if hostLive d r then { d with admin := { d.admin with hostMem := Mem.setBytes d.admin.hostMem r.ptr.toNat (bs.take r.len) } }
  else d

/-! ### Event counters (R123, R125) -/

/-- Count event `e` of channel `c` in the units that select it; a unit whose count has reached DIV waits to signal. (DEDUCED, log entry 16.) -/
def eviCount (d : Dev) (e : Nat) (c : Nat) : Dev :=
  { d with evi := tab d.evi fun _ u =>
      let (ch, ev, vec, en, div, cnt) := u
      if en && decide (ev = e) && (decide (5 ≤ e) || decide (ch = c)) then (ch, ev, vec, en, div, min (cnt + 1) (div + 1)) else u }

/-! ### Rails (R140, R151) -/

/-- Whether a rail sample lies within R140. -/
def railOk (r : RailSample) : Bool := decide (1000 ≤ r.pvp ∧ r.pvp ≤ 2000 ∧ 1000 ≤ -r.pvn ∧ -r.pvn ≤ 2000)

/-- Whether the last rail samples of every tile lie within R140. -/
def railsOk (d : Dev) : Bool := allB d.power fun _ p => railOk p.rail

/-- Whether a TRIP input that names the channel, or the other half of its pair, is asserted (R179, R180). -/
def tripBlocks (d : Dev) (c : Ch) : Bool :=
  (ixs 8).any fun p => d.guard.trip.getLsbD p.val &&
    (halves d c).any fun h => ((d.guard.tripMask.getD p.val []).getD h.val false)

end Sys2Proof.Machine
end

