-- ==== Sys2Proof/Machine/Stitch.lean ====
section
/-!
DEFINITION. Stitch words, block records and parameter records read from bytes, and the tables that say what a stitch
type may hold (chapter 3, Tables 3-2 to 3-7).
-/

namespace Sys2Proof.Machine

/-! ### Reading -/

/-- A stitch word (Table 3-5). -/
def stitchOf (w : Nat) : Stitch :=
  { type := bits w 58 6
    lanes := BitVec.ofNat 4 (bits w 54 4)
    fin := bit w 53
    slice := bit w 52
    suben := bit w 51
    sub := bits w 46 5
    var := BitVec.ofNat 4 (bits w 42 4)
    dst := bits w 28 14
    srcA := bits w 14 14
    srcB := bits w 0 14 }

/-- The stitch words of a section of `n` words. -/
def stitchesOf (bs : List Byte) : Nat → List Stitch
  | 0 => []
  | n + 1 => stitchOf (leAt bs 0 8) :: stitchesOf (bs.drop 8) n

/-- A block record (Table 3-4), with whether its reserved FLAGS bits are 0. -/
def blockOf (bs : List Byte) : BlockRec × Bool :=
  (⟨leAt bs 0 4, leAt bs 4 4, leAt bs 8 4, leAt bs 12 2, leAt bs 14 1, bit (leAt bs 15 1) 0⟩, decide (leAt bs 15 1 < 2))

/-- The block records of a section of `n` records. -/
def blocksOf (bs : List Byte) : Nat → List (BlockRec × Bool)
  | 0 => []
  | n + 1 => blockOf bs :: blocksOf (bs.drop 16) n

/-- The records of a parameter section, or none where its structure breaks R73. Each record takes at least 8 bytes, so
`fuel` records reach the end. -/
def paramsOf (sect : Nat) : Nat → List Byte → Option (List Param)
  | _, [] => some []
  | 0, _ => none
  | fuel + 1, bs =>
    let len := leAt bs 4 2
    let pad := (8 - len % 8) % 8
    if bs.length < 8 + len + pad ∨ leAt bs 6 2 ≠ 0 ∨ leAt (bs.drop (8 + len)) 0 pad ≠ 0 then none
    else (paramsOf sect fuel (bs.drop (8 + len + pad))).map fun l =>
      ⟨sect, leAt bs 0 2, leAt bs 2 2, (bs.drop 8).take len⟩ :: l

/-! ### Stitch types (Table 3-6) -/

def tyNop : Nat := 0x00
def tyMac : Nat := 0x01
def tyMul : Nat := 0x02
def tyAdd : Nat := 0x03
def tyNorm : Nat := 0x04
def tySat : Nat := 0x05
def tyBiquad : Nat := 0x06
def tyPi : Nat := 0x07
def tyInterp : Nat := 0x08
def tySense : Nat := 0x09
def tyDuty : Nat := 0x0A
def tyRegion : Nat := 0x0B
def tyTable : Nat := 0x0C
def tyThermal : Nat := 0x0D
def tyExcur : Nat := 0x0E
def tyGrant : Nat := 0x0F
def tyXferOut : Nat := 0x10
def tyXferIn : Nat := 0x11
def tyShRd : Nat := 0x12
def tyShWr : Nat := 0x13
def tySrcIn : Nat := 0x14
def tyDlyWr : Nat := 0x15
def tyDlyRd : Nat := 0x16
def tyLimit : Nat := 0x17
def tyAwl : Nat := 0x18
def tyCob : Nat := 0x19

/-- Types only a mix tile runs. -/
def mixOnly : List Nat := [0x14, 0x15, 0x16, 0x17]

/-- Types only an engine tile runs. -/
def engOnly : List Nat := [0x07, 0x08, 0x09, 0x0A, 0x0B, 0x0D, 0x0E, 0x0F]

/-- Bound of a stitch type at the rated corner in ps, without COB_WINDOW (Table 3-6). -/
def boundPs : Nat → Nat
  | 0x00 => 300
  | 0x01 => 2000
  | 0x02 => 1800
  | 0x03 => 1200
  | 0x04 => 1600
  | 0x05 => 1000
  | 0x06 => 11500
  | 0x07 => 6000
  | 0x08 => 2400
  | 0x09 => 3500
  | 0x0A => 3000
  | 0x0B => 4200
  | 0x0C => 8000
  | 0x0D => 14000
  | 0x0E => 18000
  | 0x0F => 4000
  | 0x10 => 9000
  | 0x11 => 9000
  | 0x12 => 24000
  | 0x13 => 20000
  | 0x14 => 4000
  | 0x15 => 20000
  | 0x16 => 30000
  | 0x17 => 9000
  | 0x18 => 5000
  | _ => 0

/-- Fixed costs in ps (Table 3-7). -/
def startFc : Nat := 40000
def startFi : Nat := 4000
def skipPs : Nat := 300

/-- VAR bits the manual names for a type (Tables 3-6, 7-3, 9-2, R230). -/
def varMask (ty : Nat) : Nat :=
  if ty = tySat then 3
  else if [tyMac, tyMul, tyAdd, tyInterp, tySense, tyTable, tyExcur].contains ty then 1
  else 0

/-- Whether a stitch runs in an Fi period of phase `p` (R82). -/
def Stitch.runs (s : Stitch) (p : Nat) : Bool := !s.suben || decide (s.sub = p)

/-- Whether a stitch acts on lane `i`. -/
def Stitch.lane (s : Stitch) (i : Nat) : Bool := s.lanes.getLsbD i

/-- VAR bit `i`. -/
def Stitch.v (s : Stitch) (i : Nat) : Bool := s.var.getLsbD i

/-- Cost of a stitch in ps in an Fi period of phase `p` (R82). -/
def Stitch.cost (s : Stitch) (p : Nat) : Nat :=
  if !s.runs p then skipPs else if s.type = tyCob then s.srcB * 250 else boundPs s.type

/-- Cobbler time a stitch gives in phase `p`, in ps (R82). -/
def Stitch.window (s : Stitch) (p : Nat) : Nat := if s.type = tyCob ∧ s.runs p = true then s.srcB * 250 else 0

/-- The data operands of a stitch: block addresses it reads or writes. A field its type gives no meaning is no operand. -/
def Stitch.data (s : Stitch) : List Nat :=
  let t := s.type
  if t = tyMac ∨ t = tyAdd ∨ t = tyBiquad ∨ t = tyPi ∨ t = tyInterp ∨ t = tyRegion ∨ t = tyThermal ∨ t = tyExcur then
    [s.dst, s.srcA, s.srcB]
  else if t = tyMul then (if s.v 0 then [s.dst, s.srcA] else [s.dst, s.srcA, s.srcB])
  else if t = tySat then [s.dst] ++ (if s.v 0 then [] else [s.srcA]) ++ (if s.v 1 then [s.srcB] else [])
  else if t = tyTable then (if s.v 0 then [s.dst, s.srcA, s.srcB] else [s.dst, s.srcA])
  else if t = tyNorm ∨ t = tySense ∨ t = tyGrant ∨ t = tyXferIn ∨ t = tyShRd ∨ t = tyShWr ∨ t = tySrcIn ∨ t = tyDlyRd ∨ t = tyAwl then
    [s.dst]
  else if t = tyDuty ∨ t = tyXferOut ∨ t = tyDlyWr then [s.srcA]
  else if t = tyLimit then [s.dst, s.srcA]
  else []

/-- Whether a stitch writes the kind-0 block its DST names (R503). -/
def Stitch.writes (s : Stitch) : Bool :=
  decide (s.type < tyCob) && !([tyNop, tyDuty, tyXferOut, tyShWr, tyDlyWr].contains s.type)

/-- Logical tile numbers of Table 3-2. -/
def tileCode (n : Nat) : Bool := decide (n < 0x14)

/-- Whether the port operands of a stitch lie in range (R76). -/
def Stitch.portsOk (s : Stitch) : Bool :=
  let t := s.type
  if t = tySense ∨ t = tyGrant then decide (s.srcA < 2)
  else if t = tyDuty then decide (s.dst < 2)
  else if t = tySrcIn then decide (s.srcA < 128)
  else if t = tyXferOut ∨ t = tyXferIn then tileCode s.srcB
  else if t = tyShRd ∨ t = tyShWr then decide (s.srcA < 64)
  else true

/-- Channel group of an engine tile's block address (R201). -/
def grpOf (a : Nat) : Nat := if a < 0x0D00 then 0 else 1

/-- Channel of lane `i` of group `g` of engine tile `k`. -/
def etCh (k g i : Nat) : Nat := 8 * k + 4 * g + i

/-- Channel of lane `i` of a block of mix tile `m` (R579). -/
def mtCh (m a i : Nat) : Nat := 32 * m + 4 * (a / 0x340) + i

/-- The slices of an engine tile's Fi sequence (R78). -/
def slicesOf : List Stitch → List (List Stitch)
  | [] => []
  | s :: rest =>
    match slicesOf rest with
    | [] => [[s]]
    | x :: xs => if s.slice then [s] :: x :: xs else (s :: x) :: xs

/-- The lanes a stitch acts on. -/
def Stitch.laneList (s : Stitch) : List Nat := [0, 1, 2, 3].filter s.lane

end Sys2Proof.Machine
end

