-- ==== Sys2Proof/Machine/Params.lean ====
section
/-!
DEFINITION. The image parameters: what each record may hold, and the values an image gives the part (Tables 2-10, 4-8,
5-5, 6-6, 7-7, 8-10, 9-8, 10-7, 11-5, 12-5, 15-7).
-/

namespace Sys2Proof.Machine

/-- What the table of a PARAM says: its section, its INDEX, its LEN and its value's range. -/
structure ParamRow where
  sect : Nat
  index : Nat → Bool
  len : Nat → Bool
  val : List Byte → Bool

/-- An index below `n`. -/
def below (n : Nat) (i : Nat) : Bool := decide (i < n)

/-- The one global index. -/
def globalIx (i : Nat) : Bool := decide (i = 0xFFFF)

/-- Whether `len` bytes at `o` hold a number from `lo` to `hi`. -/
def inRange (bs : List Byte) (o len lo hi : Nat) : Bool := decide (lo ≤ leAt bs o len ∧ leAt bs o len ≤ hi)

/-- Whether bits `lo` up to bit `hi - 1` of the value are 0. -/
def zeroBits (bs : List Byte) (lo hi : Nat) : Bool := decide (bits (leNat bs) lo (hi - lo) = 0)

/-- Source codes of Table 11-1. -/
def sourceOk (c : Nat) : Bool := decide (c < 0x188) || decide (c = 0x1FF)

/-- Word `j` of a value of 8-byte words. -/
def word8 (bs : List Byte) (j : Nat) : Nat := leAt bs (8 * j) 8

/-- Reserved bits of a C word. -/
def cWordOk (w : Nat) : Bool := decide (w < 2 ^ 30)

/-- Exponent bits of a C word. -/
def cExp (w : Nat) : Nat := bits w 24 6

/-- A region table may be loaded: KP and KI, and b0 to a2, each carry one coefficient exponent (R204, R235, R252). (DEDUCED, log entry 29.) -/
def regionTableOk (ws : List Nat) : Bool :=
  ws.all cWordOk && decide (cExp (ws.getD 0 0) = cExp (ws.getD 1 0)) &&
    [3, 4, 5, 6].all fun j => decide (cExp (ws.getD j 0) = cExp (ws.getD 2 0))

/-- One condition of a condition word (R229): SEL at `o`, DIR at `o + 2`, THR at `t`, HYS at `t + 12`. -/
def condOk (w o t : Nat) : Bool :=
  if bits w o 2 = 0 then true
  else
    let thr := bits w t 12
    let hys := bits w (t + 12) 12
    if bit w (o + 2) then decide (thr + hys ≤ 4095) else decide (hys ≤ thr)

/-- A condition word (Table 8-1, R229). -/
def condWordOk (w : Nat) : Bool := !bit w 3 && decide (w < 2 ^ 56) && condOk w 0 8 && condOk w 4 32

/-- A REGION_THRESH value: seven condition words and ρ. -/
def threshOk (ws : List Nat) : Bool := (ws.take 7).all condWordOk && cWordOk (ws.getD 7 0)

/-- The words of a value. -/
def words (bs : List Byte) (n : Nat) : List Nat := (List.range n).map (word8 bs)

/-- One term of a MIX_TERMS record. -/
def termOk (bs : List Byte) (t : Nat) : Bool := sourceOk (leAt bs (8 * t) 2) && decide (leAt bs (8 * t + 5) 3 = 0)

/-- A SAP_FORMAT value (R360, R362, Table 12-5). -/
def sapOk (bs : List Byte) : Bool :=
  let fl := leAt bs 0 1
  let slots := leAt bs 1 1
  let w := leAt bs 2 1
  let db := leAt bs 3 1
  let off := leAt bs 4 1
  let rate := leAt bs 5 1
  let div := leAt bs 6 1
  let hz := [0, 32000, 44100, 48000, 88200, 96000, 176400, 192000].getD rate 0
  let master := bit fl 2
  decide (1 ≤ slots ∧ slots ≤ 32 ∧ 8 ≤ w ∧ w ≤ 32 ∧ db ≤ w ∧ off ≤ 31 ∧ off < slots * w ∧ 1 ≤ rate ∧ rate ≤ 7)
    && [16, 20, 24, 32].contains db && decide (hz * slots * w ≤ 50000000) && decide (leAt bs 7 1 < 4)
    && (if master then
          !bit fl 3 && [1, 3, 5, 7].contains rate && decide (1 ≤ div) && decide (div * slots * w * hz = 49152000)
        else decide (div = 0))

/-- A SHANK_BUDGET value (Table 15-7). -/
def budgetOk (bs : List Byte) : Bool :=
  let cap (o : Nat) : Bool := decide (leAt bs o 2 = 0) || inRange bs o 2 10 4000
  inRange bs 0 2 100 1280 && inRange bs 2 2 (leAt bs 0 2) 3200 && inRange bs 4 2 0 12000 && inRange bs 6 2 500 1000
    && inRange bs 8 2 0 2000 && cap 10 && cap 12 && decide (leAt bs 14 2 = 0)

/-- Any value. -/
def anyVal (_ : List Byte) : Bool := true

/-- A LEN of exactly `n`. -/
def lenIs (n : Nat) (l : Nat) : Bool := decide (l = n)

/-- Whether a channel field's value names an address: T_AMB is signed. -/
def tAmbOk (bs : List Byte) : Bool := decide (-200 ≤ signed 16 (leAt bs 10 2) ∧ signed 16 (leAt bs 10 2) ≤ 600)

/-- The row of a PARAM code. -/
def paramRow : Nat → Option ParamRow
  | 0x0201 => some ⟨1, globalIx, lenIs 4, fun b => zeroBits b 12 32⟩
  | 0x0401 => some ⟨6, below 128, lenIs 1, fun b => inRange b 0 1 8 255⟩
  | 0x0402 => some ⟨2, below 128, lenIs 1, fun b => inRange b 0 1 0 1⟩
  | 0x0403 => some ⟨2, below 128, lenIs 4, fun b => zeroBits b 1 16 && inRange b 2 2 10000 20000⟩
  | 0x0404 => some ⟨6, below 128, lenIs 1, fun b => inRange b 0 1 0 1⟩
  | 0x0501 => some ⟨2, below 128, lenIs 1, fun b => inRange b 0 1 0 31 || inRange b 0 1 255 255⟩
  | 0x0502 => some ⟨2, below 32, lenIs 2, fun b => inRange b 0 2 1 65535⟩
  | 0x0503 => some ⟨2, below 16, lenIs 1, fun b => inRange b 0 1 0 1⟩
  | 0x0504 => some ⟨2, fun i => decide (i < 128 ∧ i % 2 = 0), lenIs 1, fun b => inRange b 0 1 0 1⟩
  | 0x0505 => some ⟨6, below 16, lenIs 8, fun b => inRange b 0 1 0 1 && inRange b 1 1 0 0 && inRange b 2 2 10000 20000
      && inRange b 4 2 0 3000 && inRange b 6 2 1 1000 && decide (leAt b 4 2 + 5000 ≤ leAt b 2 2)⟩
  | 0x0506 => some ⟨6, globalIx, lenIs 4, fun b => inRange b 0 2 10500 21000 && inRange b 2 2 100 2000⟩
  | 0x0601 => some ⟨6, below 128, lenIs 1, fun b => inRange b 0 1 40 150⟩
  | 0x0602 => some ⟨6, below 128, lenIs 1, fun b => inRange b 0 1 0 31⟩
  | 0x0603 => some ⟨6, below 128, lenIs 1, fun b => inRange b 0 1 1 255⟩
  | 0x0604 => some ⟨6, below 128, lenIs 2, fun b => inRange b 0 2 1 65535⟩
  | 0x0605 => some ⟨6, below 128, lenIs 2, fun b => inRange b 0 2 100 400⟩
  | 0x0606 => some ⟨6, below 128, lenIs 1, fun b => inRange b 0 1 10 200⟩
  | 0x0607 => some ⟨3, below 8, lenIs 16, anyVal⟩
  | 0x0701 => some ⟨2, below 128, lenIs 1, fun b => inRange b 0 1 0 3⟩
  | 0x0801 => some ⟨7, below 1024, lenIs 96, fun b => regionTableOk (words b 12)⟩
  | 0x0802 => some ⟨7, below 128, lenIs 64, fun b => threshOk (words b 8)⟩
  | 0x0803 => some ⟨7, below 128, lenIs 20, fun b => [0, 1, 2, 3, 5].all fun j => decide (leAt b (2 * j) 2 ≠ 0xFFFF)⟩
  | 0x0901 => some ⟨2, below 128, lenIs 2, fun b => inRange b 0 2 1000 40000⟩
  | 0x0902 => some ⟨6, below 128, lenIs 4, fun b => inRange b 0 2 10 3000 && inRange b 2 2 1000 20000⟩
  | 0x0903 => some ⟨6, below 128, lenIs 16, fun b => inRange b 0 2 600 3000 && inRange b 2 2 50 5000
      && inRange b 4 2 100 60000 && inRange b 6 2 10 2000 && inRange b 8 2 10 7200 && tAmbOk b && inRange b 12 2 3000 4500
      && inRange b 14 2 0x0148 0x8000⟩
  | 0x0904 => some ⟨2, below 128, lenIs 4, fun b => inRange b 0 2 0 1 && inRange b 2 2 30 1000⟩
  | 0x0A01 => some ⟨2, below 128, lenIs 16, anyVal⟩
  | 0x0A02 => some ⟨2, below 128, lenIs 8, anyVal⟩
  | 0x0B01 => some ⟨5, sourceOk, lenIs 1, fun b => inRange b 0 1 0 2⟩
  | 0x0B02 => some ⟨5, below 128, fun l => decide (l ≤ 256 ∧ l % 8 = 0), fun b =>
      (List.range (b.length / 8)).all (termOk b)⟩
  | 0x0B03 => some ⟨5, below 128, lenIs 4, fun b => inRange b 3 1 0 0⟩
  | 0x0B04 => some ⟨3, below 64, lenIs 20, fun b => inRange b 3 1 0 0⟩
  | 0x0B05 => some ⟨5, below 128, lenIs 4, fun b => inRange b 0 3 0 262144 && inRange b 3 1 0 16⟩
  | 0x0B06 => some ⟨5, below 128, lenIs 4, fun b => inRange b 0 2 0 2000 && inRange b 2 2 1 1000⟩
  | 0x0B07 => some ⟨5, below 128, lenIs 2, fun b => inRange b 0 1 0 1 && inRange b 1 1 2 7⟩
  | 0x0B08 => some ⟨5, below 256, lenIs 2, fun b => (inRange b 0 1 0 127 || inRange b 0 1 255 255) && inRange b 1 1 0 1⟩
  | 0x0B10 => some ⟨9, below 4096, lenIs 16, fun b => sourceOk (leAt b 0 2) && inRange b 2 1 0 127 && inRange b 3 1 0 0⟩
  | 0x0C01 => some ⟨4, below 8, lenIs 8, sapOk⟩
  | 0x0C02 => some ⟨4, below 8, lenIs 4, anyVal⟩
  | 0x0C03 => some ⟨3, below 16, lenIs 20, fun b => decide (leAt b 1 3 = 0)⟩
  | 0x0F01 => some ⟨8, globalIx, lenIs 16, budgetOk⟩
  | 0x0F02 => some ⟨8, below 128, lenIs 1, fun b => inRange b 0 1 0 1⟩
  | 0x0F03 => some ⟨8, below 128, lenIs 2, fun b => inRange b 0 2 500 7500⟩
  | 0x1101 => some ⟨6, globalIx, lenIs 4, fun b => inRange b 0 2 10 80 && inRange b 2 2 10 2000⟩
  | 0x1102 => some ⟨2, globalIx, lenIs 4, anyVal⟩
  | _ => none

/-- Whether one record meets its row (R73, Table 3-8 reason 0x0C). -/
def paramOk (p : Param) : Bool :=
  match paramRow p.code with
  | none => false
  | some r => decide (p.sect = r.sect) && r.index p.index && r.len p.val.length && r.val p.val

/-! ### Values in force -/

/-- The value of a record, if the image holds it. -/
def pval (ps : List Param) (code ix : Nat) : Option (List Byte) :=
  (ps.find? fun p => decide (p.code = code ∧ p.index = ix)).map (·.val)

/-- The value of a record, or its reset value. -/
def pdef (ps : List Param) (code ix : Nat) (reset : List Byte) : List Byte := (pval ps code ix).getD reset

/-- Whether a channel is the even or odd half of a bridged pair (Table 7-7). -/
def bridgedP (ps : List Param) (c : Nat) : Bool := bit (leNat (pdef ps 0x0701 (c / 2 * 2) [0])) 1

/-- PRIVILEGED of a channel; an odd half takes the even half's (R222, R223). -/
def privilegedP (ps : List Param) (c : Nat) : Bool :=
  bit (leNat (pdef ps 0x0701 (if bridgedP ps c then c / 2 * 2 else c) [0])) 0

/-- Term count of a channel's mix. -/
def termsP (ps : List Param) (c : Nat) : List Byte := pdef ps 0x0B02 c []

/-- The table of a region: its own record, else a copy of region 0 (R252). -/
def regionP (ps : List Param) (c q : Nat) : List Byte :=
  (pval ps 0x0801 (8 * c + q)).getD (pdef ps 0x0801 (8 * c) (zeros 96))

/-- Signed Q4.20 gain of three bytes. -/
def gainAt (bs : List Byte) (o : Nat) : Int := signed 24 (leAt bs o 3)

/-- The image parameters of one channel as values. -/
def chanCfg (ps : List Param) (c : Nat) : ChanCfg :=
  let ff := pdef ps 0x0403 c (le 2 1 ++ le 2 18000)
  let grp := leNat (pdef ps 0x0501 c [0xFF])
  let ex := pdef ps 0x0902 c (le 2 300 ++ le 2 20000)
  let th := pdef ps 0x0903 c
    (le 2 1500 ++ le 2 400 ++ le 2 8000 ++ le 2 150 ++ le 2 900 ++ le 2 250 ++ le 2 3930 ++ le 2 0x0CCD)
  let re := pdef ps 0x0904 c (le 2 1 ++ le 2 100)
  let ld := pdef ps 0x0A02 c (le 4 0 ++ le 2 0 ++ le 2 200)
  { deadTime := leNat (pdef ps 0x0401 c [40])
    updMid := decide (leNat (pdef ps 0x0402 c [0]) = 1)
    ffEn := bit (leNat ff) 0
    ffRef := leAt ff 2 2
    manPermit := decide (leNat (pdef ps 0x0404 c [0]) = 1)
    relGroup := if grp < 32 then some grp else none
    polarityPair := decide (leNat (pdef ps 0x0504 (c / 2 * 2) [0]) = 1)
    ilim := leNat (pdef ps 0x0601 c [130])
    blank := leNat (pdef ps 0x0602 c [12])
    tripCount := leNat (pdef ps 0x0603 c [16])
    tripWindow := leNat (pdef ps 0x0604 c [64])
    dcThresh := leNat (pdef ps 0x0605 c [200])
    dcTime := leNat (pdef ps 0x0606 c [50])
    privileged := privilegedP ps c
    bridged := bridgedP ps c
    outputScale := leNat (pdef ps 0x0901 c (le 2 16000))
    xMax := leAt ex 0 2
    vMax := leAt ex 2 2
    tLim := leAt th 0 2
    rc := leAt th 2 2
    tauC := leAt th 4 2
    rm := leAt th 6 2
    tauM := leAt th 8 2
    tAmb := signed 16 (leAt th 10 2)
    alpha := leAt th 12 2
    gFloor := leAt th 14 2
    pilotEn := bit (leAt re 0 1) 0
    reSigMin := leAt re 2 2
    loadId := fit 16 (pdef ps 0x0A01 c [])
    mms := leAt ld 0 4
    cableR := leAt ld 4 2
    lfDcr := leAt ld 6 2
    shankClass := decide (leNat (pdef ps 0x0F02 c [0]) = 1)
    iRated := leNat (pdef ps 0x0F03 c (le 2 2500))
    inUse := false }

/-- The format of a port (Table 12-5). -/
def sapFmt (ps : List Param) (p : Nat) : SapFmt :=
  match pval ps 0x0C01 p with
  | none => .reset
  | some b =>
    let fl := leAt b 0 1
    { en := bit fl 0, out := bit fl 1, master := bit fl 2, free := bit fl 3, bclkInv := bit fl 4, fsInv := bit fl 5
      tristate := bit fl 6, fsHalf := bit fl 7, slots := leAt b 1 1, width := leAt b 2 1, dataBits := leAt b 3 1
      offset := leAt b 4 1, rate := leAt b 5 1, div := leAt b 6 1, mclk := leAt b 7 1 }

/-- Whether bit `i` of the value from byte `o` is set. -/
def maskBit (bs : List Byte) (o i : Nat) : Bool := bit (leAt bs (o + i / 8) 1) (i % 8)

/-- The gain group of a channel, the lowest that names it. -/
def gainGroupP (ps : List Param) (c : Nat) : Option Nat :=
  (List.range 64).find? fun g => maskBit (pdef ps 0x0B04 g (zeros 20)) 4 c

end Sys2Proof.Machine
end

