-- ==== Sys2Proof/Machine/Image.lean ====
section
/-!
DEFINITION. The image checks 0x01 to 0x0F in the order of Table 3-8 (R68 to R85, R202, R223, R229, R231, R246, R252, R253,
R263 to R265, R355, R376, R384, R464, R504, R577, R582) and the schedule evaluation of R82.
-/

namespace Sys2Proof.Machine

/-- The logical tiles in order, as Table 3-2 codes them. -/
def allTiles : List Nat := List.range 20

/-- A section directory entry (Table 3-2). -/
structure DirEnt where
  type : Nat
  tile : Nat
  res : Nat
  off : Nat
  len : Nat
  crc : Nat
  deriving DecidableEq, Repr

/-- The entry `i` of the directory. -/
def dirEnt (bs : List Byte) (i : Nat) : DirEnt :=
  let e := (skip (0x100 + 16 * i) bs).take 16
  ⟨leAt e 0 2, leAt e 2 1, leAt e 3 1, leAt e 4 4, leAt e 8 4, leAt e 12 4⟩

/-- The entries of the directory that lie in the image. -/
def dirOf (bs : List Byte) : List DirEnt :=
  (List.range (min (leAt bs 0x0E 2) ((bs.length - 0x100) / 16))).map (dirEnt bs)

/-- The bytes of a section. -/
def sectBytes (bs : List Byte) (e : DirEnt) : List Byte := (skip e.off bs).take e.len

/-- The section of a type and tile. -/
def sectOf (bs : List Byte) (dir : List DirEnt) (ty tile : Nat) : List Byte :=
  match dir.find? fun e => decide (e.type = ty ∧ e.tile = tile) with
  | some e => sectBytes bs e
  | none => []

/-- The bytes a signature covers (R69). -/
def signedPart (bs : List Byte) : List Byte := bs.take 0xA0 ++ bs.drop 0x100

/-- Check 0x01 (Table 3-1). -/
def chkFormat (bs : List Byte) (magic : Nat) : Bool :=
  decide (leAt bs 0 4 = magic ∧ leAt bs 4 2 = 1 ∧ leAt bs 6 2 = 0x100 ∧ leAt bs 0x1A 6 = 0 ∧ leAt bs 0x40 96 = 0)

/-- Check 0x02. -/
def chkLength (bs : List Byte) : Bool := decide (leAt bs 8 4 ≤ 4194304 ∧ leAt bs 8 4 = bs.length)

/-- Check 0x03 (R69). -/
def chkSignature (keys : List (Option (Nat × Nat))) (bs : List Byte) : Bool :=
  match keys.getD (leAt bs 0x18 1) none with
  | none => false
  | some k => ecdsaOk k (sha384 (signedPart bs)) (beNat (slice bs 0xA0 48)) (beNat (slice bs 0xD0 48))

/-- Check 0x04. -/
def chkTarget (bs : List Byte) (member : Nat) : Bool := decide (leAt bs 0xC 1 = member ∧ leAt bs 0xD 1 = 0xB0)

/-- Check 0x05. -/
def chkCrc (bs : List Byte) : Bool :=
  (dirOf bs).all fun e => decide (bs.length < e.off + e.len) || decide (crc32 (sectBytes bs e) = e.crc)

/-- The sections an image holds (Table 3-3). -/
def wantedSections : List (Nat × Nat) :=
  (List.range 9).map (fun t => (t + 1, 0xFF)) ++ allTiles.map (fun t => (0x10, t)) ++ (List.range 16).map (fun t => (0x11, t))
    ++ allTiles.map (fun t => (0x12, t))

/-- Two stretches of numbers share no number. -/
def apart (a b : Nat × Nat) : Bool := decide (min (a.1 + a.2) (b.1 + b.2) ≤ max a.1 b.1)

/-- No two stretches of a list share a number. -/
def allApart : List (Nat × Nat) → Bool
  | [] => true
  | x :: xs => xs.all (apart x) && allApart xs

/-- Check 0x06 (R70, R72, R73). (DEDUCED, log entry 28.) -/
def chkLayout (bs : List Byte) : Bool :=
  let cnt := leAt bs 0x0E 2
  let dir := dirOf bs
  let fin := 0x100 + 16 * cnt
  decide (1 ≤ cnt ∧ cnt ≤ 512 ∧ fin ≤ bs.length) && [18, 19, 20, 22, 24].contains (leAt bs 0x19 1)
    && dir.all (fun e => decide (e.res = 0 ∧ e.off % 8 = 0 ∧ e.len % 8 = 0 ∧ fin ≤ e.off ∧ e.off + e.len ≤ bs.length))
    && allApart ((dir.map fun e => (e.off, e.len)).filter fun e => decide (e.2 ≠ 0))
    && decide (dir.length = wantedSections.length) && wantedSections.all (fun w => dir.any fun e => decide ((e.type, e.tile) = w))
    && (List.range 9).all fun t =>
      let s := sectOf bs dir (t + 1) 0xFF
      (paramsOf (t + 1) s.length s).isSome

/-- The image that laid-out bytes spell, and whether every block record's reserved bits are 0 and every BLOCKS section is a
sequence of records. -/
def imageOf (bs : List Byte) : Image × Bool :=
  let dir := dirOf bs
  let blocks := allTiles.map fun t => let s := sectOf bs dir 0x10 t; (t, blocksOf s (s.length / 16), decide (s.length % 16 = 0))
  ({ id := leAt bs 0x10 4
     build := leAt bs 0x14 4
     name := slice bs 0x20 32
     n := leAt bs 0x19 1
     keyIndex := leAt bs 0x18 1
     len := leAt bs 8 4
     member := leAt bs 0xC 1
     params := (List.range 9).flatMap fun t =>
       let s := sectOf bs dir (t + 1) 0xFF
       (paramsOf (t + 1) s.length s).getD []
     blocks := blocks.map fun b => (b.1, b.2.1.map (·.1))
     schedFc := (List.range 16).map fun t => let s := sectOf bs dir 0x11 t; (t, stitchesOf s (s.length / 8))
     schedFi := allTiles.map fun t => let s := sectOf bs dir 0x12 t; (t, stitchesOf s (s.length / 8)) },
   blocks.all fun b => b.2.2 && b.2.1.all (·.2))

/-! ### Access to an image -/

/-- Fc sequence of a logical tile. -/
def Image.fc (i : Image) (t : Nat) : List Stitch := (i.schedFc.lookup t).getD []

/-- Fi sequence of a logical tile. -/
def Image.fi (i : Image) (t : Nat) : List Stitch := (i.schedFi.lookup t).getD []

/-- Block records of a logical tile. -/
def Image.blk (i : Image) (t : Nat) : List BlockRec := (i.blocks.lookup t).getD []

/-- Every stitch of a logical tile. -/
def Image.all (i : Image) (t : Nat) : List Stitch := i.fc t ++ i.fi t

/-- The kind-0 record that holds a block address. -/
def findBlk (bl : List BlockRec) (a : Nat) : Option BlockRec :=
  bl.find? fun b => decide (b.kind = 0 ∧ b.base ≤ a ∧ a < b.base + b.size)

/-- The delay-line records of a tile in record order (R582). -/
def linesOf (bl : List BlockRec) : List BlockRec := bl.filter fun b => decide (b.kind = 2)

/-- Whether a channel is in loop use (R577). -/
def loopUse (i : Image) (c : Nat) : Bool :=
  (i.fc (c / 8)).any fun s => decide (s.type = tyDuty ∧ s.dst = c % 8 / 4) && s.lane (c % 4)

/-- The lines a DLY_WR or DLY_RD of a mix tile uses: the block its lanes lie in, a lane and its line (R582). -/
def lineUses (i : Image) (t : Nat) : List (Nat × Nat × Nat) :=
  (i.fi t).flatMap fun s =>
    if s.type = tyDlyWr then s.laneList.map fun l => (s.srcA / 0x340, l, s.dst + l)
    else if s.type = tyDlyRd then s.laneList.map fun l => (s.dst / 0x340, l, s.srcA + l)
    else []

/-- The delay line of a channel: the record its DLY_RD or DLY_WR lane names. -/
def lineOf (i : Image) (c : Nat) : Option BlockRec :=
  let t := 16 + c / 32
  match (lineUses i t).find? fun u => decide (u.1 = c % 32 / 4 ∧ u.2.1 = c % 4) with
  | some u => (linesOf (i.blk t))[u.2.2]?
  | none => none

/-- The source groups a mix tile reads (R321, R322). -/
def groupsRead (i : Image) (m : Nat) : List Nat :=
  ((i.fi (16 + m)).filter fun s => decide (s.type = tySrcIn)).map (·.srcA)

/-- Whether a mix of channel `c` may name a source (R322). -/
def sourceRead (i : Image) (c code : Nat) : Bool := decide (code = 0x1FF) || (groupsRead i (c / 32)).contains (code / 4)

/-! ### Check 0x07 -/

/-- What check 0x07 asks of one stitch alone. -/
def stitchOk (eng : Bool) (s : Stitch) : Bool :=
  let t := s.type
  decide (t ≤ tyCob) && decide (s.lanes ≠ 0) && !((if eng then mixOnly else engOnly).contains t)
    && decide (s.var.toNat &&& varMask t = s.var.toNat) && s.data.all (fun a => decide (a ≤ 0x19FF)) && s.portsOk
    && !(decide (t = tyRegion ∨ t = tyExcur) && s.suben)
    && !(decide (t = tyThermal ∨ t = tyGrant) && !s.suben)
    && !(decide (t = tyGrant ∧ s.sub = 0))
    && !(decide (t = tyAwl ∧ s.srcB ≠ (if eng then 1 else 0)))
    && !(decide (t = tySense) && decide (s.srcA ≠ grpOf s.dst))
    && !(decide (t = tyDuty) && decide (s.dst ≠ grpOf s.srcA))

/-- Whether the lanes two stitches share meet `p`. -/
def sharedLanes (a b : Stitch) (p : Nat → Bool) : Bool := (a.laneList.filter b.lane).all p

/-- What check 0x07 asks across the stitches of an engine tile, those of its Fc sequence included: the sense block of a channel's
set-point INTERP and its PRIVILEGED bit (R223), and the links of the outer loops (R263). -/
def engLinksOk (i : Image) (k : Nat) : Bool :=
  let all := i.all k
  let priv (g l : Nat) : Bool := privilegedP i.params (etCh k g l)
  let exs := all.filter fun s => decide (s.type = tyExcur)
  all.all (fun s => !(decide (s.type = tyInterp) && !s.v 0) || (all.filter fun r => decide (r.type = tySense ∧ r.dst = s.srcB)).all
      fun r => sharedLanes s r fun l => r.v 0 == priv (grpOf s.dst) l)
    && exs.all (fun s => s.laneList.all fun l => s.v 0 == priv (grpOf s.dst) l)
    && (all.filter fun s => decide (s.type = tyThermal)).all (fun s => s.laneList.all fun l =>
      exs.any fun x => x.lane l && decide (x.srcA = s.dst ∧ x.dst = s.srcA))
    && (all.filter fun s => decide (s.type = tyGrant)).all (fun s => s.laneList.all fun l =>
      exs.any fun x => x.lane l && decide (x.srcA = s.dst ∧ grpOf x.dst = s.srcA))

/-- The lines of a mix tile exist, and a lane's DLY_WR and DLY_RD name one line (R582). -/
def linesOk (i : Image) (t : Nat) : Bool :=
  let us := lineUses i t
  let n := (linesOf (i.blk t)).length
  us.all fun u => decide (u.2.2 < n) && us.all fun v => !(decide (v.1 = u.1 ∧ v.2.1 = u.2.1)) || decide (v.2.2 = u.2.2)

/-- Check 0x07. (DEDUCED, log entry 28.) -/
def chkFields (i : Image) : Bool :=
  allTiles.all (fun t => (i.all t).all (stitchOk (decide (t < 16)))) && (List.range 4).all (fun m => linesOk i (16 + m))
    && (List.range 16).all (engLinksOk i)

/-! ### Check 0x08 -/

/-- The last stitch of a sequence is the only one with END. -/
def endOk : List Stitch → Bool
  | [] => false
  | [s] => s.fin
  | s :: r :: rest => !s.fin && endOk (r :: rest)

/-- Every indexed TABLE of a sequence follows the REGION that writes the state it names (R231). -/
def tablesOk (l : List Stitch) : Bool :=
  let rec go (before : List Nat) : List Stitch → Bool
    | [] => true
    | s :: rest =>
      (if s.type = tyTable ∧ s.v 0 = true then
        before.contains s.srcB && !(rest.any fun r => decide (r.type = tyRegion ∧ r.dst = s.srcB)) else true)
        && go (if s.type = tyRegion then s.dst :: before else before) rest
  go [] l

/-- Every indexed TABLE of an Fc sequence names a state that a REGION of the tile's Fi sequence writes (R231). -/
def fcTablesOk (fc fi : List Stitch) : Bool :=
  fc.all fun s => !(decide (s.type = tyTable) && s.v 0) || fi.any fun r => decide (r.type = tyRegion ∧ r.dst = s.srcB)

/-- How many stitches of a type an engine tile's Fi sequence gives a channel. -/
def countLane (i : Image) (ty c : Nat) : Nat :=
  ((i.fi (c / 8)).filter fun s => decide (s.type = ty ∧ (if ty = tyGrant then s.srcA else grpOf s.dst) = c % 8 / 4)
    && s.lane (c % 4)).length

/-- The outer-loop stitches of a channel (R264). -/
def outerOk (i : Image) (c : Nat) : Bool :=
  [tyExcur, tyThermal, tyGrant].all fun ty =>
    let n := countLane i ty c
    if loopUse i c && !(bridgedP i.params c && decide (c % 2 = 1)) then decide (n = 1) else decide (n ≤ 1)

/-- Check 0x08 (R78 to R80, R231, R264, R577). -/
def chkSequence (i : Image) : Bool :=
  (List.range 16).all (fun t =>
      endOk (i.fc t) && (i.fc t).all (fun s => !s.slice && !s.suben && !mixOnly.contains s.type)
        && endOk (i.fi t) && (i.fi t).all (fun s => !(s.slice && s.fin))
        && decide (((i.fi t).filter (·.slice)).length + 1 = i.n)
        && decide ((i.fc t).length + (i.fi t).length ≤ 6144))
    && (List.range 4).all (fun m => endOk (i.fi (16 + m)) && (i.fi (16 + m)).all (fun s => !s.slice && !engOnly.contains s.type)
        && decide ((i.fi (16 + m)).length ≤ 6144))
    && allTiles.all (fun t => tablesOk (i.fi t) && fcTablesOk (i.fc t) (i.fi t))
    && (List.range 128).all (outerOk i)
    && (List.range 64).all fun p => !bridgedP i.params (2 * p) || (loopUse i (2 * p) == loopUse i (2 * p + 1))

/-! ### Check 0x09 -/

/-- No number stands twice in a rising list. -/
def noTwice : List Nat → Bool
  | [] => true
  | [_] => true
  | x :: y :: rest => decide (x ≠ y) && noTwice (y :: rest)

/-- The operands of a stitch lie in blocks of its tile; the model stage of an EXCUR lies there whole (R265). -/
def operandsOk (bl : List BlockRec) (s : Stitch) : Bool :=
  s.data.all (fun a => (findBlk bl a).isSome)
    && (!decide (s.type = tyExcur) || (List.range 16).all fun j => (findBlk bl (s.srcB + j)).isSome)
    && (!decide (s.type = tyShRd ∨ s.type = tyShWr) || bl.any fun b =>
      decide (b.kind ≠ 0 ∧ b.base ≤ s.srcA * 2 ^ 14 + s.srcB ∧ s.srcA * 2 ^ 14 + s.srcB < b.base + b.size))

/-- How many 32-byte blocks of state a tile writes (R503, R504). -/
def stateBlocks (i : Image) (t : Nat) : Nat :=
  let ds := ((i.all t).filter Stitch.writes).map (·.dst)
  (((i.blk t).filter fun b => decide (b.kind = 0) && ds.any fun a => decide (b.base ≤ a ∧ a < b.base + b.size)).map (·.size)).sum

/-- Check 0x09 (R74, R75, R265, R504). (DEDUCED, log entry 28.) -/
def chkBlocks (i : Image) (recsOk : Bool) : Bool :=
  let all := i.blocks.flatMap (·.2)
  let shared := (all.filter fun b => decide (b.kind ≠ 0)).map fun b => (b.base, b.size)
  recsOk && noTwice ((all.map (·.ident)).mergeSort (fun a b => decide (a ≤ b)))
    && all.all (fun b => decide (1 ≤ b.size ∧ b.kind ≤ 2) && decide (b.base + b.size ≤ if b.kind = 0 then 0x1A00 else 0x100000))
    && allApart shared
    && i.blocks.all (fun t => allApart ((t.2.filter fun b => decide (b.kind = 0)).map fun b => (b.base, b.size)))
    && allTiles.all (fun t => (i.all t).all (operandsOk (i.blk t)))
    && allTiles.all fun t => decide (stateBlocks i t ≤ if t < 16 then 832 else 3328)

/-! ### Checks 0x0A and 0x0B (R82) -/

/-- Cost of a list of stitches in phase `p`. -/
def costOf (l : List Stitch) (p : Nat) : Nat := (l.map fun s => s.cost p).sum

/-- Cobbler time of a list of stitches in phase `p`. -/
def windowOf (l : List Stitch) (p : Nat) : Nat := (l.map fun s => s.window p).sum

/-- Whether `w` ps exceed 88 % of a period of 1 / (`n` × 96 kHz). -/
def overSlack (w n : Nat) : Bool := decide (88 * 10 ^ 12 < w * n * 9600000)

/-- Whether `w` ps fall short of 2 % of the Fi period. -/
def underCob (w : Nat) : Bool := decide (w * 9600000 < 2 * 10 ^ 12)

/-- The first failure of the slack pass: tile, phase and slice. -/
def slackFail (i : Image) : Option (Nat × Nat × Nat) :=
  let eng := (List.range 16).findSome? fun t =>
    let sl := slicesOf (i.fi t)
    (List.range 32).findSome? fun p =>
      let f := startFc + costOf (i.fc t) p
      (List.range sl.length).findSome? fun j => if overSlack (f + costOf (sl.getD j []) p) i.n then some (t, p, j) else none
  match eng with
  | some x => some x
  | none => (List.range 4).findSome? fun m => (List.range 32).findSome? fun p =>
      if overSlack (startFi + costOf (i.fi (16 + m)) p) 1 then some (16 + m, p, 0) else none

/-- The first failure of the Cobbler pass: tile and phase. -/
def cobFail (i : Image) : Option (Nat × Nat) :=
  allTiles.findSome? fun t => (List.range 32).findSome? fun p =>
    let w := windowOf (i.fi t) p + (if t < 16 then i.n * windowOf (i.fc t) p else 0)
    if underCob w then some (t, p) else none

/-! ### Check 0x0C -/

/-- Two records of one PARAM carry one INDEX. -/
def twiceParam : List Param → Option Param
  | [] => none
  | p :: rest => if rest.any fun q => decide (q.code = p.code ∧ q.index = p.index) then some p else twiceParam rest

/-- The first record that fails on its own, with an INDEX given twice. -/
def recordFail (ps : List Param) : Option Param :=
  match ps.find? fun p => !paramOk p with
  | some p => some p
  | none => (List.range 0x12).findSome? fun h => twiceParam (ps.filter fun p => decide (p.code / 256 = h))

/-- The records in which the halves of a bridged pair agree, with their reset values (R138, R170, R199, R283, R317, R488). -/
def pairCodes : List (Nat × List Byte) :=
  [(0x0401, [40]), (0x0402, [0]), (0x0403, le 2 1 ++ le 2 18000), (0x0501, [0xFF]), (0x0601, [130]), (0x0602, [12]), (0x0603, [16]),
   (0x0604, le 2 64), (0x0605, le 2 200), (0x0606, [50]), (0x0901, le 2 16000), (0x0902, le 2 300 ++ le 2 20000),
   (0x0903, le 2 1500 ++ le 2 400 ++ le 2 8000 ++ le 2 150 ++ le 2 900 ++ le 2 250 ++ le 2 3930 ++ le 2 0x0CCD),
   (0x0904, le 2 1 ++ le 2 100), (0x0A01, zeros 16), (0x0A02, le 4 0 ++ le 2 0 ++ le 2 200), (0x0F02, [0]), (0x0F03, le 2 2500)]

/-- The record of a PARAM that stands for a pair's failure: the odd half's, the even half's where the odd one has none. -/
def pairRec (ps : List Param) (c code : Nat) : Nat × Nat := (code, if (pval ps code (c + 1)).isSome then c + 1 else c)

/-- Whether the odd half has a CHANNEL_KIND record whose PRIVILEGED bit differs (R223). -/
def kindDiffers (ps : List Param) (c : Nat) : Bool :=
  match pval ps 0x0701 (c + 1) with
  | some b => bit (leNat b) 0 != privilegedP ps c
  | none => false

/-- The first region table in which the halves differ (R253). -/
def tableDiffers (ps : List Param) (c : Nat) : Option (Nat × Nat) :=
  ((List.range 8).find? fun q => decide (regionP ps c q ≠ regionP ps (c + 1) q)).map fun q =>
    (0x0801, 8 * (if (pval ps 0x0801 (8 * (c + 1) + q)).isSome then c + 1 else c) + q)

/-- The first record of a bridged pair that breaks a rule of pairs (R138, R154, R170, R199, R223, R253, R283, R317, R355, R488). -/
def pairFail (ps : List Param) (c : Nat) : Option (Nat × Nat) :=
  let differ := (pairCodes.find? fun k => decide (pdef ps k.1 c k.2 ≠ pdef ps k.1 (c + 1) k.2)).map fun k => pairRec ps c k.1
  let rest : Option (Nat × Nat) :=
    if pdef ps 0x0802 c (zeros 64) ≠ pdef ps 0x0802 (c + 1) (zeros 64) then some (pairRec ps c 0x0802)
    else if (pval ps 0x0B02 (c + 1)).getD [] ≠ [] then some (0x0B02, c + 1)
    else (gainGroupP ps (c + 1)).map fun g => (0x0B04, g)
  if differ.isSome then differ
  else if leNat (pdef ps 0x0504 c [0]) ≠ 0 then some (0x0504, c)
  else if kindDiffers ps c then some (0x0701, c + 1)
  else (tableDiffers ps c).or rest

/-- CHANNEL_KIND: BRIDGED on an odd channel, the rules of pairs, and the seventeenth privileged channel (R223, R283). -/
def kindFail (ps : List Param) : Option (Nat × Nat) :=
  match (List.range 128).find? fun c => decide (c % 2 = 1) && bit (leNat (pdef ps 0x0701 c [0])) 1 with
  | some c => some (0x0701, c)
  | none =>
    match ((List.range 64).filter fun p => bridgedP ps (2 * p)).findSome? fun p => pairFail ps (2 * p) with
    | some x => some x
    | none =>
      match ((List.range 128).filter (privilegedP ps))[16]? with
      | some c => some (0x0701, c)
      | none => ((List.range 128).find? fun c => !bridgedP ps c && decide (20000 < leNat (pdef ps 0x0901 c (le 2 16000)))).map
          fun c => (0x0901, c)

/-- Region records of the channels (R252, R253). -/
def regionFail (i : Image) : Option (Nat × Nat) :=
  let ps := i.params
  match (List.range 128).find? fun c => loopUse i c && (pval ps 0x0801 (8 * c)).isNone with
  | some c => some (0x0801, 8 * c)
  | none => ((List.range 128).find? fun c =>
      match pval ps 0x0803 c with
      | none => loopUse i c
      | some b => !((List.range 10).all fun j =>
          let a := leAt b (2 * j) 2
          decide (a = 0xFFFF) || ((findBlk (i.blk (c / 8)) a).isSome && decide (grpOf a = c % 8 / 4)))).map fun c => (0x0803, c)

/-- Mix records of the channels (R322, R346, R355). -/
def mixFail (i : Image) : Option (Nat × Nat) :=
  let ps := i.params
  let codes (c : Nat) : List Nat := let b := termsP ps c; (List.range (b.length / 8)).map fun t => leAt b (8 * t) 2
  match (List.range 128).find? fun c => decide (termsP ps c ≠ []) &&
      ((lineOf i c).isNone || !((i.fi (16 + c / 32)).any fun s =>
        decide (s.type = tyLimit ∧ s.dst / 0x340 = c % 32 / 4) && s.lane (c % 4))
        || (codes c).any fun x => !sourceRead i c x) with
  | some c => some (0x0B02, c)
  | none =>
    match (List.range 128).find? fun c =>
        match lineOf i c with
        | some b => decide (termsP ps c ≠ []) && decide (128 * b.size < leAt (pdef ps 0x0B05 c (zeros 4)) 0 3 + 256)
        | none => false with
    | some c => some (0x0B05, c)
    | none =>
      let twice (g : Nat) : Bool := (List.range 128).any fun c =>
        maskBit (pdef ps 0x0B04 g (zeros 20)) 4 c && decide (gainGroupP ps c ≠ some g)
      ((List.range 64).find? twice).map fun g => (0x0B04, g)

/-- A member of an alignment group: port, or 0x80 + stream, with its nominal rate; none where R384 bars it. -/
def memberRate (ps : List Param) (m : Nat) : Option Nat :=
  if m < 0x80 then
    let f := sapFmt ps m
    if f.en && !f.out && !f.free then some f.rate else none
  else
    match pval ps 0x0B07 (m - 0x80) with
    | some b => if bit (leAt b 0 1) 0 then some (leAt b 1 1) else none
    | none => none

/-- Members of an alignment group. -/
def alignMembers (ps : List Param) (g : Nat) : List Nat :=
  let b := pdef ps 0x0C03 g (zeros 20)
  (List.range 8).filter (fun p => maskBit b 0 p) ++ ((List.range 128).filter fun h => maskBit b 4 h).map (· + 0x80)

/-- Port and group records (R376, R384). -/
def portFail (i : Image) : Option (Nat × Nat) :=
  let ps := i.params
  let all := (List.range 16).flatMap (alignMembers ps)
  match (List.range 16).find? fun g =>
      let ms := alignMembers ps g
      !(ms.all fun m => match memberRate ps m, memberRate ps (ms.headD 0) with
        | some a, some b => decide (a = b)
        | _, _ => false) || ms.any fun m => decide (1 < (all.filter (· == m)).length) with
  | some g => some (0x0C03, g)
  | none =>
    match ps.find? fun p => decide (p.code = 0x0B08 ∧ leAt p.val 0 1 ≠ 0xFF) &&
        (let f := sapFmt ps (p.index / 32); !f.en || !f.out || decide (f.slots ≤ p.index % 32)) with
    | some p => some (0x0B08, p.index)
    | none => ((List.range 128).find? fun c =>
        let b := termsP ps c
        (List.range (b.length / 8)).any fun t =>
          let x := leAt b (8 * t) 2
          decide (x < 0x100) && (sapFmt ps (x / 32)).out).map fun c => (0x0B02, c)

/-- Check 0x0C: PARAM and INDEX of the first failure. (DEDUCED, log entry 28.) -/
def chkParams (i : Image) : Option (Nat × Nat) :=
  match recordFail i.params with
  | some p => some (p.code, p.index)
  | none => (kindFail i.params).or ((regionFail i).or ((mixFail i).or (portFail i)))

/-! ### The checks in order (R83, R84) -/

/-- A failed check that names nothing. -/
def failAt (reason : Nat) : FailInfo := ⟨reason, 0, 0, 0, 0, 0⟩

/-- Checks 0x01 to 0x0C of an image's bytes: the image, or the first failure. -/
def checkBytes (keys : List (Option (Nat × Nat))) (member : Nat) (bs : List Byte) : Except FailInfo Image :=
  if !chkFormat bs 0x5453414C then .error (failAt 1)
  else if !chkLength bs then .error (failAt 2)
  else if !chkSignature keys bs then .error (failAt 3)
  else if !chkTarget bs member then .error (failAt 4)
  else if !chkCrc bs then .error (failAt 5)
  else if !chkLayout bs then .error (failAt 6)
  else
    let (i, ok) := imageOf bs
    if !chkFields i then .error (failAt 7)
    else if !chkSequence i then .error (failAt 8)
    else if !chkBlocks i ok then .error (failAt 9)
    else match slackFail i with
      | some (t, p, j) => .error ⟨0xA, t, p, j, 0, 0⟩
      | none => match cobFail i with
        | some (t, p) => .error ⟨0xB, t, p, 0, 0, 0⟩
        | none => match chkParams i with
          | some (a, x) => .error ⟨0xC, 0, 0, 0, a, x⟩
          | none => .ok i

/-- Whether some release group is released (R581). -/
def groupsReleased (d : Dev) : Bool := anyB d.groupRel fun _ b => b

/-- Checks 0x0D to 0x0F against the part (R57, Table 3-8). -/
def checkLive (d : Dev) (i : Image) : Except FailInfo Image :=
  if (match d.core.image with | some o => decide (o.n ≠ i.n) | none => false) && groupsReleased d then .error (failAt 0xD)
  else if (ixs 128).any fun c => d.chs[c].prot.released && (bridgedP i.params c.val != d.chs[c].cfg.bridged) then
    .error (failAt 0xE)
  else if d.core.act.isSome then .error (failAt 0xF)
  else .ok i

/-- Checks 0x01 to 0x0F of a slot's contents. -/
def checkImage (d : Dev) (bs : List Byte) : Except FailInfo Image :=
  match checkBytes d.admin.keys d.growth.member bs with
  | .error e => .error e
  | .ok i => checkLive d i

/-- The checks of a slot that an uncorrectable code word affects: 0x01 refuses it for its header, 0x05 for the rest (Table 16-1). -/
def checkSlot (d : Dev) (x : ImgSlot) : Except FailInfo Image :=
  let r := checkImage d x.bytes
  if x.ecc = 0 then r
  else if x.ecc = 1 then .error (failAt 1)
  else match r with
    | .error i => .error (if i.reason < 5 then i else failAt 5)
    | .ok _ => .error (failAt 5)

end Sys2Proof.Machine
end

