-- ==== Sys2Proof/Machine/Capture.lean ====
section
/-!
DEFINITION. The capture units (chapter 8, R249 to R251).
-/

namespace Sys2Proof.Machine

/-- Write the entry that waits to a unit's ring: a full CONTINUOUS ring loses its oldest entry, a ONESHOT unit stops at
its count (R249, R250). -/
def capWrite (u : Cap) : Cap :=
  if u.due then
    let full := decide (u.ring ≤ u.entries.length)
    let e := (if full then u.entries.drop 1 else u.entries) ++ [u.latch]
    { u with
      due := false
      entries := e
      first := if full then u.first + 1 else u.first
      written := u.written + 1
      overwritten := if full && u.cont then satN 0xFFFFFF (u.overwritten + 1) else u.overwritten
      armed := u.armed && (u.cont || decide (u.written + 1 < u.limit)) }
  else u

/-- One evaluation of a unit's point: every DEC evaluations an entry waits to be written, every second of these while the
Shank throttles (R249, R251). -/
def capEval (u : Cap) (half : Bool) (e : CapEntry) : Cap :=
  let v := capWrite u
  if !v.armed then v
  else
    let v1 := { v with evals := v.evals + 1 }
    if v.evals % v.dec ≠ 0 then v1
    else if !half then { v1 with due := true, latch := e, half := false }
    else if v.half then { v1 with half := false }
    else { v1 with due := true, latch := { e with flags := e.flags + 16 }, half := true }

/-- Whether a unit records this point of this channel at this strobe (Table 8-7, Table 13-8). -/
def capTakes (u : Cap) (p : CapPoint) (st : CapStrobe) (c : Ch) : Bool :=
  u.armed && decide (u.point = p) && decide (u.ch = c.val)
    && (decide (p ≠ .voltage ∧ p ≠ .current) || decide (u.strobe = st))

/-- Offer a value of a channel's point to the capture units, in units of 2^(-23) (Table 8-8). A unit that a measurement of a
bridged pair holds records the load's voltage v_even − v_odd and the difference of the two halves' duty (R289, R302; DEDUCED, log entry 37). -/
def capPoint (d : Dev) (p : CapPoint) (st : CapStrobe) (c : Ch) (val : Int) (trip range : Bool) : Dev :=
  let x := d.chs[c]
  let entry (v : Int) : CapEntry :=
    let lim := clampI (-(2 ^ 23)) (2 ^ 23 - 1) v
    let fl := packBits [decide (lim ≠ v), loopMode x, trip, range] + 32 * (x.stat.region % 8)
    ⟨lim, fl, clampI (-(2 ^ 23)) (2 ^ 23 - 1) d.awl.inj[c], false⟩
  let odd := d.chs[oddOf c]
  let val' := fun (u : Cap) =>
    if !bridgedB d c || u.heldBy.isNone then val
    else if p = .voltage then val - odd.sense.v
    else if p = .duty then val - q23 odd.mod.duty
    else val
  let caps := tab d.awl.caps fun _ u => if capTakes u p st c then capEval u d.shank.throttle (entry (val' u)) else u
  { d with awl := { d.awl with caps := caps } }

end Sys2Proof.Machine
end

