-- ==== Sys2Proof/Machine/Flt.lean ====
section
/-!
DEFINITION. Block-floating arithmetic of the engine tiles (R203 to R208). A term is an exact mantissa with its exponent; a
sum is an accumulator of 46 fraction bits at its working exponent.
-/

namespace Sys2Proof.Machine

/-- Nearest integer to `a / b`, `b` > 0, ties away from zero (R205). -/
def roundAway (a b : Int) : Int := if 0 ≤ a then Int.fdiv (2 * a + b) (2 * b) else -(Int.fdiv (2 * (-a) + b) (2 * b))

/-- `m` shifted right by `k` and rounded, left where `k` is negative. -/
def shrRound (m k : Int) : Int := if k ≤ 0 then m * 2 ^ (-k).toNat else roundAway m (2 ^ k.toNat)

/-- A term: value `m` × 2^(`e` − `fb`), an exact mantissa with `fb` fraction bits at exponent `e`. -/
structure FTerm where
  m : Int
  fb : Nat
  e : Int
  deriving DecidableEq, Repr

/-- A sum: value `m` × 2^(`e` − 46), and whether it saturated (R206). -/
structure Acc where
  m : Int
  e : Int
  sat : Bool
  deriving DecidableEq, Repr

/-- The value of a lane slot as a term; F and I words are no numbers (R204). -/
def Slot.term : Slot → FTerm
  | .zero => ⟨0, 23, 31⟩
  | .s m e _ => ⟨m, 23, e⟩
  | .a m e _ => ⟨m, 46, e⟩
  | .c m e => ⟨m, 23, e⟩
  | .f _ => ⟨0, 23, 31⟩
  | .i _ => ⟨0, 23, 31⟩
  | .q v => ⟨v, 31, 0⟩

/-- Exponent a slot carries; a zero block's is +31 (R208). -/
def Slot.exp : Slot → Int
  | .s _ e _ => e
  | .a _ e _ => e
  | .c _ e => e
  | _ => 31

/-- Count or bits of an I or F word. -/
def Slot.num : Slot → Nat
  | .f b => b
  | .i n => n
  | _ => 0

/-- SATF of a slot. -/
def Slot.satf : Slot → Bool
  | .s _ _ b => b
  | .a _ _ b => b
  | _ => false

/-- A term negated. -/
def FTerm.neg (t : FTerm) : FTerm := { t with m := -t.m }

/-- The exact product of two terms, with the sum of their exponents (R205). -/
def FTerm.mul (x y : FTerm) : FTerm := ⟨x.m * y.m, x.fb + y.fb, x.e + y.e⟩

/-- An accumulator as a term. -/
def Acc.term (a : Acc) : FTerm := ⟨a.m, 46, a.e⟩

/-- `z` limited to `bits` bits of two's complement, and whether it was limited. -/
def satBits (b : Nat) (z : Int) : Int × Bool :=
  if z < -(2 ^ (b - 1)) then (-(2 ^ (b - 1)), true) else if 2 ^ (b - 1) - 1 < z then (2 ^ (b - 1) - 1, true) else (z, false)

/-- Largest exponent among the nonzero terms. -/
def maxExp : List FTerm → Option Int
  | [] => none
  | t :: ts =>
    match maxExp ts with
    | none => if t.m = 0 then none else some t.e
    | some x => some (if t.m = 0 then x else max t.e x)

/-- The sum of terms at their working exponent (R205, R206). -/
def fsum (ts : List FTerm) : Acc :=
  match maxExp ts with
  | none => ⟨0, 31, false⟩
  | some w =>
    let z := (ts.map fun t => shrRound t.m (w - t.e + t.fb - 46)).sum
    let (m, s) := satBits 56 z
    if 31 < w then
      let (m2, s2) := satBits 56 (m * 2 ^ (w - 31).toNat)
      ⟨m2, 31, s || s2⟩
    else if w < -32 then ⟨shrRound m (-32 - w), -32, s⟩
    else ⟨m, w, s⟩

/-- A slot as an accumulator: a word written from it is a new write, whose SATF tells of its own saturation (Table 7-2). (DEDUCED, log entry 21.) -/
def Slot.acc (x : Slot) : Acc := fsum [x.term]

/-- Bits of a magnitude. -/
def bitLen (n : Nat) : Nat := if n = 0 then 0 else n.log2 + 1

/-- Least exponent at which the value keeps two headroom bits, none for zero (R207). -/
def needExp (a : Acc) : Option Int := if a.m = 0 then none else some ((bitLen a.m.natAbs : Int) + a.e - 44)

/-- Least exponent for every word of a stage, `old` when every word is zero (R207). -/
def stageExp (ws : List Acc) (old : Int) : Int :=
  match ws.filterMap needExp with
  | [] => old
  | x :: xs => clampI (-32) 31 (xs.foldl max x)

/-- A value as an S word at exponent `e`. -/
def toS (a : Acc) (e : Int) : Slot :=
  let (m, s) := satBits 24 (shrRound a.m (e - a.e + 23))
  .s m e (s || a.sat)

/-- A value as an A word at exponent `e`. -/
def toA (a : Acc) (e : Int) : Slot :=
  let (m, s) := satBits 56 (shrRound a.m (e - a.e))
  .a m e (s || a.sat)

/-- An S word on its own at its least exponent. -/
def normS (a : Acc) (old : Int) : Slot := toS a (stageExp [a] old)

/-- Renormalise a stage whose words are S (`false`) or A (`true`) (R207). -/
def renorm (ws : List (Bool × Acc)) (old : Int) : List Slot :=
  let e := stageExp (ws.map (·.2)) old
  ws.map fun w => if w.1 then toA w.2 e else toS w.2 e

/-- A fraction `n / d` as a Q1.23 mantissa at exponent 0, rounded. -/
def q123 (n d : Int) : FTerm := ⟨(satBits 24 (roundAway (n * 2 ^ 23) d)).1, 23, 0⟩

/-- The least exponent from −32 to +31 at which `n / d` lies below 2^E: the C word of a positive ratio (R583). -/
def cWordFrom : Nat → Int → Int → Int → Slot
  | 0, e, n, d => .c (satBits 24 (if 0 ≤ e then roundAway (n * 2 ^ 23) (d * 2 ^ e.toNat) else roundAway (n * 2 ^ 23 * 2 ^ (-e).toNat) d)).1 e
  | f + 1, e, n, d =>
    let lt := if 0 ≤ e then n < d * 2 ^ e.toNat else n * 2 ^ (-e).toNat < d
    if lt then cWordFrom 0 e n d else cWordFrom f (e + 1) n d

/-- A positive ratio as a C word. -/
def cWord (n d : Int) : Slot := cWordFrom 63 (-32) n d

/-- KV of a feed-forward reference in mV (R583). -/
def kvWord (vref : Nat) : Slot := cWord 12000 vref

/-- A C word read from 64 bits (Table 7-2). -/
def cOf (w : Nat) : Slot := .c (signed 24 w) (signed 6 (bits w 24 6))

/-- The 64 bits of a lane slot (Table 7-2). -/
def Slot.word : Slot → Nat
  | .zero => 31 * 2 ^ 24
  | .s m e b => wrap 24 m + wrap 6 e * 2 ^ 24 + b2n b * 2 ^ 30
  | .a m e b => wrap 56 m + wrap 6 e * 2 ^ 56 + b2n b * 2 ^ 62
  | .c m e => wrap 24 m + wrap 6 e * 2 ^ 24
  | .f b => b
  | .i n => n % 2 ^ 32
  | .q v => wrap 32 v

/-- Value of a slot as a fraction: numerator and denominator. -/
def Slot.frac (x : Slot) : Int × Int :=
  let t := x.term
  let k := t.e - t.fb
  if 0 ≤ k then (t.m * 2 ^ k.toNat, 1) else (t.m, 2 ^ (-k).toNat)

/-- A rational number as an accumulator: at the least exponent that keeps two headroom bits, rounded once. -/
def ratAcc (n d : Int) : Acc :=
  if n = 0 then ⟨0, 31, false⟩
  else
    let e := clampI (-32) 31 ((bitLen (n.natAbs / d.natAbs) : Int) + 2)
    let k := if n.natAbs < d.natAbs then clampI (-32) 31 (2 - (bitLen (d.natAbs / n.natAbs) : Int) + 1) else e
    let (m, s) := satBits 56 (if k ≤ 46 then roundAway (n * 2 ^ (46 - k).toNat) d else 0)
    ⟨m, k, s⟩

/-- S word of Q1.23 at exponent 0 from a mantissa. -/
def s0 (m : Int) : Slot := .s m 0 false

end Sys2Proof.Machine
end

