-- ==== Sys2Proof/Machine/Load.lean ====
section
/-!
DEFINITION. Load records, identity and binding, and the result of a measurement (chapter 10, Tables 10-3 and 10-4).
-/

namespace Sys2Proof.Machine

/-- Opcode of MEASURE_LOAD. -/
def opMeasure : Nat := 0x26

/-- Identity of a channel: the CRC-32 of its LOAD_ID. -/
def identOf (c : Chan) : Nat := crc32 c.cfg.loadId

/-- Whether the tile of a channel is in remote sense (R148). -/
def remoteB (d : Dev) (c : Ch) : Bool := d.power[tileOf c].senseRemote

/-- IMAGE_ID of the image in force, 0 if none. -/
def imageId (d : Dev) : Nat := match d.core.image with | some i => i.id | none => 0

/-- Entry `i` of the fit: 0 RE, 1 LE, 2 FS, 3 QMS, 4 QES, 5 BL, 6 KMS, 7 RMS, 8 CF, 9 FIT_ERR. -/
def Meas.fitAt (m : Meas) (i : Nat) : Nat := m.fit.getD i 0

/-- Result offsets 4 to 71 of Table 10-4. -/
def measParams (c : Chan) (m : Meas) : List Byte :=
  le 4 m.rdc ++ le 4 m.idc ++ le 4 m.rcable ++ le 4 m.length ++ le 4 (m.fitAt 0) ++ le 4 (m.fitAt 1) ++ le 4 (m.fitAt 2)
    ++ le 4 (m.fitAt 3) ++ le 4 (m.fitAt 4) ++ le 4 (m.fitAt 5) ++ le 4 (m.fitAt 6) ++ le 4 (m.fitAt 7) ++ le 4 c.cfg.mms
    ++ le 4 m.lf ++ le 4 (m.fitAt 8) ++ le 4 m.fres ++ le 2 m.notchDev ++ le 2 (m.fitAt 9)

/-- T0 of a record: T_c when MEASURED, else T_AMB (Table 10-3). -/
def coilT0 (c : Chan) : Nat := if c.stat.measured then wrap 16 ((c.stat.tc : Int) - 500) else wrap 16 c.cfg.tAmb

/-- The load record of a measurement (Table 10-3). -/
def measRecord (d : Dev) (c : Ch) (m : Meas) : List Byte :=
  let x := d.chs[c]
  let fl := packBits [true, m.mechValid, x.cfg.bridged, remoteB d c, m.cableValid, false]
  let body := le 4 (identOf x) ++ fit 16 x.cfg.loadId ++ le 1 c.val ++ le 1 fl ++ le 2 (coilT0 x) ++ le 8 m.stc
    ++ le 4 (imageId d) ++ measParams x m ++ le 2 x.cfg.alpha ++ zeros 146
  body ++ le 4 (crc32 body)

/-- A sweep point of the result: FREQ, FLAGS, Z_RE, Z_IM. -/
def pointBytes (p : SweepPoint) : List Byte :=
  le 3 p.freq ++ le 1 (packBits [p.valid, p.throttled, p.tripped]) ++ le 4 (wrap 32 p.zRe) ++ le 4 (wrap 32 p.zIm)

/-- The 1,152 bytes of a measurement's result (R309). -/
def measResult (d : Dev) (c : Ch) (m : Meas) : List Byte :=
  let x := d.chs[c]
  let fl := packBits [remoteB d c, x.cfg.bridged, m.points.any (·.throttled), m.fitPoor, m.mismatch, m.stored, m.cableValid,
    m.mechValid]
  let summary := le 1 c.val ++ le 1 m.done ++ le 1 m.cls ++ le 1 fl ++ measParams x m
    ++ le 2 (m.points.filter (·.valid)).length ++ zeros 2 ++ le 4 (identOf x) ++ le 8 m.stc
  fit 128 summary ++ fit 768 (m.points.flatMap pointBytes) ++ measRecord d c m

/-- Free the generator, tap and capture units that a measurement of `c` holds (R287). -/
def freeUnits (d : Dev) (c : Ch) (m : Meas) : Dev :=
  match m.units with
  | [] => d
  | g :: rest =>
    let a := d.awl
    { d with awl := { a with
      gens := updN a.gens g fun _ => Gen.reset
      taps := updN a.taps (rest.headD 16) fun _ => none
      caps := tab a.caps fun _ u => if u.heldBy = some c.val then Cap.reset else u } }

/-- Write the result and complete a measurement (R309, R310, Table 13-9). -/
def measComplete (d : Dev) (c : Ch) (m : Meas) (status : Nat) : Dev :=
  let d1 := hostWrite d m.ref (measResult d c m)
  let d2 := complete d1 m.ref opMeasure status (m.done + 256 * m.cls) 0
  (freeUnits d2 c m).ch c fun x => { x with meas := none }

/-- Stop a measurement at once: both switches off, results of the completed steps delivered (R310). -/
def measStop (d : Dev) (c : Ch) (status : Nat) : Dev :=
  let l := lead d c
  match d.chs[l].meas with
  | none => d
  | some m =>
    measComplete (forCh (halves d l) (fun e h => e.ch h fun x => if x.prot.drive = .measure then chanOff x else x) d) l m status

/-- End a measurement as for ABORT: half duty for 16 periods where it switches, otherwise at once (R310). -/
def measAbort (d : Dev) (c : Ch) (status : Nat) : Dev :=
  let l := lead d c
  match d.chs[l].meas with
  | none => d
  | some m =>
    if d.chs[l].prot.drive = .measure ∧ m.step = 7 then
      d.ch l fun x => { x with meas := some { m with status := if m.status = stSuccess then status else m.status } }
    else if d.chs[l].prot.drive = .measure then
      let d1 := forCh (halves d l) (fun e h => e.ch h fun x => { x with prot := { x.prot with ssCount := 0, sweep := false } }) d
      d1.ch l fun x => { x with meas := some { m with step := 7, status := status } }
    else measStop d c status

/-- A measurement that SAFE#, PRSNT_EARLY or a TRIP pin meets: it completes NOT_READY with the results so far, and what it switches
runs the safe stop of R164 (R288, R310). (DEDUCED, log entry 36.) -/
def measOutside (d : Dev) (c : Ch) : Dev :=
  let l := lead d c
  match d.chs[l].meas with
  | none => d
  | some m =>
    measComplete (forCh (halves d l) (fun e h => e.ch h fun x =>
      if x.prot.drive = .measure then { x with prot := { x.prot with ssPend := true } } else x) d) l m stNotReady

/-! ### Records and binding -/

/-- Fields of a stored record. -/
def recIdent (r : List Byte) : Nat := leAt r 0 4
def recFlags (r : List Byte) : Nat := leAt r 21 1
def recParam (r : List Byte) (o : Nat) : Nat := leAt r (36 + o) 4

/-- The slot of the valid record with an identity, MISMATCH set or not. -/
def findRecord (d : Dev) (id : Nat) : Option (Nat × List Byte) :=
  d.admin.records.find? fun (_, r) => decide (recIdent r = id) && bit (recFlags r) 0

/-- The slots some channel is bound to. -/
def boundSlots (d : Dev) : List Nat := d.chs.toList.filterMap (·.bound)

/-- Bring the list of unbound slots up to date, longest unbound first. -/
def trackUnbound (d : Dev) : Dev :=
  let used := boundSlots d
  let keep := d.admin.recFree.filter fun s => !used.contains s && (Mem.find d.admin.records s).isSome
  let fresh := (d.admin.records.map (·.1)).filter fun s => !used.contains s && !keep.contains s
  { d with admin := { d.admin with recFree := keep ++ fresh } }

end Sys2Proof.Machine
end

