-- ==== Sys2Proof/Machine/Engine.lean ====
section
/-!
DEFINITION. The stitches of an engine tile's inner loops, one lane at a time (chapter 7, Table 7-3), with regions and
tables (chapter 8).
-/

namespace Sys2Proof.Machine

/-! ### Lanes -/

/-- Lane slot `i` of a block. -/
def Block.lane (b : Block) (i : Nat) : Slot :=
  match i with
  | 0 => b.l0
  | 1 => b.l1
  | 2 => b.l2
  | _ => b.l3

/-- Replace lane slot `i`. -/
def Block.setLane (b : Block) (i : Nat) (x : Slot) : Block :=
  match i with
  | 0 => { b with l0 := x }
  | 1 => { b with l1 := x }
  | 2 => { b with l2 := x }
  | _ => { b with l3 := x }

/-- The slot of lane `i` at block address `a`. -/
def TileState.rd (t : TileState) (a i : Nat) : Slot := (Mem.get t.data Block.zero a).lane i

/-- Write a slot. -/
def TileState.wr (t : TileState) (a i : Nat) (x : Slot) : TileState :=
  { t with data := Mem.set t.data Block.zero a ((Mem.get t.data Block.zero a).setLane i x) }

/-- Write slots at successive block addresses. -/
def TileState.wrs (t : TileState) (a i : Nat) : List Slot → TileState
  | [] => t
  | x :: xs => (t.wr a i x).wrs (a + 1) i xs

/-- Put a slot into the shadow of a block, current at the next Fi boundary (R210, R230). -/
def TileState.shade (t : TileState) (a i : Nat) (x : Slot) : TileState :=
  let old := (t.shadow.lookup a).getD (Mem.get t.data Block.zero a)
  { t with shadow := (a, old.setLane i x) :: t.shadow.filter fun p => decide (p.1 ≠ a) }

/-- Replace one logical tile. -/
def Dev.tile (d : Dev) (t : LTile) (f : TileState → TileState) : Dev := { d with core := { d.core with tiles := upd d.core.tiles t f } }

/-- Channel of lane `i` of group `g` of engine tile `t`, if it is one. -/
def laneCh (t : LTile) (g i : Nat) : Ch := Fin.ofNat 128 (etCh t.val g i)

/-- Value of a slot at E = 0 in units of 2^(-23), rounded. -/
def Slot.mant (x : Slot) : Int := shrRound x.term.m (x.term.fb - x.term.e - 23)

/-! ### INTERP (R211 to R214) -/

/-- Bits of a ramp-state word. -/
def rampK (w : Nat) : Nat := w % 65536
def rampInit (w : Nat) : Bool := bit w 31

/-- A ramp-state word. -/
def rampWord (k : Nat) (init : Bool) : Slot := .i (k % 65536 + b2n init * 2 ^ 31)

/-- What an INTERP of a lane needs to know: Fc period `m` of `n`, RELEASE_RAMP `k`, whether the tile's Fi work is late
(R89), whether the outer result is negated (R212), the lane it is read from and whether a measurement takes it as 0 (R288). -/
structure InterpCtx where
  m : Nat
  n : Nat
  ramp : Nat
  late : Bool
  neg : Bool
  src : Nat
  meas : Bool

/-- An outer result with the sign of R212, 0 during a measurement. -/
def InterpCtx.sign (x : InterpCtx) (t : FTerm) : FTerm := if x.meas then ⟨0, 23, 31⟩ else if x.neg then t.neg else t

/-- The end value of step `k` of a ramp from `v0` to `c` (R211). k/K and 1 − k/K are each rounded to a Q1.23 factor of their own. (DEDUCED, log entry 70.) -/
def rampEnd (k ramp : Nat) (v0 c : FTerm) : Acc :=
  if k < ramp then fsum [(q123 ((ramp : Int) - k) ramp).mul v0, (q123 k ramp).mul c] else fsum [c]

/-- The value between two end values in Fc period `m` of `n` (R213). -/
def interpAt (m n : Nat) (s0 s1 : Acc) : Acc :=
  if m + 1 = n then s1
  else
    let d := normS (fsum [s1.term, s0.term.neg]) 31
    fsum [s0.term, (q123 (m + 1) n).mul d.term]

/-- INTERP with VAR bit 0 = 0: set-point and error. -/
def interpSet (t : TileState) (s : Stitch) (i : Nat) (x : InterpCtx) : TileState :=
  let r (j : Nat) : Slot := t.rd (s.dst + j) i
  let sense := t.rd s.srcB i
  let flags := (t.rd (s.srcB + 1) i).num
  let w := (r 6).num
  let c := x.sign (t.rd s.srcA x.src).term
  let sv := sense.acc
  let (sp0, sp1, v0, k, init) : Acc × Acc × Acc × Nat × Bool :=
    if !rampInit w then
      (if bit flags 6 then (sv, sv, sv, 0, true) else ((r 2).acc, (r 3).acc, (r 5).acc, rampK w, false))
    else if x.m = 0 then
      let k := min (rampK w + 1) x.ramp
      ((r 3).acc, if x.late then (r 3).acc else rampEnd k x.ramp (r 5).term c, (r 5).acc, k, true)
    else ((r 2).acc, (r 3).acc, (r 5).acc, rampK w, true)
  let rv := interpAt x.m x.n sp0 sp1
  let e := fsum [rv.term, sense.term.neg]
  match renorm [(false, e), (false, rv), (false, sp0), (false, sp1), (false, v0)] (r 0).exp with
  | [we, wr, w2, w3, w5] => t.wrs s.dst i [we, wr, w2, w3, .f flags, w5, rampWord k init]
  | _ => t

/-- INTERP with VAR bit 0 = 1: the commanded acceleration; its own copy of the ramp word says whether it has taken k
and INIT before (R214). -/
def interpAcc (t : TileState) (s : Stitch) (i : Nat) (x : InterpCtx) : TileState :=
  let r (j : Nat) : Slot := t.rd (s.dst + j) i
  let src := (t.rd (s.srcB + 6) i).num
  if !rampInit src then t
  else
    let zero : Acc := ⟨0, 31, false⟩
    let (a0, a1) : Acc × Acc :=
      if !rampInit (r 6).num then (zero, zero)
      else if x.m = 0 then
        ((r 3).acc, if x.late then (r 3).acc else rampEnd (rampK src) x.ramp zero.term (x.sign (t.rd (s.srcA + 1) x.src).term))
      else ((r 2).acc, (r 3).acc)
    match renorm [(false, interpAt x.m x.n a0 a1), (false, a0), (false, a1)] (r 0).exp with
    | [w0, w2, w3] => ((t.wr s.dst i w0).wrs (s.dst + 2) i [w2, w3]).wr (s.dst + 6) i (.i src)
    | _ => t

/-! ### PI, BIQUAD, products, SAT (Table 7-3) -/

/-- TRIP or RANGE in a flag word (Table 7-4). -/
def stepWithheld (flags : Nat) : Bool := bit flags 5 || bit flags 3

/-- PI: the tile after it, and whether the step was withheld. -/
def piStep (t : TileState) (s : Stitch) (i : Nat) : TileState × Bool :=
  let e := (t.rd s.srcA i).term
  let fz := stepWithheld (t.rd (s.srcA + 4) i).num
  let x0 := (t.rd (s.dst + 1) i).acc
  let x := if fz then x0 else fsum [x0.term, ((t.rd (s.srcB + 1) i).term).mul e]
  let u := fsum [((t.rd s.srcB i).term).mul e, x.term]
  match renorm [(false, u), (true, x), (true, x0)] (t.rd s.dst i).exp with
  | [wu, wx, wx0] => (t.wrs s.dst i [wu, wx, wx0, .f (b2n fz)], fz)
  | _ => (t, fz)

/-- BIQUAD in transposed direct form II with y rounded as R584 says. -/
def biquadStep (t : TileState) (s : Stitch) (i : Nat) : TileState :=
  let x := (t.rd s.srcA i).term
  let c (j : Nat) : FTerm := (t.rd (s.srcB + j) i).term
  let z1 := (t.rd (s.dst + 1) i).term
  let z2 := (t.rd (s.dst + 2) i).term
  let old := (t.rd s.dst i).exp
  let y := normS (fsum [(c 0).mul x, z1]) old
  let n1 := fsum [(c 1).mul x, ((c 3).mul y.term).neg, z2]
  let n2 := fsum [(c 2).mul x, ((c 4).mul y.term).neg]
  match renorm [(false, y.acc), (true, n1), (true, n2)] old with
  | [wy, w1, w2] => t.wrs s.dst i [wy, w1, w2]
  | _ => t

/-- An accumulator as an A word at its working exponent. -/
def Acc.word (a : Acc) : Slot := .a a.m a.e a.sat

/-- MUL; with VAR bit 0 the second factor is KV (R583). -/
def mulStep (t : TileState) (s : Stitch) (i : Nat) (kv : Slot) : TileState :=
  let b := if s.v 0 then kv else t.rd s.srcB i
  t.wr s.dst i (fsum [(t.rd s.srcA i).term.mul b.term]).word

/-- MAC; with VAR bit 0 the product is also multiplied by KV. -/
def macStep (t : TileState) (s : Stitch) (i : Nat) (kv : Slot) : TileState :=
  let p := (t.rd s.srcA i).term.mul (t.rd s.srcB i).term
  t.wr s.dst i (fsum [(t.rd s.dst i).term, if s.v 0 then p.mul kv.term else p]).word

/-- ADD; VAR bit 0 subtracts. The sum is held as an accumulator word (DEDUCED: log entry 21). -/
def addStep (t : TileState) (s : Stitch) (i : Nat) : TileState :=
  let b := (t.rd s.srcB i).term
  t.wr s.dst i (fsum [(t.rd s.srcA i).term, if s.v 0 then b.neg else b]).word

/-- Number words of a stage: those that take part in exponents (R204). -/
def Slot.isNum : Slot → Bool
  | .s _ _ _ => true
  | .a _ _ _ => true
  | _ => false

/-- NORM: every number word of the stage becomes an S word at the stage's least exponent. The stage runs from DST to the
end of its block record. -/
def normStep (t : TileState) (bl : List BlockRec) (s : Stitch) (i : Nat) : TileState :=
  match findBlk bl s.dst with
  | none => t
  | some b =>
    let as := (List.range (b.base + b.size - s.dst)).map (s.dst + ·)
    let ns := as.filter fun a => (t.rd a i).isNum
    let ws := renorm (ns.map fun a => (false, (t.rd a i).acc)) (t.rd s.dst i).exp
    (ns.zip ws).foldl (fun u p => u.wr p.1 i p.2) t

/-- The usable range of SAT with VAR bit 0, in units of 2^(-23): 0.5 − (D + 16) / 4,096 (R115). -/
def usable (dead : Nat) : Int := (2032 - (dead : Int)) * 2 ^ 11

/-- Whether the value of `x` lies below that of `y`. -/
def slotLt (x y : Slot) : Bool :=
  let a := x.frac
  let b := y.frac
  decide (a.1 * b.2 < b.1 * a.2)

/-- SAT: the tile after it and whether the lane was clamped. -/
def satStep (t : TileState) (s : Stitch) (i : Nat) (dead : Nat) : TileState × Bool :=
  let w := t.rd s.dst i
  let lo := if s.v 0 then s0 (-(usable dead)) else t.rd s.srcA i
  let hi := if s.v 0 then s0 (usable dead) else t.rd (s.srcA + 1) i
  let asS (x : Slot) : Slot := match x with | .c m e => .s m e false | y => y
  let (v, cl) : Slot × Bool := if slotLt w lo then (asS lo, true) else if slotLt hi w then (asS hi, true) else (w, false)
  let t1 := t.wr s.dst i v
  if cl && s.v 1 then
    ((t1.wr (s.srcB + 1) i (t1.rd (s.srcB + 2) i)).wr (s.srcB + 3) i (.f 3), true)
  else (t1, cl)

/-- The duty word of a lane in loop mode (DUTY). -/
def dutyWord (x : Slot) : Q23 := BitVec.ofInt 24 (clampI 0 0x7FFFFF ((satBits 24 x.mant).1 + 0x400000))

/-! ### REGION and TABLE (R225 to R230) -/

/-- Value of a condition variable as a fraction in its codes (Table 8-2): 1 envelope, 2 rail, 3 coil temperature. -/
def condValue (env tc : Slot) (rail : Nat) (sel : Nat) : Int × Int :=
  match sel with
  | 1 => let f := env.frac; (f.1 * 4096, f.2)
  | 2 => (rail, 1)
  | _ => let f := tc.frac; (f.1 * 5120 + 500 * f.2, f.2)

/-- One condition: whether it holds. -/
def condHold (v : Int × Int) (below : Bool) (thr hys : Nat) (latched : Bool) : Bool :=
  let gt (t : Int) : Bool := decide (t * v.2 < v.1)
  let lt (t : Int) : Bool := decide (v.1 < t * v.2)
  if below then lt thr || (latched && lt ((thr : Int) + hys)) else gt thr || (latched && gt ((thr : Int) - hys))

/-- One condition of a word: hold and the new latch. -/
def condEval (w o t : Nat) (val : Nat → Int × Int) (latched : Bool) : Bool × Bool :=
  let sel := bits w o 2
  if sel = 0 then (true, latched)
  else
    let h := condHold (val sel) (bit w (o + 2)) (bits w t 12) (bits w (t + 12) 12) latched
    (h, h)

/-- REGION of one lane (R227, R228) with its condition words and ρ from SRCB: the tile and the ok bits of regions 1 to 7. -/
def regionStep (t : TileState) (s : Stitch) (i : Nat) (rail : Nat) : TileState × Nat :=
  let st := (t.rd s.dst i).num
  let sig := t.rd s.srcA i
  let tc := t.rd (s.srcA + 1) i
  let old := t.rd (s.dst + 1) i
  let dec := fsum [(t.rd (s.srcB + 7) i).term.mul old.term]
  let mag : Acc := let a := sig.acc; { a with m := (a.m.natAbs : Int) }
  let env := normS (if slotLt mag.word dec.word then dec else mag) old.exp
  let val := condValue env tc rail
  let res := (List.range 7).map fun q =>
    let w := (t.rd (s.srcB + q) i).num
    let (a, la) := condEval w 0 8 val (bit st (4 + q))
    let (b, lb) := condEval w 4 32 val (bit st (11 + q))
    (bit w 7 && a && b, la, lb)
  let ok := packBits (res.map (·.1))
  let reg := if ok = 0 then 0 else ok.log2 + 1
  let prev := bits st 0 3
  let w := reg + 8 * b2n (decide (reg ≠ prev)) + 16 * packBits (res.map (·.2.1)) + 2048 * packBits (res.map (·.2.2)) + 2 ^ 18 * prev
  ((t.wr s.dst i (.i w)).wr (s.dst + 1) i env, ok)

/-- Put the condition words and ρ of one lane into the SRCB stage of a REGION stitch (R227, R236). -/
def putCondStage (t : TileState) (s : Stitch) (i : Nat) (conds : List W64) (rho : W64) : TileState :=
  t.wrs s.srcB i ((List.range 7).map (fun q => Slot.f (conds.getD q 0).toNat) ++ [cOf rho.toNat])

/-- Whether the block of address `a` is read by the tile's Fc sequence (R210). -/
def fcReads (i : Image) (t : Nat) (a : Nat) : Bool :=
  match findBlk (i.blk t) a with
  | none => false
  | some b => (i.fc t).any fun s => s.data.any fun x => decide (b.base ≤ x ∧ x < b.base + b.size)

/-- TABLE of one lane (R210, R230). -/
def tableStep (img : Image) (tn : Nat) (t : TileState) (s : Stitch) (i : Nat) : TileState :=
  if s.v 0 then t.shade s.dst i (t.rd (s.srcA + bits (t.rd s.srcB i).num 0 3) i)
  else
    let x := t.rd s.srcA i
    if fcReads img tn s.dst then t.shade s.dst i x else t.wr s.dst i x

/-! ### The part's side of a lane -/

/-- RELEASE_RAMP of a channel's group. -/
def rampOf (d : Dev) (c : Ch) : Nat := match d.chs[c].cfg.relGroup with | some g => look d.rampLen g 960 | none => 960

/-- Whether INTERP negates a channel's outer result (R212). (DEDUCED, log entry 25.) -/
def negates (d : Dev) (c : Ch) : Bool := decide (c.val % 2 = 1) && (bridgedB d c || d.chs[c].cfg.polarityPair)

/-- The context of a lane's INTERP. -/
def interpCtx (d : Dev) (t : LTile) (c : Ch) (i m : Nat) : InterpCtx :=
  { m := m, n := d.tb.n, ramp := rampOf d c, late := d.core.tiles[t].lateFi, neg := negates d c
    src := if bridgedB d c then i / 2 * 2 else i
    meas := decide (d.chs[c].prot.drive = .measure) }

/-- Whether a channel had LOOP at its group's last SENSE. -/
def loopAt (t : TileState) (c : Ch) : Bool := t.groupLoop.getD (c.val % 8) false

/-- Update the loop status of a channel. -/
def Dev.stat (d : Dev) (c : Ch) (f : LoopStat → LoopStat) : Dev := d.ch c fun x => { x with stat := f x.stat }

/-- Sum of a node's injections on a channel, in units of 2^(-43) of full scale (R245, R248). -/
def injectAt (d : Dev) (c : Ch) (node : TapNode) : Int :=
  (d.awl.taps.toList.map fun p =>
    match p with
    | some x => if x.ch = c.val ∧ x.node = node then (look d.awl.gens x.gen .reset).value * x.gain else 0
    | none => 0).sum

/-- SENSE of a lane: sample, flags with LOOP, and the capture of nothing else (Table 7-3). (DEDUCED, log entry 25.) -/
def senseLane (d : Dev) (t : LTile) (s : Stitch) (c : Ch) (i m : Nat) : Dev :=
  let x := d.chs[c]
  let lp := loopMode x
  let d1 := d.tile t fun u =>
    let v := (u.wr s.dst i (s0 (if s.v 0 then x.sense.i else x.sense.v))).wr (s.dst + 1) i
      (.f (x.mod.sampleFlags.num + 64 * b2n lp))
    { v with groupLoop := v.groupLoop.set (c.val % 8) lp
             fiLoop := if m = 0 then v.fiLoop.set (c.val % 8) (lp && !x.prot.sweep) else v.fiLoop }
  d1.stat c fun y => { y with frozen := false, clamped := false, satRun := false }

/-- Whether a channel's tile has an AWL stitch for its inner nodes (R245, R246). -/
def innerAwl (img : Image) (c : Ch) : Bool :=
  (img.fc (c.val / 8)).any fun s => decide (s.type = tyAwl ∧ s.srcB = 1 ∧ grpOf s.dst = c.val % 8 / 4) && s.lane (c.val % 4)

/-- INJ of the evaluation that begins: what its AWL stitch adds at the channel's inner nodes, 0 where it adds nothing (R247, R249). -/
def injNow (d : Dev) (c : Ch) : Int :=
  if d.core.image.any (innerAwl · c) && loopMode d.chs[c] then roundAway (injectAt d c .setpoint + injectAt d c .error) (2 ^ 20) else 0

/-- An inner AWL stitch of a lane (R245 to R247, Table 8-7). -/
def awlLane (d : Dev) (t : LTile) (s : Stitch) (c : Ch) (i : Nat) : Dev :=
  let u := d.core.tiles[t]
  let lp := loopAt u c
  let sp := if lp then injectAt d c .setpoint else 0
  let er := if lp then injectAt d c .error else 0
  let term (v : Int) : FTerm := ⟨v, 43, 0⟩
  let r := fsum [(u.rd (s.dst + 1) i).term, term sp]
  let e1 := fsum [(u.rd s.dst i).term, term sp]
  let e2 := fsum [e1.term, term er]
  let fl := (u.rd (s.dst + 4) i).num
  let d2 := capPoint (capPoint d .setpoint .carrier c r.word.mant (bit fl 5) (bit fl 3)) .error .carrier c e1.word.mant
    (bit fl 5) (bit fl 3)
  if sp = 0 ∧ er = 0 then d2
  else d2.tile t fun v =>
    let ws := [2, 3, 5].map fun j => (false, (v.rd (s.dst + j) i).acc)
    match renorm ((false, e2) :: (false, r) :: ws) (v.rd s.dst i).exp with
    | [we, wr, w2, w3, w5] => (v.wrs s.dst i [we, wr, w2, w3]).wr (s.dst + 5) i w5
    | _ => v

/-- The words a loop stitch writes, counted from its DST (Table 7-3). -/
def wordsOf (bl : List BlockRec) (s : Stitch) : List Nat :=
  if s.type = tyInterp then [0, 1, 2, 3, 5]
  else if s.type = tyPi ∨ s.type = tyBiquad then [0, 1, 2]
  else if s.type = tyMul ∨ s.type = tyMac ∨ s.type = tyAdd ∨ s.type = tySat then [0]
  else if s.type = tyAwl then [0, 1, 2, 3, 5]
  else if s.type = tyNorm then (match findBlk bl s.dst with | some b => List.range (b.base + b.size - s.dst) | none => [])
  else []

/-- Note a word of a channel's inner loop that saturated as a stitch of the evaluation wrote it (R224). -/
def noteSat (img : Image) (t : LTile) (s : Stitch) (i : Nat) (d : Dev) : Dev :=
  let bl := img.blk t.val
  let inner := match findBlk bl s.dst with | some b => b.inner && decide (b.kind = 0) | none => false
  if inner && (wordsOf bl s).any fun j => (d.core.tiles[t].rd (s.dst + j) i).satf then
    d.stat (laneCh t (grpOf s.dst) i) fun y => { y with satRun := true }
  else d

/-- One lane of an inner-loop stitch of an engine tile. -/
def innerLane (d : Dev) (img : Image) (t : LTile) (s : Stitch) (m : Nat) (i : Nat) : Dev :=
  let g := if s.type = tySense ∨ s.type = tyGrant then s.srcA else if s.type = tyDuty then s.dst else grpOf s.dst
  let c := laneCh t g i
  let x := d.chs[c]
  let kv := x.kv
  let on (f : TileState → TileState) : Dev := d.tile t f
  if s.type = tySense then senseLane d t s c i m
  else if s.type = tyInterp then
    if s.v 0 then on fun u => interpAcc u s i (interpCtx d t c i m)
    else
      let d1 := on fun u => interpSet u s i (interpCtx d t c i m)
      let w := (d1.core.tiles[t].rd (s.dst + 6) i).num
      d1.stat c fun y => { y with
        held := if m = 0 then d.core.tiles[t].lateFi && rampInit w else y.held
        ramp := rampInit w && decide (rampK w < rampOf d c) }
  else if s.type = tyPi then
    let (u, fz) := piStep d.core.tiles[t] s i
    (on fun _ => u).stat c fun y => { y with frozen := fz }
  else if s.type = tyBiquad then on fun u => biquadStep u s i
  else if s.type = tyMul then on fun u => mulStep u s i kv
  else if s.type = tyMac then on fun u => macStep u s i kv
  else if s.type = tyAdd then on fun u => addStep u s i
  else if s.type = tyNorm then on fun u => normStep u (img.blk t.val) s i
  else if s.type = tySat then
    let (u, cl) := satStep d.core.tiles[t] s i x.cfg.deadTime
    (on fun _ => u).stat c fun y => { y with clamped := y.clamped || cl, frozen := y.frozen || (cl && s.v 1) }
  else if s.type = tyDuty then
    let u := d.core.tiles[t]
    let w := if loopAt u c then dutyWord (u.rd s.srcA i) else halfDuty
    d.ch c fun y => { y with mod := { y.mod with handoff := y.mod.handoff ++ [w] } }
  else if s.type = tyRegion then
    let (u, ok) := regionStep d.core.tiles[t] s i d.power[tileOf c].fiMinLast
    (on fun _ => u).stat c fun y => { y with condRun := ok }
  else if s.type = tyTable then on fun u => tableStep img t.val u s i
  else if s.type = tyAwl then awlLane d t s c i
  else d

/-! ### The end of an Fc sequence (R217, R218, R224) -/

/-- Zero under R208 every INNER block of the lanes whose channel `keep` leaves out. -/
def zeroInnerBut (keep : Ch → Bool) (t : TileState) (tn : LTile) (bl : List BlockRec) : TileState :=
  (bl.filter fun b => b.inner && decide (b.kind = 0)).foldl (fun u b =>
    ((List.range b.size).map (b.base + ·)).foldl (fun v a =>
      [0, 1, 2, 3].foldl (fun w i => if keep (laneCh tn (grpOf a) i) then w else w.wr a i .zero) v) u) t

/-- Zero under R208 every INNER block of the lanes whose channel had LOOP = 0 (R218). -/
def zeroInner (t : TileState) (tn : LTile) (bl : List BlockRec) : TileState := zeroInnerBut (loopAt t) t tn bl

/-- The loop status after an evaluation. -/
def fcStatus (d : Dev) (t : LTile) : Dev :=
  let u := d.core.tiles[t]
  (List.range 8).foldl (fun e j =>
    let c := laneCh t (j / 4) (j % 4)
    let lp := loopAt u c
    e.stat c fun y =>
      if lp then { y with satf := y.satRun, freezes := if y.frozen then satN 0xFFFF (y.freezes + 1) else y.freezes }
      else { y with frozen := false, clamped := false, held := false, ramp := false, satf := false }) d

/-- The state copy in the spares takes the INNER blocks (`inner`), or every other state block (R503). -/
def copyState (img : Image) (tn : Nat) (inner : Bool) (t : TileState) : TileState :=
  let ds := ((img.all tn).filter Stitch.writes).map (·.dst)
  let bl := (img.blk tn).filter fun b => decide (b.kind = 0) && (b.inner == inner) &&
    ds.any fun a => decide (b.base ≤ a ∧ a < b.base + b.size)
  let as := bl.flatMap fun b => (List.range b.size).map (b.base + ·)
  { t with copy := as.foldl (fun m a => Mem.set m Block.zero a (Mem.get t.data Block.zero a)) t.copy }

end Sys2Proof.Machine
end

