-- ==== Sys2Proof/Machine/Binding.lean ====
section
/-!
DEFINITION. What a load record and the image's parameters put into a channel's outer-loop stages (chapters 9 and 10:
Table 9-3, R276, R277, R305, R306), as rational values, each rounded once at its stage's exponent.
-/

namespace Sys2Proof.Machine

/-! ### Rational values and words -/

/-- Value of a slot. -/
def Slot.rat (x : Slot) : Rat := let f := x.frac; (f.1 : Rat) / (f.2 : Rat)

/-- `2` to an integer power. -/
def pow2 (k : Int) : Rat := if 0 ≤ k then (2 : Rat) ^ k.toNat else 1 / (2 : Rat) ^ (-k).toNat

/-- Nearest integer, ties away from zero. -/
def ratRound (r : Rat) : Int := roundAway r.num r.den

/-- Magnitude. -/
def ratAbs (r : Rat) : Rat := if r < 0 then -r else r

/-- Smaller of two. -/
def ratMin (a b : Rat) : Rat := if a ≤ b then a else b

/-- Larger of two. -/
def ratMax (a b : Rat) : Rat := if a ≤ b then b else a

/-- `r` limited to `lo` … `hi`. -/
def ratClamp (lo hi r : Rat) : Rat := ratMax lo (ratMin hi r)

/-- Least exponent from −32 to +31 at which |r| < 2^(E−2), +31 where there is none (R207). -/
def ratExp (r : Rat) : Int :=
  match (List.range 64).find? fun (k : Nat) => decide (ratAbs r < pow2 ((k : Int) - 34)) with
  | some k => (k : Int) - 32
  | none => 31

/-- A value as an S word on its own: as it waits for its stage, which it joins at the stage's exponent (DESIGN CHOICE: log entry 22). -/
def ratS (r : Rat) : Slot :=
  let e := if r = 0 then 31 else ratExp r
  let (m, s) := satBits 24 (ratRound (r * pow2 (23 - e)))
  .s m e s


/-! ### Stages (R204) -/

/-- The exponent of a stage whose words are S (`false`) or A (`true`): the least one at which every S word keeps two headroom bits and
every A word lies in its range, `old` when every word is zero (R204, R207). (DESIGN CHOICE, log entry 22.) -/
def ratStageExp (ws : List (Bool × Rat)) (old : Int) : Int :=
  if ws.all fun w => decide (w.2 = 0) then old
  else match (List.range 64).find? fun (k : Nat) => ws.all fun w => decide (ratAbs w.2 < pow2 ((k : Int) - 32 + if w.1 then 9 else -2)) with
    | some k => (k : Int) - 32
    | none => 31

/-- A value as a word of a stage at exponent `e`. -/
def ratWord (e : Int) (w : Bool × Rat) : Slot :=
  if w.1 then let (m, s) := satBits 56 (ratRound (w.2 * pow2 (46 - e))); .a m e s
  else let (m, s) := satBits 24 (ratRound (w.2 * pow2 (23 - e))); .s m e s

/-- The words of a stage at their common exponent. -/
def ratStage (ws : List (Bool × Rat)) (old : Int) : List Slot := ws.map (ratWord (ratStageExp ws old))

/-- An S or A word as a value of its stage. -/
def Slot.stageWord : Slot → Option (Bool × Rat)
  | .s m e _ => some (false, (Slot.s m e false).rat)
  | .a m e _ => some (true, (Slot.a m e false).rat)
  | _ => none

/-- Bring the S and A words of a stage of one lane, `n` words from `a`, to their common exponent (R204). A word whose exponent it is
already stays as it is. -/
def TileState.restage (t : TileState) (a n l : Nat) : TileState :=
  let as := (List.range n).map (a + ·)
  let e := ratStageExp (as.filterMap fun j => (t.rd j l).stageWord) 31
  as.foldl (fun u j =>
    let x := u.rd j l
    match x.stageWord with
    | some w => if x.exp = e then u else u.wr j l (ratWord e w)
    | none => u) t

/-- A value as a C word at the least exponent that holds it: the words of the model and thermal stages are no coefficient block, whose
words share an exponent (R204, R235). (DESIGN CHOICE, log entry 22.) -/
def ratC (r : Rat) : Slot :=
  let e := match (List.range 64).find? fun (k : Nat) => decide (ratAbs r < pow2 ((k : Int) - 32)) with
    | some k => (k : Int) - 32
    | none => 31
  .c (satBits 24 (ratRound (r * pow2 (23 - e)))).1 e

/-! ### The model of a channel -/

/-- The load record bound to a channel, as its last release found it. -/
def boundRec (d : Dev) (c : Ch) : Option (List Byte) :=
  if d.chs[c].bound.isSome then some d.chs[c].loadRec else none

/-- Whether a channel has no bound record (R276). -/
def unidentified (d : Dev) (c : Ch) : Bool := (boundRec d c).isNone

/-- Whether excursion follows Table 9-4: no record, or one without mechanical values (R276, R306). -/
def genericMech (d : Dev) (c : Ch) : Bool :=
  match boundRec d c with
  | some r => !bit (recFlags r) 1
  | none => true

/-- A record's parameter as a value. -/
def recRat (r : List Byte) (o : Nat) (unit : Rat) : Rat := (recParam r o : Rat) / unit

/-- Words 4 to 15 of the model stage (Table 9-3). -/
def modelWords (d : Dev) (c : Ch) : List Slot :=
  let x := d.chs[c].cfg
  let os : Rat := (x.outputScale : Rat) / 1000 / (if x.bridged then 48 else 24)
  let xm : Rat := (x.xMax : Rat) / 100000
  let gen := genericMech d c
  let r := (boundRec d c).getD []
  let idn := !unidentified d c
  let mech (o : Nat) (unit dflt : Rat) : Rat := if gen then dflt else recRat r o unit
  let mms := mech 48 1000000 (15 / 1000)
  [os, mech 36 1000000 6, 1 / mms, mech 40 1000 (21318 / 10), mech 44 1000 2, if gen then ratMin xm (2 / 1000) else xm,
   (x.tLim : Rat) / 10, (x.gFloor : Rat) / 32768, if idn then recRat r 16 1000000 else 4,
   if idn then (signed 16 (leAt r 22 2) : Rat) / 10 else 25, if idn then recRat r 56 1000000 else 1,
   (x.alpha : Rat) / 1000000].map ratC

/-- Words 0 to 6 of the thermal stage (Table 9-3): R in K/W, τ in s, one outer period of 1/3,000 s. -/
def thermalWords (d : Dev) (c : Ch) : List Slot :=
  let x := d.chs[c].cfg
  let rc : Rat := (x.rc : Rat) / 100
  let rm : Rat := (x.rm : Rat) / 100
  let cc : Rat := (x.tauC : Rat) / 1000 / rc
  let cm : Rat := (x.tauM : Rat) / rm
  let h : Rat := 1 / 3000
  [h / cc, 1 / rc, h / cm, 1 / rm, (x.tAmb : Rat) / 10, (x.reSigMin : Rat) / 1000, if x.pilotEn then 1 else 0].map ratC

/-- Engine tile of a channel. -/
def etOf (c : Ch) : LTile := ⟨c.val / 8, by omega⟩

/-- The stitch of a type that serves a channel in its tile's Fi sequence. -/
def laneStitch (i : Image) (ty : Nat) (c : Ch) : Option Stitch :=
  (i.fi (c.val / 8)).find? fun s => decide (s.type = ty ∧ (if ty = tyGrant then s.srcA else grpOf s.dst) = c.val % 8 / 4)
    && s.lane (c.val % 4)

/-- The REGION stitches that serve a channel. -/
def regionStitches (i : Image) (c : Ch) : List Stitch :=
  (i.all (c.val / 8)).filter fun s => decide (s.type = tyRegion ∧ grpOf s.dst = c.val % 8 / 4) && s.lane (c.val % 4)

/-- The condition words and ρ of a channel where its REGION stitches read them (R227). -/
def loadConds (d : Dev) (c : Ch) : Dev :=
  match d.core.image with
  | none => d
  | some i =>
    let x := d.chs[c].region
    d.tile (etOf c) fun t => (regionStitches i c).foldl (fun u s => putCondStage u s (c.val % 4) x.conds x.rho) t

/-- Write the model and thermal stages of a channel from its parameters and its bound record (R96, R305). -/
def loadStages (d : Dev) (c : Ch) : Dev :=
  match d.core.image with
  | none => d
  | some i =>
    let d1 := match laneStitch i tyExcur c with
      | some s => d.tile (etOf c) fun t => t.wrs (s.srcB + 4) (c.val % 4) (modelWords d c)
      | none => d
    match laneStitch i tyThermal c with
    | some s => d1.tile (etOf c) fun t => t.wrs s.srcB (c.val % 4) (thermalWords d1 c)
    | none => d1

/-- A change of binding at a release: the excursion model restarts at rest, the high-pass at zero, and MEASURED is cleared, also in a
status word that waits for the outer boundary (R277). -/
def restartModel (d : Dev) (c : Ch) : Dev :=
  match d.core.image with
  | none => d
  | some i =>
    match laneStitch i tyExcur c with
    | none => d
    | some s => d.tile (etOf c) fun t =>
      let l := c.val % 4
      let u := ((t.wrs (s.dst + 4) l [.s 0 31 false, .s 0 31 false, .s 0 31 false]).wrs (s.dst + 11) l [.a 0 31 false, .a 0 31 false]).restage s.dst 23 l
      let clear (x : Slot) : Slot := let w := x.num; .i (w - b2n (bit w 1) * 2)
      let v := u.wr (s.srcA + 6) l (clear (u.rd (s.srcA + 6) l))
      { v with outerShadow := v.outerShadow.map fun p =>
          if p.2.1 = s.srcA + 6 ∧ p.2.2.1 = l ∧ p.2.2.2.num ≠ 8 then (p.1, p.2.1, p.2.2.1, clear p.2.2.2) else p }

/-- The slot a release of a channel binds: the record of its identity that is valid and has no MISMATCH (R305, R307). -/
def slotToBind (d : Dev) (c : Ch) : Option Nat :=
  match findRecord d (identOf d.chs[lead d c]) with
  | some (s, r) => if bit (recFlags r) 5 then none else some s
  | none => none

/-- Bind the record of a channel's identity at its release; without one the channel is unidentified (R276, R277). -/
def bindRecord (d : Dev) (c : Ch) : Dev :=
  let slot := slotToBind d c
  let r := match slot with | some k => (Mem.find d.admin.records k).getD [] | none => []
  let d1 := loadStages (trackUnbound (d.ch c fun x => { x with bound := slot, loadRec := r })) c
  if d.chs[c].bound == slot then d1 else restartModel d1 c

end Sys2Proof.Machine
end

