-- ==== Sys2Proof/Machine/Fx.lean ====
section
/-!
DEFINITION. Fixed-point functions on the grid 2^(-96): sine, powers of two and logarithms to base two, each within
2^(-88) of the exact value, far below the last bit of any word the spec stores (DESIGN CHOICE: log entry 20).
-/

namespace Sys2Proof.Machine

/-- One. -/
def fxOne : Int := 2 ^ 96

/-- `n / d` on the grid. -/
def fxDiv (n d : Int) : Int := Int.fdiv (n * 2 ^ 96) d

/-- Product on the grid. -/
def fxMul (a b : Int) : Int := Int.fdiv (a * b) (2 ^ 96)

/-- π. -/
def fxPi : Int := 248902613312231085230521944622

/-- ln 2. -/
def fxLn2 : Int := 54916777467707473351141471128

/-- log2 10. -/
def fxLog2Ten : Int := 263190258962436467100402834429

/-- Taylor terms of the sine: `t` is the present term, `x2` the square of the argument, `k` the last factor used. -/
def sinTerms : Nat → Int → Int → Nat → Int
  | 0, _, _, _ => 0
  | f + 1, t, x2, k => t + sinTerms f (-(fxMul t x2) / ((k + 1) * (k + 2) : Nat)) x2 (k + 2)

/-- Sine of a quarter turn or less, in radians. -/
def sinRad (x : Int) : Int := sinTerms 18 x (fxMul x x) 1

/-- Sine of `t` turns. (DESIGN CHOICE, log entry 20.) -/
def sinTurn (t : Int) : Int :=
  let u := t % 2 ^ 96
  let q := 2 ^ 94
  let rad (v : Int) := fxMul (2 * v) fxPi
  if u < q then sinRad (rad u)
  else if u < 2 * q then sinRad (rad (2 * q - u))
  else if u < 3 * q then -sinRad (rad (u - 2 * q))
  else -sinRad (rad (4 * q - u))

/-- Cosine of `t` turns. -/
def cosTurn (t : Int) : Int := sinTurn (t + 2 ^ 94)

/-- Taylor terms of the exponential. -/
def expTerms : Nat → Int → Int → Nat → Int
  | 0, _, _, _ => 0
  | f + 1, t, x, k => t + expTerms f (fxMul t x / (k : Int)) x (k + 1)

/-- Two to the power `x`. -/
def fxExp2 (x : Int) : Int :=
  let n := Int.fdiv x (2 ^ 96)
  let e := expTerms 30 fxOne (fxMul (x - n * 2 ^ 96) fxLn2) 1
  if 0 ≤ n then e * 2 ^ n.toNat else Int.fdiv e (2 ^ (-n).toNat)

/-- Bits of the binary logarithm by squaring: `y` lies in 1 to 2. -/
def logBits : Nat → Int → Int → Int
  | 0, _, acc => acc
  | f + 1, y, acc =>
    let z := fxMul y y
    if 2 * fxOne ≤ z then logBits f (z / 2) (2 * acc + 1) else logBits f z (2 * acc)

/-- Binary logarithm of `x` > 0. (DESIGN CHOICE, log entry 20.) -/
def fxLog2 (x : Int) : Int :=
  let n := x.toNat.log2
  let y := if n ≤ 96 then x * 2 ^ (96 - n) else Int.fdiv x (2 ^ (n - 96))
  ((n : Int) - 96) * 2 ^ 96 + logBits 96 y 0

/-- `b` to the power `n / d`, `b` > 0 on the grid. (DESIGN CHOICE, log entry 20.) -/
def fxPow (b : Int) (n d : Int) : Int := fxExp2 (Int.fdiv (fxLog2 b * n) d)

/-- The ratio of `x` dB, `x` given in units of 1 / `u` dB: 10^(x / 20). -/
def fxDb (x : Int) (u : Nat) : Int := fxExp2 (Int.fdiv (fxLog2Ten * x) (20 * u : Nat))

/-- Square root on the grid. (DESIGN CHOICE, log entry 20.) -/
def fxSqrt (x : Int) : Int := (sqrtN ((x * 2 ^ 96).toNat) : Nat)

/-- Natural exponential. -/
def fxExp (x : Int) : Int := fxExp2 (fxDiv x fxLn2)

end Sys2Proof.Machine
end

