-- ==== Sys2Proof/Machine/Outer.lean ====
section
/-!
DEFINITION. The outer loops: EXCUR, THERMAL, GRANT, the outer boundary, Re windows and the sag limiter (chapter 9, R157 to
R159). Values are computed as rationals and each word is rounded once (DESIGN CHOICE: log entry 22).
-/

namespace Sys2Proof.Machine

/-! ### Coefficients of the fixed high-pass (R323) -/

/-- b0, b1, a1, a2 in Q2.30 for the corner codes 0 (3 Hz), 1 (40 Hz) and 2 (80 Hz). (DESIGN CHOICE, log entry 23.) -/
def hpfCoef (code : Nat) : Int × Int × Int × Int :=
  match code with
  | 1 => (1071755951, -2143511901, -2143508228, 1069773750)
  | 2 => (1069773750, -2139547500, -2139532835, 1065820340)
  | _ => (1073592756, -2147185512, -2147185491, 1073443709)

/-- A fixed-point value of the grid 2^(-96) as a rational. -/
def fxRat (x : Int) : Rat := (x : Rat) / (2 : Rat) ^ 96

/-- The grid value of a rational. -/
def ratFx (r : Rat) : Int := fxDiv r.num r.den

/-- Square root of a rational of 0 or more, on the grid 2^(-96). -/
def ratSqrt (r : Rat) : Rat := fxRat (fxSqrt (ratFx (ratMax 0 r)))

/-! ### Inputs of a lane -/

/-- Fi means of a channel in V and A as its load sees them: the difference of a pair's halves, and the acoustic polarity of
an inverted channel (R152, R260). `prev` gives the voltage mean before. -/
def meanVolt (d : Dev) (c : Ch) (prev : Bool) : Rat :=
  let v (h : Ch) : Rat := let s := d.chs[h].sense; (if prev then s.meanVPrev else s.meanV : Int)
  let x := if bridgedB d c then v (evenOf c) - v (oddOf c) else v c
  x * 24 / 8388608

/-- Mean inductor current of a channel's load in A. -/
def meanAmp (d : Dev) (c : Ch) : Rat := (d.chs[c].sense.meanI : Rat) * 10 / 8388608

/-- INIT_T start temperature T_LIM − 15 K (R280). -/
def startTemp (d : Dev) (c : Ch) : Rat := (d.chs[c].cfg.tLim : Rat) / 10 - 15

/-- Thermal gain at a coil temperature (R268), with TKNEE in °C. -/
def thermalGain (tLim tKnee gFloor tc : Rat) : Rat :=
  ratMax gFloor (fxRat (fxSqrt (ratFx (ratClamp 0 1 ((tLim - tc) / tKnee)))))

/-- LIM0 to LIM3 within their locked bounds (R259, Table 9-1). -/
def limits (d : Dev) (c : Ch) (rd : Nat → Rat) : Rat × Rat × Rat × Rat :=
  let x := d.chs[c].cfg
  let ceil : Rat := if x.privileged then (x.ilim : Rat) * 5 / 1000 else (x.vMax : Rat) / 24000
  (ratClamp 0 1 (rd 0), ratClamp (999 / 1000) (9999999 / 10000000) (rd 1), ratClamp (5 / 512) (100 / 512) (rd 2), ratClamp 0 ceil (rd 3))

/-- The slow gain a channel's limits ask for: sag gain times the smaller of thermal and grant gain (R160, R257). -/
def slowGain (d : Dev) (c : Ch) (gth gGrant : Rat) : Rat :=
  ((d.power[tileOf c].sagGain : Rat) / (2 : Rat) ^ 47) * ratMin gth gGrant

/-- Coil temperature and grant gain EXCUR takes, with the start values before INIT_T and GRANT_SEEN (R280, R281). -/
def slowInputs (d : Dev) (c : Ch) (t : TileState) (s : Stitch) : Rat × Rat :=
  let l := c.val % 4
  let w := (t.rd (s.srcA + 6) l).num
  (if bit w 0 then (t.rd (s.srcA + 1) l).rat else startTemp d c, if bit w 3 then (t.rd (s.srcA + 4) l).rat else 1)

/-- g_th of a lane at the temperature in force. -/
def laneThermal (d : Dev) (c : Ch) (t : TileState) (s : Stitch) : Rat :=
  let l := c.val % 4
  let (_, _, knee, _) := limits d c fun j => (t.rd (s.srcB + j) l).rat
  thermalGain (t.rd (s.srcB + 10) l).rat (knee * 512) (t.rd (s.srcB + 11) l).rat (slowInputs d c t s).1

/-! ### EXCUR (R257 to R262, R266, R273, R279) -/

/-- The pilot of a lane in sense units: 0.2 V peak at 8 Hz, or 0.1 V on each half of a pair, rising over the 2,400 Fi periods
before the first window (R273). -/
def pilotAt (d : Dev) (c : Ch) (status : Nat) : Rat :=
  match d.chs[c].sense.winCnt with
  | none => 0
  | some n =>
    let amp : Rat := (if bridgedB d c then 1 else 2) / 240
    let turn := fxDiv ((n : Int) - 2400) 12000
    if n < 2400 then (if d.chs[c].cfg.pilotEn then amp * n / 2400 * fxRat (sinTurn turn) else 0)
    else if bit status 1 then amp * fxRat (sinTurn turn) else 0

/-- One step of a second-order section in transposed direct form II: output and new states. -/
def tdf2 (b0 b1 b2 a1 a2 x z1 z2 : Rat) : Rat × Rat × Rat :=
  let y := b0 * x + z1
  (y, b1 * x - a1 * y + z2, b2 * x - a2 * y)

/-- The 80 Hz high-pass of an unidentified load (R276). (DESIGN CHOICE, log entry 23.) -/
def hp80 (x z1 z2 : Rat) : Rat × Rat × Rat :=
  let (b0, b1, a1, a2) := hpfCoef 2
  let q (v : Int) : Rat := (v : Rat) / 1073741824
  tdf2 (q b0) (q b1) (q b0) (q a1) (q a2) x z1 z2

/-- The 30 Hz low-pass of a window, Q 0.7071, from the bilinear transform with prewarping, in units of 2^(-60) (R266). (DESIGN CHOICE,
log entry 23.) -/
def lp30 (x z1 z2 : Rat) : Rat × Rat × Rat :=
  let q (v : Int) : Rat := (v : Rat) / (2 : Rat) ^ 60
  tdf2 (q 1109677619357) (q 2219355238714) (q 1109677619357) (q (-2302641546098302986)) (q 1149724480201933439) x z1 z2

/-- The term that limits a channel most (R262): excursion 1, thermal 2, grant 3, sag 4, ceiling 5, none 0. -/
def bindOf (exc th gr sag ceil : Rat) : Nat :=
  let m := ratMin exc (ratMin th (ratMin gr (ratMin sag ceil)))
  if 1 ≤ m then 0 else if exc = m then 1 else if th = m then 2 else if gr = m then 3 else if sag = m then 4 else 5

/-- Replace the sense record of a channel. -/
def Dev.sns (d : Dev) (c : Ch) (f : Sense → Sense) : Dev := d.ch c fun x => { x with sense := f x.sense }

/-- EXCUR of one lane; the words of x and env are in mm. (DESIGN CHOICE, log entry 22; DEDUCED, log entry 31.) -/
def excurLane (d : Dev) (t : LTile) (s : Stitch) (c : Ch) : Dev :=
  let l := c.val % 4
  let u := d.core.tiles[t]
  let o (j : Nat) : Slot := u.rd (s.dst + j) l
  let b (j : Nat) : Rat := (u.rd (s.srcB + j) l).rat
  let w6 := (u.rd (s.srcA + 6) l).num
  let loop := u.fiLoop.getD (c.val % 8) false
  let q := d.tb.stc % 32
  let (lim0, lim1, _, lim3) := limits d c b
  let (tc, gg) := slowInputs d c u s
  let gth := laneThermal d c u s
  let st := (o 23).num
  let fresh := !bit st 0
  let gth1 := if fresh then gth else (o 8).rat
  let gs0 := if fresh then slowGain d c gth gg else (o 9).rat
  let gs1 := if fresh then gs0 else (o 10).rat
  let gSlow := gs0 + ((q : Rat) + 1) / 32 * (gs1 - gs0)
  let v0 := (u.rd s.srcA l).rat * b 4
  let (v, h1, h2) := if genericMech d c then hp80 v0 (o 11).rat (o 12).rat else (v0, (o 11).rat, (o 12).rat)
  let st1 := if loop then st else st - st % 8 + b2n (bit st 0)
  let pil := if loop then pilotAt d c st else 0
  let vu := v * gSlow + pil
  let kb : Rat := if bridgedB d c then 2 else 1
  let vload : Rat := if loop then 24 * kb * vu else 0
  let x0 := if fresh then 0 else (o 4).rat / 1000
  let u0 := if fresh then 0 else (o 5).rat
  let env0 := if fresh then 0 else (o 6).rat / 1000
  let bl := b 5
  let rex := if bit w6 1 then (u.rd (s.srcA + 3) l).rat else b 12
  let i := (vload - bl * u0) / rex
  let acc := (bl * i - b 8 * u0 - b 7 * x0) * b 6
  let u1 := u0 + acc / 96000
  let x1 := x0 + u1 / 96000
  let env := ratMax (ratAbs x1) (lim1 * env0)
  let gExc := if env = 0 then 1 else ratMin 1 (lim0 * b 9 / env)
  let raw := if d.chs[c].cfg.privileged then gExc * i / 10 else gExc * vu
  let cc := ratClamp (-lim3) lim3 raw
  let temp := tc / 512
  let w1 := if d.chs[c].cfg.privileged then gExc * acc / 2048 else temp
  -- sums and windows
  let vm := meanVolt d c false
  let im := meanAmp d c
  let ic := im - b 14 / 1000000 * (vm - meanVolt d c true) * 96000
  let run := if loop || bit w6 0 then (o 16).rat + ic * ic else (o 16).rat
  let winOn := loop && bit st 2
  let e := bl * gExc * u1
  let (lv, z1, z2) := lp30 (vm - e) (o 19).rat (o 20).rat
  let (li, z3, z4) := lp30 im (o 21).rat (o 22).rat
  let keep (j : Nat) (r : Rat) : Rat := if winOn then r else (o j).rat
  let cnt := if loop ∧ d.chs[c].sense.winCnt.isSome = true then satN 0xFFFF (st / 65536 + 1) else 0
  let st2 := (st1 % 8 ||| 1) + cnt * 65536
  let ss : List Rat := [cc, w1, cc, temp, 1000 * x1, u1, 1000 * env, gExc, gth1, gs0, gs1]
  let as : List Rat := [h1, h2, (o 13).rat, (o 14).rat, (o 15).rat, run, if loop then keep 17 ((o 17).rat + lv * li) else 0,
    if loop then keep 18 ((o 18).rat + li * li) else 0, keep 19 z1, keep 20 z2, keep 21 z3, keep 22 z4]
  let words := ratStage (ss.map (false, ·) ++ as.map (true, ·)) (o 0).exp
  let d1 := d.tile t fun t1 => t1.wrs s.dst l (words ++ [.i st2])
  let sag := (d.power[tileOf c].sagGain : Rat) / (2 : Rat) ^ 47
  let ceil : Rat := if cc = raw then 1 else lim3 / ratAbs raw
  let pk := (ratAbs (gExc * x1) * 1000000).floor.toNat
  d1.sns c fun y => { y with
    reportBind := bindOf gExc gth1 gg sag ceil
    xpkRun := max y.xpkRun (satN 0xFFFF pk)
    seenLoop := y.seenLoop || loop
    winCnt := if loop then y.winCnt.map fun n => if n + 1 = 14400 then 2400 else n + 1 else none
    winClosed := y.winClosed && loop }

/-! ### THERMAL (R267 to R270, R280) and GRANT (R274) -/

/-- Put a slot into the shadow of R256, with the STC of the Fi period it is written in. -/
def TileState.outerShade (t : TileState) (stc a i : Nat) (x : Slot) : TileState :=
  { t with outerShadow := t.outerShadow ++ [(stc, a, i, x)] }

/-- THERMAL of one lane. (DEDUCED, log entry 31.) -/
def thermalLane (d : Dev) (t : LTile) (s : Stitch) (c : Ch) : Dev :=
  match (d.core.image.bind fun i => laneStitch i tyExcur c) with
  | none => d
  | some x =>
    let l := c.val % 4
    let u := d.core.tiles[t]
    let w6 := (u.rd (s.dst + 6) l).num
    let b (j : Nat) : Rat := (u.rd (x.srcB + j) l).rat
    let k (j : Nat) : Rat := (u.rd (s.srcB + j) l).rat
    let tLim := b 10
    let re0 := b 12
    let t0 := b 13
    let al := b 15
    let y := d.chs[c].sense
    let put (tc tm re : Rat) (meas : Bool) (reM : Slot) : Dev :=
      let hot := decide (tLim ≤ tc)
      let w := packBits [true, meas, hot, false, unidentified d c, bit w6 5]
      d.tile t fun v =>
        [(1, ratS tc), (2, ratS tm), (3, ratS re), (5, reM), (6, .i w)].foldl (fun u p => u.outerShade d.tb.stc (s.dst + p.1) l p.2) v
    if !bit w6 0 then
      if y.seenLoop then
        let ts := startTemp d c
        put ts ts (re0 * (1 + al * (ts - t0))) false (u.rd (s.dst + 5) l)
      else d
    else
      let tc := (u.rd (s.dst + 1) l).rat
      let tm := (u.rd (s.dst + 2) l).rat
      let p := (u.rd (s.dst + 3) l).rat * (u.rd (s.srcA + 13) l).rat / 32
      let tc1 := tc + k 0 * (p - (tc - tm) * k 1)
      let tm1 := tm + k 2 * ((tc - tm) * k 1 - (tm - k 4) * k 3)
      let si := (u.rd (s.srcA + 15) l).rat
      let valid := y.winClosed && decide ((108 : Rat) / 10 ≤ si)
      let rm := (u.rd (s.srcA + 14) l).rat / si
      let range := decide (re0 / 2 ≤ rm ∧ rm ≤ 5 / 2 * re0)
      let meas := bit w6 1
      let take := valid && range && !unidentified d c
      let tMeas := t0 + (rm / re0 - 1) / al
      let tc2 := if take then (if meas then tc1 + (tMeas - tc1) / 8 else tMeas) else tc1
      let tm2 := if take && !meas then tMeas else tm1
      let d1 := put tc2 tm2 (re0 * (1 + al * (tc2 - t0))) (meas || take) (if valid then ratS rm else u.rd (s.dst + 5) l)
      d1.sns c fun z => { z with
        winClosed := false
        reNext := if valid then some (d.tb.stc, satN 0xFFFF (ratRound (rm * 1000)).toNat, !range) else z.reNext }

/-- GRANT of one lane: the Shank's grant goes through the shadow of R256; without a complete cycle nothing is written, which the outer
boundary counts (R278, R464). (DEDUCED, log entry 30.) -/
def grantLane (d : Dev) (t : LTile) (s : Stitch) (c : Ch) : Dev :=
  if d.shank.fresh then
    let g : Rat := (d.shank.grants[c] : Rat) / 32768
    d.tile t fun v => (v.outerShade d.tb.stc (s.dst + 4) (c.val % 4) (ratS g)).outerShade d.tb.stc (s.dst + 6) (c.val % 4) (.i 8)
  else d.tile t fun v => { v with grantMiss := true }

/-! ### The outer boundary (R255, R256, R159, R275) -/

/-- Make an entry of the outer shadow current; a grant's mark sets GRANT_SEEN, and other status words keep it. The words of the input
stage stand at one exponent (R204). -/
def applyShade (t : TileState) (e : Nat × Nat × Nat × Slot) : TileState :=
  let (_, a, l, x) := e
  match x with
  | .i n =>
    let w := (t.rd a l).num
    (t.wr a l (.i (if n = 8 then w ||| 8 else n ||| (w &&& 8)))).restage (a - 5) 5 l
  | y => t.wr a l y

/-- Whether what a tile wrote in the Fi period with STC `k` has come by the outer boundary at `stc`: the work of the last period of a late
tile has not (R278). -/
def inTime (t : TileState) (stc k : Nat) : Bool := !(t.lateFi && decide (k + 1 = stc))

/-- A tile's outer shadow becomes current at the outer boundary `stc`. -/
def applyOuter (stc : Nat) (t : TileState) : TileState :=
  { (t.outerShadow.filter fun e => inTime t stc e.1).foldl applyShade t with outerShadow := [], grantMiss := false }

/-- The tiles on which a GRANT found no complete grant cycle count the outer boundary as late, unless their own late work has counted it
already (R278). (DEDUCED, log entry 30.) -/
def countMisses (d : Dev) : Dev :=
  let hit (p : Nat) : Bool := anyB d.core.tiles fun _ t => t.grantMiss && !t.lateFi && decide (t.phys = p)
  { d with core := { d.core with
    slack := tab d.core.slack fun p r => if hit p.val then { r with lateFi := satN 0xFFFFFFFF (r.lateFi + 1) } else r } }

/-- The sag limiter at an outer boundary: the gain computed at the boundary before comes into force, and the H of the outer
period that closes gives the gain of the next one, in units of 2^(-47) (R33, R157 to R159, R282, Table 1-5). (DEDUCED, log entry 19.) -/
def sagNext (p : Power) (done : Bool) : Power :=
  if !done then { p with sagPhase := 0, sagGain := 2 ^ 47, sagPend := none, hRun := none }
  else if p.sagPhase = 0 then { p with sagPhase := 1, hRun := none }
  else
    let now := p.sagPend.getD p.sagGain
    match p.hRun with
    | none => { p with sagGain := now, sagPend := none }
    | some h =>
      let num : Int := (10 * (h : Int) - p.vMargin) * 2 ^ 47
      let den : Int := (p.vKnee : Int) - p.vMargin
      let tgt := if !p.sagEn then 2 ^ 47 else clampI (2 ^ 32) (2 ^ 47) (Int.fdiv num den)
      let cur : Int := now
      let up := fxMul cur (fxDb p.sagRise 30000)
      let g := if p.sagPhase = 1 ∨ tgt ≤ cur then tgt else min tgt up
      { p with sagPhase := 2, sagGain := now, sagPend := some g.toNat, hRun := none, hmin := h }

/-- Close the sums of a lane and recompute its slow gains. (DEDUCED, log entry 69.) -/
def closeLane (d : Dev) (t : LTile) (s : Stitch) (c : Ch) : Dev :=
  let l := c.val % 4
  let u := d.core.tiles[t]
  if !bit (u.rd (s.dst + 23) l).num 0 then d
  else
    let gth := laneThermal d c u s
    let g := slowGain d c gth (slowInputs d c u s).2
    d.tile t fun v =>
      (((v.wrs (s.dst + 8) l [ratS gth, v.rd (s.dst + 10) l, ratS g]).wr (s.dst + 13) l (v.rd (s.dst + 16) l)).wr (s.dst + 16) l
        (.a 0 31 false)).restage s.dst 23 l

/-- The channels a stitch of an engine tile serves with its lanes; the stitches of the odd half of a pair write nothing (R260,
R264). -/
def stitchChs (d : Dev) (t : LTile) (s : Stitch) : List Ch :=
  let g := if s.type = tyGrant then s.srcA else grpOf s.dst
  (s.laneList.map (laneCh t g)).filter fun c => !(bridgedB d c && decide (c.val % 2 = 1))

/-- The EXCUR stitches of every tile with the channels they serve. -/
def excurs (d : Dev) : List (LTile × Stitch × Ch) :=
  match d.core.image with
  | none => []
  | some i => (ixs 16).flatMap fun k =>
    let t : LTile := ⟨k.val, by omega⟩
    ((i.fi k.val).filter fun s => decide (s.type = tyExcur)).flatMap fun s => (stitchChs d t s).map fun c => (t, s, c)

/-- The origin of a channel's windows (R269): the first outer boundary with LOOP 1, or with its thermal state initialised
while LOOP is 1; after an image that starts its stages at zero, one after B + 1 (R278). -/
def setOrigin (d : Dev) (c : Ch) : Dev :=
  let lp := d.core.tiles[etOf c].fiLoop.getD (c.val % 8) false || loopMode d.chs[c]
  if lp && d.chs[c].sense.winCnt.isNone && decide (d.chs[c].sense.originAt ≤ d.tb.stc) then d.sns c fun y => { y with winCnt := some 0 } else d

/-- Registers the tiles update at an outer boundary (R284). -/
def outerStat (d : Dev) (t : LTile) (s : Stitch) (c : Ch) : Dev :=
  let l := c.val % 4
  let u := d.core.tiles[t]
  let w6 := (u.rd (s.srcA + 6) l).num
  let code (x : Slot) : Nat := (clampI 0 4095 (ratRound (x.rat * 10 + 500))).toNat
  let on := bit w6 0
  let re := d.chs[c].sense.reNext.filter fun r => inTime u d.tb.stc r.1
  let taken (y : LoopStat) : LoopStat := match re with
    | some r => { y with
        windows := (y.windows + 1) % 256
        rejects := if r.2.2 then satN 0xFF (y.rejects + 1) else y.rejects
        reMeas := r.2.1 }
    | none => y
  (d.stat c fun z => let y := taken z; { y with
    tc := if on then code (u.rd (s.srcA + 1) l) else y.tc
    tm := if on then code (u.rd (s.srcA + 2) l) else y.tm
    initT := on
    measured := bit w6 1
    hot := bit w6 2
    unident := unidentified d c
    pilot := bit (u.rd (s.dst + 23) l).num 1
    xpk := d.chs[c].sense.xpkRun }).sns c fun y => { y with xpkRun := 0, reNext := none }

/-- The outer boundary: SAG_UPDATE, shadows, sums, slow gains, reports and registers (R159, R255, R256, R275, R284). -/
def outerDev (d : Dev) : Dev :=
  if d.tb.stc % 32 ≠ 0 ∨ d.tb.started = false then d
  else
    let d0 := countMisses d
    let d1 := { d0 with
      power := tab d0.power fun _ p => sagNext p (preDone d0)
      core := { d0.core with tiles := tab d0.core.tiles fun _ t => applyOuter d0.tb.stc t }
      shank := { d0.shank with fresh := false } }
    let d2 := d1.chAll fun _ x => { x with sense := { x.sense with report := x.sense.powSum, powSum := 0 } }
    let d3 := (excurs d2).foldl (fun e p => closeLane e p.1 p.2.1 p.2.2) d2
    let d4 := (excurs d3).foldl (fun e p => setOrigin e p.2.2) d3
    (excurs d4).foldl (fun e p => outerStat e p.1 p.2.1 p.2.2) d4

/-! ### Re windows (R269, R270, R272) -/

/-- The EXCUR stitch of a channel. -/
def excurOf (d : Dev) (c : Ch) : Option Stitch := d.core.image.bind fun i => laneStitch i tyExcur c

/-- A window opens 2,400 Fi periods after the origin or as its predecessor closes; its pilot runs in the first window and
after a window of too little signal. -/
def windowOpen (d : Dev) (c : Ch) : Dev :=
  match excurOf d c, d.chs[c].sense.winCnt with
  | some s, some n =>
    let t := etOf c
    let l := c.val % 4
    let st := (d.core.tiles[t].rd (s.dst + 23) l).num
    if n = 2400 ∧ bit st 2 = false then
      let next := bit (d.core.tiles[t].rd (s.srcA + 6) l).num 5
      let first := decide (st / 65536 < 14400)
      let on := d.chs[c].cfg.pilotEn && (first || next)
      (d.tile t fun u => u.wr (s.dst + 23) l (.i (st - bits st 1 2 * 2 + 2 * b2n on + 4))).stat c fun y => { y with pilot := on }
    else d
  | _, _ => d

/-- A window closes after 12,000 Fi periods: its sums are closed, and PILOT_NEXT says whether its rms of i_lp was below
RE_SIG_MIN. -/
def windowClose (d : Dev) (c : Ch) : Dev :=
  match excurOf d c, d.chs[c].sense.winCnt with
  | some s, some n =>
    let t := etOf c
    let l := c.val % 4
    let u := d.core.tiles[t]
    let st := (u.rd (s.dst + 23) l).num
    if n = 2400 ∧ bit st 2 = true then
      let si := (u.rd (s.dst + 18) l).rat
      let sig : Rat := (d.chs[c].cfg.reSigMin : Rat) / 1000
      let low := decide (si < 12000 * sig * sig)
      let w6 := (u.rd (s.srcA + 6) l).num
      let closed (v : TileState) : TileState :=
        (((v.wrs (s.dst + 14) l [v.rd (s.dst + 17) l, v.rd (s.dst + 18) l]).wrs (s.dst + 17) l [.a 0 31 false, .a 0 31 false]).restage
          s.dst 23 l).wr (s.dst + 23) l (.i (st - bits st 1 2 * 2))
      ((d.tile t fun v => (closed v).wr (s.srcA + 6) l (.i (w6 - 32 * b2n (bit w6 5) + 32 * b2n low))).sns c fun y =>
        { y with winClosed := true }).stat c fun y => { y with pilot := false }
    else d
  | _, _ => d

end Sys2Proof.Machine
end

