-- ==== Sys2Proof/Machine/Fit.lean ====
section
/-!
DEFINITION. FIT of a load measurement (R300): the loudspeaker model of chapter 10, its admittance and the Gauss-Newton fit, in rationals of
128 significant bits (DESIGN CHOICE, log entry 37).
-/

namespace Sys2Proof.Machine

/-- A quotient, none where the divisor is 0. -/
def quot (a b : Rat) : Option Rat := if b = 0 then none else some (a / b)

/-- π as a rational. -/
def ratPi : Rat := fxRat fxPi

/-- `x` to 128 significant bits. (DESIGN CHOICE, log entry 37.) -/
def sig (x : Rat) : Rat :=
  let k : Int := 128 + (x.den.log2 : Int) - (x.num.natAbs.log2 : Int)
  if x = 0 then 0 else ((x * pow2 k).floor : Rat) * pow2 (-k)

/-! ### Complex values -/

/-- A complex value. -/
structure Cx where
  re : Rat
  im : Rat
  deriving DecidableEq, Repr

def Cx.add (a b : Cx) : Cx := ⟨a.re + b.re, a.im + b.im⟩
def Cx.sub (a b : Cx) : Cx := ⟨a.re - b.re, a.im - b.im⟩
def Cx.mul (a b : Cx) : Cx := ⟨sig (a.re * b.re - a.im * b.im), sig (a.re * b.im + a.im * b.re)⟩
def Cx.scale (k : Rat) (a : Cx) : Cx := ⟨sig (k * a.re), sig (k * a.im)⟩

/-- |a|². -/
def Cx.nrm (a : Cx) : Rat := a.re * a.re + a.im * a.im

/-- The reciprocal; 0 has none and gives 0. -/
def Cx.inv (a : Cx) : Cx := let n := a.nrm; ⟨sig (a.re / n), sig (-a.im / n)⟩

/-! ### The model -/

/-- The parameters FIT finds, in Ω, H, Hz and F. -/
structure FitPar where
  re : Rat
  le : Rat
  fs : Rat
  qms : Rat
  qes : Rat
  cf : Rat
  deriving DecidableEq, Repr

/-- ω of a frequency in Hz. -/
def omega (f : Rat) : Rat := 2 * ratPi * f

/-- 1 / (1 + jQms(ω/ωs − ωs/ω)). -/
def FitPar.peak (p : FitPar) (f : Rat) : Cx := Cx.inv ⟨1, sig (p.qms * (f / p.fs - p.fs / f))⟩

/-- Res = Re × Qms / Qes. -/
def FitPar.res (p : FitPar) : Rat := sig (p.re * p.qms / p.qes)

/-- Z_spk at `f`. -/
def FitPar.spk (p : FitPar) (f : Rat) : Cx := Cx.add ⟨p.re, sig (omega f * p.le)⟩ (Cx.scale p.res (p.peak f))

/-- Y at `f`, with a cable of `rc` Ω between the sense point and CF. -/
def FitPar.admittance (p : FitPar) (rc f : Rat) : Cx :=
  let c := sig (omega f * p.cf)
  Cx.add (Cx.mul ⟨1, sig (c * rc)⟩ (p.spk f).inv) ⟨0, c⟩

/-- The derivatives of Y at `f` by Re, Le, fs, Qms, Qes and CF. -/
def FitPar.grads (p : FitPar) (rc f : Rat) : List Cx :=
  let w := omega f
  let zi := (p.spk f).inv
  let k := p.peak f
  let k2 := Cx.mul k k
  let dZ : List Cx := [
    Cx.add ⟨1, 0⟩ (Cx.scale (p.qms / p.qes) k),
    ⟨0, sig w⟩,
    Cx.mul ⟨0, sig (p.res * p.qms * (f / (p.fs * p.fs) + 1 / f))⟩ k2,
    Cx.sub (Cx.scale (p.re / p.qes) k) (Cx.mul ⟨0, sig (p.res * (f / p.fs - p.fs / f))⟩ k2),
    Cx.scale (-(p.res / p.qes)) k]
  let g := Cx.scale (-1) (Cx.mul ⟨1, sig (w * p.cf * rc)⟩ (Cx.mul zi zi))
  dZ.map (Cx.mul g) ++ [Cx.add (Cx.scale (w * rc) ⟨-zi.im, zi.re⟩) ⟨0, sig w⟩]

/-- A point that FIT uses: its frequency in Hz and Z = V/I in Ω. -/
structure FitPoint where
  f : Rat
  z : Cx
  deriving DecidableEq, Repr

/-- The relative residual (I/V − Y) / (I/V) of a point. -/
def FitPar.residual (p : FitPar) (rc : Rat) (x : FitPoint) : Cx := Cx.sub ⟨1, 0⟩ (Cx.mul (p.admittance rc x.f) x.z)

/-- What FIT minimises: Σ |I/V − Y(ω)|² / |I/V|². -/
def FitPar.cost (p : FitPar) (rc : Rat) (xs : List FitPoint) : Rat := (xs.map fun x => sig (p.residual rc x).nrm).sum

/-! ### Gauss-Newton -/

/-- Solution of `n` linear equations, each row its coefficients and its right-hand side; none where they are singular. -/
def solveRows : Nat → List (List Rat) → Option (List Rat)
  | 0, _ => some []
  | n + 1, rows =>
    match rows.find? fun r => decide (r.headD 0 ≠ 0) with
    | none => none
    | some p =>
      let rest := (rows.erase p).map fun r => ((r.zip p).map fun x => sig (x.1 - r.headD 0 / p.headD 1 * x.2)).drop 1
      match solveRows n rest with
      | none => none
      | some xs => some (sig ((p.getD (n + 1) 0 - (((p.drop 1).zip xs).map fun x => x.1 * x.2).sum) / p.headD 1) :: xs)

/-- The normal equations of one iteration. -/
def FitPar.normal (p : FitPar) (rc : Rat) (xs : List FitPoint) : List (List Rat) :=
  let rows := xs.map fun x => ((p.grads rc x.f).map fun g => Cx.mul g x.z, p.residual rc x)
  (List.range 6).map fun a =>
    ((List.range 6).map fun b => (rows.map fun r =>
      let u := r.1.getD a ⟨0, 0⟩
      let v := r.1.getD b ⟨0, 0⟩
      sig (u.re * v.re + u.im * v.im)).sum)
      ++ [(rows.map fun r => let u := r.1.getD a ⟨0, 0⟩; sig (u.re * r.2.re + u.im * r.2.im)).sum]

/-- One Gauss-Newton step, none where the normal equations are singular. -/
def FitPar.step (p : FitPar) (rc : Rat) (xs : List FitPoint) : Option FitPar :=
  match solveRows 6 (p.normal rc xs) with
  | some [a, b, c, d, e, g] => some ⟨sig (p.re + a), sig (p.le + b), sig (p.fs + c), sig (p.qms + d), sig (p.qes + e), sig (p.cf + g)⟩
  | _ => none

/-- At most `n` iterations; one that doesn't lower the sum ends the fit. (DESIGN CHOICE, log entry 37.) -/
def fitLoop (rc : Rat) (xs : List FitPoint) : Nat → FitPar → FitPar
  | 0, p => p
  | n + 1, p =>
    match p.step rc xs with
    | some q => if q.cost rc xs < p.cost rc xs then fitLoop rc xs n q else p
    | none => p

/-! ### Start values -/

/-- The first place in a list of (frequency, |Z|), in order, where |Z| passes `v`, on the line between its two neighbours.
(DESIGN CHOICE, log entry 37.) -/
def crossing (v : Rat) : List (Rat × Rat) → Option Rat
  | a :: b :: rest =>
    if (a.2 - v) * (b.2 - v) ≤ 0 ∧ a.2 ≠ b.2 then some (a.1 + (v - a.2) * (b.1 - a.1) / (b.2 - a.2)) else crossing v (b :: rest)
  | _ => none

/-- The start values of R300 for a start `re0` of Re, the points in rising frequency; none where one of them has no value. -/
def fitStart (re0 : Rat) (xs : List FitPoint) : Option FitPar :=
  let mags := xs.map fun x => (x.f, ratSqrt x.z.nrm)
  let low := mags.filter fun m => decide (m.1 < 1000)
  let top := low.foldl (fun a m => if a.2 < m.2 then m else a) (low.headD (0, 0))
  let r0 := top.2 / re0
  if re0 ≤ 0 ∨ r0 ≤ 1 then none
  else
    let v := re0 * ratSqrt r0
    let lo := (mags.filter fun m => decide (m.1 ≤ top.1)).reverse
    let hi := mags.filter fun m => decide (top.1 ≤ m.1)
    match crossing v lo, crossing v hi, xs.getLast? with
    | some f1, some f2, some l =>
      if f2 ≤ f1 then none
      else
        let qms := top.1 * ratSqrt r0 / (f2 - f1)
        some ⟨sig re0, sig (l.z.im / omega l.f), sig top.1, sig qms, sig (qms / (r0 - 1)), 1 / 1000000⟩
    | _, _, _ => none

/-- FIT: the parameters, none where the start values have none. -/
def fitSpeaker (re0 rc : Rat) (xs : List FitPoint) : Option FitPar := (fitStart re0 xs).map (fitLoop rc xs 20)

end Sys2Proof.Machine
end

