-- ==== Sys2Proof/Machine/Sources.lean ====
section
/-!
DEFINITION. The sources of the mixes: generators of the Awl (R240 to R248), host streams (R326 to R331), serial ports' FIFOs
and ticks with their alignment groups (R366 to R380), the rate converters (R325) and the fixed high-pass (R323, R324).
-/

namespace Sys2Proof.Machine

/-- Replace one port. -/
def Dev.sap (d : Dev) (p : Nat) (f : Sap → Sap) : Dev := { d with ports := { d.ports with sap := updN d.ports.sap p f } }

/-- Replace one host stream. -/
def Dev.stream (d : Dev) (h : Nat) (f : Stream → Stream) : Dev := { d with mix := { d.mix with streams := updN d.mix.streams h f } }

/-- Replace every host stream. -/
def Dev.streamAll (d : Dev) (f : Stream → Stream) : Dev := { d with mix := { d.mix with streams := tab d.mix.streams fun _ => f } }

/-- Take the samples of a timed STREAM_WRITE that ends before its commitment out of its FIFO (R404, R420, R421). -/
def streamUnstart (d : Dev) (r : CmdRef) : Dev :=
  d.streamAll fun s =>
    match s.starts.find? fun x => sameRef x.ref r with
    | none => s
    | some x => { s with
        fifo := s.fifo.take x.ahead ++ s.fifo.drop (x.ahead + x.count)
        starts := (s.starts.filter fun y => !decide (y.ref = x.ref)).map fun y =>
          if x.ahead < y.ahead then { y with ahead := y.ahead - x.count } else y }

/-- The boundary of a timed STREAM_WRITE is known, or has changed (R61, R404). -/
def streamAt (d : Dev) (r : CmdRef) (b : Nat) : Dev :=
  let d1 := d.streamAll fun s => { s with starts := s.starts.map fun x => if sameRef x.ref r then { x with at_ := b } else x }
  { d1 with qif := { d1.qif with swaits := d1.qif.swaits.map fun w => if sameRef w.ref r then { w with start := some b } else w } }

/-! ### Generators -/

/-- One step of the 32-bit Galois LFSR of Table 8-5. (DEDUCED, log entry 39.) -/
def lfsrStep (x : Nat) : Nat := if x % 2 = 1 then (x / 2) ^^^ 0x80200003 else x / 2

/-- Feedback taps of Table 8-6. -/
def mlsTaps : Nat → List Nat
  | 10 => [10, 7]
  | 11 => [11, 9]
  | 12 => [12, 6, 4, 1]
  | 13 => [13, 4, 3, 1]
  | 14 => [14, 5, 3, 1]
  | 15 => [15, 14]
  | 16 => [16, 15, 13, 4]
  | 17 => [17, 14]
  | 18 => [18, 11]
  | 19 => [19, 6, 2, 1]
  | 20 => [20, 17]
  | _ => []

/-- The bit an MLS register of `m` bits shifts out: its last stage. -/
def mlsOut (m x : Nat) : Bool := bit x (m - 1)

/-- One shift of an MLS register (R242): stage 1 is bit 0 and takes the exclusive-OR of the taps. (DEDUCED, log entry 39.) -/
def mlsStep (m x : Nat) : Nat :=
  let fb := ((mlsTaps m).filter fun t => bit x (t - 1)).length % 2
  (x * 2 + fb) % 2 ^ m

/-- A sample near `exact`, given on the grid 2^(-96), within 2^(-22) of full scale, saturating (R243). -/
def nearSample (exact : Int) (dev : Int) : Int :=
  clampI (-(2 ^ 23)) (2 ^ 23 - 1) (Int.fdiv exact (2 ^ 73) + clampI (-1) 2 dev)

/-- The phase of a generator in turns on the grid 2^(-96) from 2^(-64) turns. -/
def turn64 (p : Nat) : Int := ((p % 2 ^ 64 * 2 ^ 32 : Nat) : Int)

/-- The increment of sample `n` of a sweep in units of 2^(-64) turn (Table 8-5). With Δ1 = 0 the ratio Δ2 / Δ1 has no value
and the increment is free. -/
def sweepDelta (g : GenRec) (n fr : Nat) : Nat :=
  let k := n % g.len
  if g.delta1.toNat = 0 then fr
  else if g.delta2.toNat = 0 then (if k = 0 then g.delta1.toNat * 2 ^ 32 else 0)
  else (Int.fdiv (fxPow (fxDiv g.delta2.toNat g.delta1.toNat) k g.len * g.delta1.toNat) (2 ^ 64)).toNat

/-- Amplitude of Q1.23 on the grid 2^(-96). -/
def ampFx (a : Q23) : Int := q23 a * 2 ^ 73

/-- The sample of a generator at its present index (Table 8-5); `dev` and `up` settle what R243 leaves open. (DEDUCED, log entry 39.) -/
def genSample (x : Gen) (dev : Int) (up : Bool) : Int :=
  match x.cfg with
  | none => 0
  | some g =>
    match g.kind with
    | .sine =>
      let ph : Nat := (g.theta0.toNat * 2 ^ 16 + x.n * g.delta1.toNat) % 2 ^ 32
      nearSample (fxMul (ampFx g.amp) (sinTurn ((ph : Int) * 2 ^ 64))) dev
    | .sweep =>
      if g.rept = false ∧ g.len ≤ x.n then 0
      else nearSample (fxMul (ampFx g.amp) (sinTurn (turn64 x.phase))) dev
    | .multitone =>
      let one (t : Tone) : Int :=
        let n := x.n % g.period
        fxMul (ampFx t.amp) (sinTurn (fxDiv ((t.bin.toNat * n) % g.period : Nat) g.period + (t.phase.toNat : Int) * 2 ^ 80))
      nearSample ((x.tones.map one).sum) dev
    | .noise => clampI (-(2 ^ 23)) (2 ^ 23 - 1) (gridDiv (q23 g.amp * (2 * (x.lfsr / 256 : Nat) - 2 ^ 24)) (2 ^ 24) up)
    | .mls => clampI (-(2 ^ 23)) (2 ^ 23 - 1) (if mlsOut g.order x.lfsr then q23 g.amp else -(q23 g.amp))

/-- One evaluation of a running generator: its sample, and its state for the next. -/
def genAdvance (x : Gen) (dev : Int) (up : Bool) (fr : Nat) : Gen :=
  match x.cfg, x.running with
  | some g, true =>
    { x with
      value := genSample x dev up
      n := x.n + 1
      phase := match g.kind with
        | .sweep => if g.rept = true ∧ (x.n + 1) % g.len = 0 then 0 else (x.phase + sweepDelta g x.n fr) % 2 ^ 64
        | _ => x.phase
      lfsr := match g.kind with
        | .noise => lfsrStep x.lfsr
        | .mls => mlsStep g.order x.lfsr
        | _ => x.lfsr }
  | _, _ => { x with value := 0 }

/-- Whether some tap of a generator serves an inner node: its rate is then Fc (R240). -/
def genInner (d : Dev) (g : Nat) : Bool :=
  anyB d.awl.taps fun _ t => match t with | some x => decide (x.gen = g ∧ x.node ≠ .mixOut) | none => false

/-- Evaluate every generator of a rate: `inner` for Fc, else Fi (R240, R247). -/
def advanceGens (d : Dev) (inner : Bool) : Dev :=
  let on : Bank Bool 8 := tab d.awl.gens fun i g => g.running && (genInner d i.val == inner)
  { d with
    free := d.free + 8
    awl := { d.awl with gens := tab d.awl.gens fun i g =>
      if on[i] then genAdvance g (Config.genDev (d.free + i.val)) (Config.freeBit (d.free + i.val)) (Config.freeNat (d.free + i.val)) else g } }

/-- A non-repeating sweep that has ended stops (R248). -/
def genStopDev (d : Dev) (g : Fin 8) : Dev :=
  let x := d.awl.gens[g]
  match x.cfg with
  | some r =>
    if x.running ∧ r.kind = .sweep ∧ r.rept = false ∧ r.len ≤ x.n then
      { d with awl := { d.awl with gens := upd d.awl.gens g fun y => { y with running := false, value := 0 } } }
    else d
  | none => d

/-! ### Rate converters (R325) -/

/-- Nominal rate in Hz of a code of `TB_STATUS.REFIN_RATE`. -/
def rateHz (code : Nat) : Nat := [0, 32000, 44100, 48000, 88200, 96000, 176400, 192000].getD code 0

/-- A newer input sample at the front of a converter's history. The history holds 260 samples; its last one stands for all
older ones and is 0 only if they are. -/
def pushHist (x : Int) (h : List Int) : List Int :=
  if h = [] ∧ x = 0 then []
  else if h.length < 260 then x :: h
  else x :: (h.take 258 ++ [if h.getD 258 0 ≠ 0 then h.getD 258 0 else h.getD 259 0])

/-- Push a frame into the histories of a port's slots. -/
def pushFrame (n : Nat) (h : List (List Int)) (f : List Int) : List (List Int) :=
  (List.range n).map fun s => pushHist (f.getD s 0) (h.getD s [])

/-- A Q1.31 sample limited to its range. -/
def q31 (x : Int) : Int := clampI (-(2 ^ 31)) (2 ^ 31 - 1) x

/-- Output of a converter: 0 from a history of zeros, otherwise free within what Table 11-2 asks (`convertersMeet`).
(DESIGN CHOICE, log entry 1; DEDUCED, log entry 40.) -/
def convert (key : Nat) (h : List Int) : Int := if h.all (· == 0) then 0 else q31 (Config.converter key h)

/-- Which converter gives a sample, and where the sample lies: an input at `hz` whose newest sample is `acc` / 96,000 of its period old. -/
def inKey (hz acc : Nat) : Nat := hz * 96000 + acc

/-- As `inKey`, for an output at `hz`: its tick comes `p` / `hz` Fi periods after the newest sample at Fi. -/
def outKey (hz p : Nat) : Nat := 2 ^ 65 + hz * 2 ^ 20 + p

/-- The history of a converter that has taken a tone of amplitude `A`, `phi` turns per sample and phase `theta`, in units of 2^(-96) turn. -/
def toneHist (A : Nat) (phi theta : Int) : List Int :=
  (List.range 260).map fun (k : Nat) => roundAway (A * cosTurn (theta - phi * k)) (2 ^ 96)

/-- What Table 11-2 asks of one converter with entry rate `r` and the lower rate `lo`, at `num` / `den` input samples after its newest one:
a passband tone keeps its amplitude within 0.005 dB after the group delay, what else it leaves is 110 dB below it, and so is all of a
stopband tone, each to the last bit of the sample. (DEDUCED, log entry 40.) -/
def ConverterMeets (key r lo num den : Nat) : Prop :=
  ∀ (A phi : Nat) (theta : Int), A < 2 ^ 31 → 2 * phi ≤ 2 ^ 96 →
    let y := Config.converter key (toneHist A phi theta)
    let rest : Int := A * fxDb (-110) 1 + fxOne
    let late := theta + Int.fdiv ((phi : Int) * num) den - Int.fdiv ((phi : Int) * 64 * r) lo
    (phi * r * 10000 ≤ 4535 * lo * 2 ^ 96 →
      ∃ g : Int, fxDb (-5) 1000 ≤ g ∧ g ≤ fxDb 5 1000 ∧ (y * 2 ^ 192 - g * A * cosTurn late).natAbs ≤ (rest * 2 ^ 96).natAbs) ∧
    (lo * 2 ^ 96 ≤ 2 * phi * r → (y * 2 ^ 96).natAbs ≤ rest.natAbs)

/-- What R325 asks of the converters of locked ports and host streams, which a statement about their response takes as its premise: nothing
else is known of `Config.converter`. (DEDUCED, log entry 40.) -/
def convertersMeet : Prop :=
  ∀ hz ∈ [32000, 44100, 48000, 88200, 96000, 176400, 192000],
    (∀ acc < 96000, ConverterMeets (inKey hz acc) hz (min hz 96000) acc 96000) ∧
    (∀ p ≤ hz, ConverterMeets (outKey hz p) 96000 (min hz 96000) p hz)

/-- Input ticks of one Fi period: how many, and the new remainder. -/
def tickCount (hz acc : Nat) : Nat × Nat := ((acc + hz) / 96000, (acc + hz) % 96000)

/-! ### Members of a tick: ports below 0x80, host streams from 0x80 (Table 12-4) -/

/-- The samples of a stream that may be consumed before its next timed write starts. (DEDUCED, log entry 40.) -/
def Stream.avail (s : Stream) : Nat :=
  match s.starts with
  | [] => s.fifo.length
  | x :: _ => min x.ahead s.fifo.length

/-- Drop `n` samples from the front of a stream's FIFO. -/
def Stream.dropFront (s : Stream) (n : Nat) : Stream :=
  { s with fifo := s.fifo.drop n, starts := s.starts.map fun x => { x with ahead := x.ahead - n } }

/-- The converter of a stream takes `v`. -/
def Stream.feed (s : Stream) (v : Int) : Stream := { s with last := v, hist := pushHist v s.hist }

/-- Take the next sample; one with END returns the stream to idle (R331). -/
def Stream.take (s : Stream) : Stream :=
  match s.fifo with
  | [] => s.feed s.last
  | x :: _ => { (s.dropFront 1).feed x.v with running := !x.fin }

/-- Discard one input sample, or the next that comes (R378). -/
def Stream.discard (s : Stream) : Stream := if 2 ≤ s.avail then s.dropFront 1 else { s with discardNext := s.discardNext + 1 }

/-- What a member calls for at a tick: its action, 1 hold or 2 drop, and its kind (R378, Table 12-4). -/
def memberCall (d : Dev) (m : Nat) : Option (Nat × Nat) :=
  if m < 0x80 then
    let s := look d.ports.sap m .reset
    if s.resync ≠ 0 then (if 4 ≤ s.fifo.length then none else some (1, s.resync))
    else if s.fifo = [] then some (1, 3)
    else if s.slipPend = 2 then some (2, 1)
    else if s.slipPend = -2 then some (1, 2)
    else none
  else
    let s := look d.mix.streams (m - 0x80) .reset
    if s.avail = 0 then some (1, 5) else none

/-- Counters of log page 0x03 (R382). -/
def cnt32 (n : Nat) : Nat := satN 0xFFFFFFFF (n + 1)

/-- The port's converter takes frame `f`. -/
def Sap.feed (s : Sap) (f : List Int) : Sap := { s with last := f, hist := pushFrame s.fmt.slots s.hist f }

/-- The converter takes the next frame. -/
def Sap.take (s : Sap) : Sap :=
  match s.fifo with
  | [] => s.feed s.last
  | f :: rest => { s with fifo := rest }.feed f

/-- Discard one frame, or the next that comes. -/
def Sap.discard (s : Sap) : Sap :=
  if 2 ≤ s.fifo.length then { s with fifo := s.fifo.drop 1 } else { s with discardNext := s.discardNext + 1 }

/-- Bits of a frame. -/
def Sap.frameBits (s : Sap) : Nat := s.fmt.slots * s.fmt.width

/-- Measure the fill just before a tick; at every 1,024th tick the sum waits for its evaluation (R366). -/
def Sap.measure (s : Sap) (bitsIn : Nat) : Sap :=
  let x : Int := (s.fifo.length * s.frameBits + min bitsIn s.frameBits : Nat)
  let z := if s.ticks % 1024 = 0 then x else s.fillSum + x
  { s with fillSum := z, ticks := s.ticks + 1, evalSum := if (s.ticks + 1) % 1024 = 0 then some z else s.evalSum }

/-- The slip an evaluation decides from a phase `num / den` in frames (R367): 1 DROP, −1 REPEAT, 0 none. (DEDUCED, log entry 41.) -/
def slipOf (num den last : Int) : Int :=
  if den < 2 * num ∧ (last ≠ -1 ∨ 5 * den < 8 * num) then 1
  else if 2 * num < -den ∧ (last ≠ 1 ∨ 8 * num < -(5 * den)) then -1
  else 0

/-- The evaluation of the last 1,024 ticks that waits (R366, R367); a free port and a master port never slip (R363, R369). (DEDUCED, log
entry 41.) -/
def Sap.evaluate (s : Sap) (up : Bool) : Sap :=
  match s.evalSum with
  | none => s
  | some z =>
    if s.fmt.en && s.running then
      let den : Int := (1024 * s.frameBits : Nat)
      let raw := z - 4 * den
      let num := if s.fmt.out then -raw else raw
      { s with
        evalSum := none
        phase := clampI (-128) 127 (gridDiv (32 * num) den up)
        slipPend := if s.fmt.free || s.fmt.master then 0 else slipOf num den s.lastSlip }
    else { s with evalSum := none }

/-- A slip that an evaluation decided is due at the next tick (R367). -/
def Sap.slipDue (s : Sap) : Sap := if s.slipPend = 1 ∨ s.slipPend = -1 then { s with slipPend := 2 * s.slipPend } else s

/-- An evaluation that a further tick of the same Fi period finds waiting is made before that tick (R367). -/
def Sap.beforeTick (s : Sap) (up : Bool) : Sap := if s.evalSum.isSome then (s.evaluate up).slipDue else s

/-- One tick of an input port (R367 to R371, R378): its own call and the action of its group. (DEDUCED, log entry 41.) -/
def Sap.tick (s0 : Sap) (call : Option (Nat × Nat)) (action : Nat) : Sap :=
  let s := if s0.resync ≠ 0 ∧ 4 ≤ s0.fifo.length then { s0 with resync := 0 } else s0
  let follow := { s with groupActs := cnt32 s.groupActs }
  match action, call with
  | 0, _ => s.take
  | 1, some (1, 2) => { s with repeats := cnt32 s.repeats, lastSlip := -1, slipPend := 0 }.feed s.last
  | 1, some (1, k) =>
    { s with slipPend := 0, standin := cnt32 s.standin, resync := k, underruns := if s.resync = 0 then cnt32 s.underruns else s.underruns }.feed s.last
  | 1, some _ => { follow with slipPend := 0 }.feed s.last
  | 1, none => follow.feed s.last
  | _, some _ => { s.discard with drops := cnt32 s.drops, lastSlip := 1, slipPend := 0 }.take
  | _, none => follow.discard.take

/-- One tick of a running host stream (R330, R378). -/
def Stream.tick (s : Stream) (action : Nat) : Stream :=
  match action with
  | 0 => s.take
  | 1 =>
    if s.avail = 0 then { s with underruns := satN 0xFFFF (s.underruns + 1), underLog := cnt32 s.underLog }.feed s.last
    else s.feed s.last
  | _ => s.discard.take

/-- Whether a member runs. -/
def memberRuns (d : Dev) (m : Nat) : Bool :=
  if m < 0x80 then let s := look d.ports.sap m .reset; s.fmt.en && !s.fmt.out && s.running
  else (look d.mix.streams (m - 0x80) .reset).running

/-- Nominal rate of a member. -/
def memberHz (d : Dev) (m : Nat) : Nat :=
  if m < 0x80 then rateHz (look d.ports.sap m .reset).fmt.rate else rateHz (look d.mix.streams (m - 0x80) .reset).rate

/-- A member's place in its tick sequence. -/
def memberAcc (d : Dev) (m : Nat) : Nat :=
  if m < 0x80 then (look d.ports.sap m .reset).acc else (look d.mix.streams (m - 0x80) .reset).acc

/-- Place a member in a tick sequence. -/
def setAcc (d : Dev) (m a : Nat) : Dev :=
  if m < 0x80 then d.sap m fun s => { s with acc := a } else d.stream (m - 0x80) fun s => { s with acc := a }

/-- The alignment group of a member, its other members included (R376). -/
def groupMembers (g : AlignGroup) : List Nat := (List.range 8).filter (fun p => g.ports.getLsbD p) ++ g.streams.map (· + 0x80)

/-- Where a member that starts running joins: the sequence of its group's running members, else a sequence of its own whose
first tick falls in the period that follows (R377). -/
def joinAcc (d : Dev) (m : Nat) : Nat :=
  let mates := match d.ports.groups.toList.find? fun g => (groupMembers g).contains m with
    | some g => (groupMembers g).filter fun x => x != m && memberRuns d x
    | none => []
  match mates with
  | x :: _ => memberAcc d x
  | [] => if decide (m < 0x80) && (look d.ports.sap m .reset).fmt.free then 96000000 - 1000 * memberHz d m else 96000 - memberHz d m

/-- Tick `j` of the present Fi period of a set of members that share a sequence, with the group's number if it is one (R378 to R380). A
stream that END has returned to idle earlier in the period takes 0 (R331). -/
def tickSet (grp : Option Nat) (all : List Nat) (e : Dev) (j : Nat) : Dev :=
  let ms := all.filter (memberRuns e)
  let d := (all.filter fun m => decide (0x80 ≤ m) && !memberRuns e m).foldl (fun x m => x.stream (m - 0x80) fun s => s.feed 0) e.tick
  let bitsOf (m : Nat) : Nat := (e.ports.bitsIn.getD m []).getD j 0
  let d0 := ms.foldl (fun x m => if m < 0x80 then x.sap m fun s => (s.beforeTick (Config.freeBit e.free)).measure (bitsOf m) else x) d
  let calls := ms.map fun m => (m, memberCall d0 m)
  let called (a : Nat) : Option (Nat × Nat) :=
    calls.findSome? fun c => match c.2 with | some (x, k) => if x = a then some (c.1, k) else none | none => none
  let action := if (called 1).isSome then 1 else if (called 2).isSome then 2 else 0
  let d1 := calls.foldl (fun x c =>
    if c.1 < 0x80 then x.sap c.1 fun s => s.tick c.2 action else x.stream (c.1 - 0x80) fun s => s.tick action) d0
  match grp, called action with
  | some g, some (m, k) =>
    if action = 0 then d1
    else { d1 with ports := { d1.ports with groups := updN d1.ports.groups g fun x =>
      { x with events := cnt32 x.events, lastStc := d.tb.stc, lastKind := k, lastMember := m, lastAction := action } } }
  | _, _ => d1

/-- The frame rate of a free port in mHz for one Fi period (R369): the partner's measured rate, nominal while there is none, within ±1,000
ppm of nominal, and above or below it as the phase asks, by a free amount. (DESIGN CHOICE, log entry 41.) -/
def freeRate (s : Sap) (r : Nat) : Nat :=
  let hz := rateHz s.fmt.rate
  let lo := 999 * hz
  let hi := 1001 * hz
  let b := if s.partMhz = 0 then 1000 * hz else max lo (min hi s.partMhz)
  if 0 < s.phase then b + r % (hi - b + 1) else if s.phase < 0 then b - r % (b - lo + 1) else b

/-- Ticks of one Fi period of a port or stream and its new remainder: a free port's remainder counts in mHz. -/
def memberTicks (d : Dev) (m : Nat) : Nat × Nat :=
  let s := look d.ports.sap m .reset
  if decide (m < 0x80) && s.fmt.free then
    let x := memberAcc d m + freeRate s (Config.freeNat d.free)
    (x / 96000000, x % 96000000)
  else tickCount (memberHz d m) (memberAcc d m)

/-- The ticks of one Fi period of a set of members: those that run keep one sequence. -/
def tickMembers (d : Dev) (grp : Option Nat) (ms : List Nat) : Dev :=
  match ms.filter (memberRuns d) with
  | [] => d
  | m :: rest =>
    let (n, a) := memberTicks d m
    let d1 := (List.range n).foldl (tickSet grp (m :: rest)) d.tick
    (m :: rest).foldl (fun e x => setAcc e x a) d1

/-- A frame that the converter gives an output port at a tick (R366, R371): the samples of its slots. -/
def Sap.outTick (s0 : Sap) (f : List Int) (bitsIn : Nat) : Sap :=
  let s1 := s0.measure bitsIn
  let s2 := if s1.resync = 0 ∧ s1.fifo = [] then { s1 with underruns := cnt32 s1.underruns, resync := 3 }
    else if s1.resync ≠ 0 ∧ 4 ≤ s1.fifo.length then { s1 with resync := 0 } else s1
  if s2.slipPend = 2 then { s2 with drops := cnt32 s2.drops, lastSlip := 1, slipPend := 0 }
  else
    let (s3, g) := if s2.slipPend = -2 then ({ s2 with repeats := cnt32 s2.repeats, lastSlip := -1, slipPend := 0 }, s2.last) else (s2, f)
    if 8 ≤ s3.fifo.length then { s3 with overruns := cnt32 s3.overruns, resync := 4, fifo := [g], last := g }
    else { s3 with fifo := s3.fifo ++ [g], last := g }

/-- The ticks of a running output port in one Fi period, each with the converter's output at its place (R325). -/
def outTicks (d : Dev) (p : Nat) : Dev :=
  let s := look d.ports.sap p .reset
  if s.fmt.en && s.fmt.out && s.running then
    let (n, a) := memberTicks d p
    let key (e : Dev) (j : Nat) : Nat :=
      if s.fmt.free then 2 ^ 66 + e.free else outKey (rateHz s.fmt.rate) (96000 * (j + 1) - memberAcc d p)
    let tick1 (e : Dev) (j : Nat) : Dev :=
      e.tick.sap p fun x =>
        let y := { x with outConv := x.hist.map (convert (key e j)) }
        (y.beforeTick (Config.freeBit e.free)).outTick y.outConv ((e.ports.bitsIn.getD p []).getD j 0)
    setAcc ((List.range n).foldl tick1 d.tick) p a
  else d

/-! ### Timed stream starts (R329) -/

/-- Start the timed writes of a stream whose boundary has come: samples still in the FIFO ahead of the last of them are
discarded and counted. (DEDUCED, log entry 40.) -/
def Stream.starting (s : Stream) (stc : Nat) : Stream :=
  match (s.starts.filter fun x => decide (x.at_ ≤ stc)).getLast? with
  | none => s
  | some x =>
    let n := x.ahead
    let t := s.dropFront n
    { t with starts := t.starts.filter (fun y => decide (stc < y.at_))
             running := true
             overLog := satN 0xFFFFFFFF (t.overLog + n) }

/-- A stream's timed write starts at the boundary of the present period: the stream joins the sequence of its group's running members at
their next tick, and has its first tick in this period where there are none (R329, R377). (DEDUCED, log entry 40.) -/
def startStream (d : Dev) (h : Nat) : Dev :=
  if (look d.mix.streams h .reset).starts.any fun x => decide (x.at_ ≤ d.tb.stc) then
    let a := joinAcc d (0x80 + h)
    d.stream h fun s => { s.starting d.tb.stc with acc := a }
  else d

/-- The streams' starts at the boundary of the present period; those of a stream that the image doesn't enable are gone. -/
def startStreams (d : Dev) : Dev :=
  (List.range 128).foldl startStream
    (d.streamAll fun s => if s.en then s else { s with starts := s.starts.filter fun x => decide (d.tb.stc < x.at_) })

/-- An idle stream delivers 0: its converter runs out. -/
def idleStreams (d : Dev) : Dev :=
  d.streamAll fun s =>
    if s.en && !s.running && decide (s.hist ≠ []) then
      let (n, a) := tickCount (rateHz s.rate) s.acc
      let t := (List.range n).foldl (fun (x : Stream) _ => x.feed 0) { s with acc := a }
      if t.hist.all (· == 0) then { t with hist := [] } else t
    else s

/-- Every tick of the Fi period that opens (R329, R366, R377): the converters take what the FIFOs hold at its boundary, after the
commands and the image that take effect there. -/
def allTicks (d : Dev) : Dev :=
  let d1 := idleStreams (startStreams d)
  let gs := (ixs 16).map fun g => (g.val, groupMembers d1.ports.groups[g])
  let inGroup (m : Nat) : Bool := gs.any fun g => g.2.contains m
  let d2 := gs.foldl (fun e g => tickMembers e (some g.1) g.2) d1
  let alone := (List.range 8 ++ (List.range 128).map (· + 0x80)).filter fun m => !inGroup m
  let d3 := alone.foldl (fun e m => tickMembers e none [m]) d2
  (List.range 8).foldl (fun e p => outTicks e p) d3

/-! ### Source samples and the fixed high-pass -/

/-- A source's sample at Fi before its high-pass (R319, R320). -/
def sourceIn (d : Dev) (code : Nat) : Int :=
  if code < 0x100 then
    let s := look d.ports.sap (code / 32) .reset
    if s.fmt.en && !s.fmt.out && s.running then
      convert (if s.fmt.free then 2 ^ 64 + d.free else inKey (rateHz s.fmt.rate) s.acc) (s.hist.getD (code % 32) [])
    else 0
  else if code < 0x180 then
    let s := look d.mix.streams (code - 0x100) .reset
    if s.en then convert (inKey (rateHz s.rate) s.acc) s.hist else 0
  else if code < 0x188 then (look d.awl.gens (code - 0x180) .reset).value * 256
  else 0

/-- A 48-bit state word (Q9.39). -/
def q48 (x : Int) : Int := clampI (-(2 ^ 47)) (2 ^ 47 - 1) x

/-- One sample of the fixed high-pass with corner code `k`: output in Q1.31 and new states (R323, DESIGN CHOICE: log entry 23). -/
def hpfStep (k : Nat) (x : Int) (z : Int × Int) : Int × Int × Int :=
  let (b0, b1, a1, a2) := hpfCoef k
  let y := q48 (roundAway (b0 * x) (2 ^ 22) + z.1)
  let z1 := q48 (roundAway (b1 * x * 2 ^ 8 - a1 * y) (2 ^ 30) + z.2)
  let z2 := q48 (roundAway (b0 * x * 2 ^ 8 - a2 * y) (2 ^ 30))
  (q31 (roundAway y (2 ^ 8)), z1, z2)

/-- The sources that mix tile `m` reads (R321). -/
def codesRead (i : Image) (m : Nat) : List Nat :=
  ((groupsRead i m).flatMap fun g => [4 * g, 4 * g + 1, 4 * g + 2, 4 * g + 3]).eraseDups

/-- The key of a source's filter states and sample in mix tile `m`: each tile keeps its own (R321). -/
def srcKey (m code : Nat) : Nat := 512 * m + code

/-- A mix tile filters one source for the present period (R321, R324). -/
def filterSource (d : Dev) (m code : Nat) : Dev :=
  let k := srcKey m code
  let (y, z1, z2) := hpfStep (Mem.get d.mix.corners 0 code) (sourceIn d code) (Mem.get d.mix.hpf (0, 0) k)
  { d with mix := { d.mix with hpf := Mem.set d.mix.hpf (0, 0) k (z1, z2), srcNow := Mem.set d.mix.srcNow 0 k y } }

/-- Every mix tile filters the sources of the groups its Fi sequence reads. -/
def filterSources (d : Dev) (i : Image) : Dev :=
  (List.range 4).foldl (fun e m => (codesRead i m).foldl (fun x code => filterSource x m code) e) d

end Sys2Proof.Machine
end

