-- ==== Sys2Proof/Machine/Mix.lean ====
section
/-!
DEFINITION. The mix tiles: terms and bus, gains and trajectories, the fractional delay, the final limiter and the output slots
(R332 to R351), one sample for each Fi period, each step where its stitch stands in the tile's sequence (R87). A mix's bus and delay word
are computed from its terms and gains at its DLY_WR (DESIGN CHOICE: log entry 24).
-/

namespace Sys2Proof.Machine

/-- Replace one mix. -/
def Dev.mixCh (d : Dev) (c : Nat) (f : MixCh → MixCh) : Dev := { d with mix := { d.mix with chs := updN d.mix.chs c f } }

/-- One mix. -/
def mixAt (d : Dev) (c : Nat) : MixCh := look d.mix.chs c .reset

/-! ### Gains and trajectories (R335 to R343) -/

/-- Unity in Q4.20. -/
def unity : Int := 0x100000

/-- A signed Q4.20 value. -/
def q420 (x : Int) : Int := clampI (-(2 ^ 23)) (2 ^ 23 - 1) x

/-- The value of a gain object. -/
def gainGet (d : Dev) (o : GainObj) : Int :=
  match o with
  | .term c t => match (mixAt d c.val).terms[t]? with | some x => x.gain | none => 0
  | .out c => (mixAt d c.val).outGain
  | .group g => d.mix.groups[g].gain

/-- Give a gain object a value. -/
def gainPut (d : Dev) (o : GainObj) (v : Int) : Dev :=
  match o with
  | .term c t => d.mixCh c.val fun x => { x with terms := x.terms.modify t fun y => { y with gain := v } }
  | .out c => d.mixCh c.val fun x => { x with outGain := v }
  | .group g => { d with mix := { d.mix with groups := d.mix.groups.set g ⟨v⟩ } }

/-- The value of a gain object just before the present boundary (R339). -/
def gainBefore (d : Dev) (o : GainObj) : Int := (d.mix.gBefore.lookup o).getD (gainGet d o)

/-- Opcode of GAIN_TRAJECTORY. -/
def opTraj : Nat := 0x25

/-- End the trajectory of an object, if one runs, for a newer change of it (R341). -/
def endTraj (d : Dev) (o : GainObj) : Dev :=
  let (gone, keep) := d.mix.trajs.partition fun t => decide (t.obj = o ∧ t.k < t.steps)
  gone.foldl (fun e t => completeAt e t.ref opTraj stAborted t.start) { d with mix := { d.mix with trajs := keep } }

/-- A change of a gain by a command at the present boundary. -/
def gainChange (d : Dev) (o : GainObj) (v : Int) : Dev :=
  let b := gainBefore d o
  let d1 := endTraj d o
  gainPut { d1 with mix := { d1.mix with gBefore := (o, b) :: d1.mix.gBefore.filter fun p => decide (p.1 ≠ o) } } o v

/-- The sign of an end point of a LOG trajectory that is 0: that of the other end point (R340). With both 0 the spec names no
sign, and it is free. -/
def logEnd (a b : Int) (up : Bool) : Int := if a ≠ 0 then a else if b < 0 then -1 else if 0 < b then 1 else if up then 1 else -1

/-- Step `k` of a trajectory in Q4.20 (R339, R340). -/
def trajValue (t : Traj) (k : Nat) (up : Bool) : Int :=
  if t.steps ≤ k then t.g1
  else if !t.log then q420 (roundAway (t.g0 * t.steps + (t.g1 - t.g0) * k) t.steps)
  else
    let a := logEnd t.g0 t.g1 up
    let b := logEnd t.g1 t.g0 up
    let r := fxPow (fxDiv b.natAbs a.natAbs) k t.steps
    q420 ((if a < 0 then -1 else 1) * roundAway (r * a.natAbs) (2 ^ 96))

/-- The next step of every running trajectory takes effect. -/
def stepTrajs (d : Dev) : Dev :=
  let up := Config.freeBit d.free
  let d1 := d.mix.trajs.foldl (fun e t => if t.k < t.steps then gainPut e t.obj (trajValue t (t.k + 1) up) else e) d.tick
  { d1 with mix := { d1.mix with trajs := d1.mix.trajs.map fun t => { t with k := min t.steps (t.k + 1) } } }

/-- Step S has taken effect, or takes effect now: the trajectory completes (R341). -/
def trajEndDev (d : Dev) (q : QId) (cid : BitVec 16) : Dev :=
  match d.mix.trajs.find? fun t => decide (t.ref.q = q ∧ t.ref.cid = cid) with
  | none => d
  | some t =>
    if t.k + 1 < t.steps then d
    else
      let d1 := if t.k < t.steps then gainPut d t.obj t.g1 else d
      let d2 := { d1 with mix := { d1.mix with trajs := d1.mix.trajs.filter fun x => !sameRef x.ref t.ref } }
      completeAt d2 t.ref opTraj stSuccess t.start

/-! ### The fractional delay (R345 to R348, R582) -/

/-- The eight coefficients in Q2.22 of each of 16 phases (R345), worked out from its formula. -/
def delayTable : List (List Int) := [
  [0, 0, 0, 0, 4194304, 0, 0, 0],
  [3335, -20164, 68886, -209823, 4160944, 246164, -79006, 23968],
  [5596, -36130, 125927, -380944, 4069612, 524857, -165674, 51059],
  [6886, -47804, 170243, -512786, 3923004, 831422, -257019, 80358],
  [7349, -55320, 201608, -606046, 3725393, 1160097, -349467, 110691],
  [7153, -58999, 220394, -662584, 3482437, 1504205, -438956, 140654],
  [6477, -59307, 227475, -685269, 3200942, 1856379, -521057, 168664],
  [5495, -56808, 224130, -677792, 2888575, 2208818, -591125, 193010]] ++ [
  [4365, -52118, 211928, -644448, 2553548, 2553548, -644448, 211928],
  [0, -45899, 192764, -590371, 2206002, 2884892, -676928, 223845],
  [0, -38668, 168102, -519319, 1850188, 3190268, -682984, 226717],
  [0, -31025, 139965, -436803, 1496828, 3465360, -659335, 219313],
  [0, -23443, 110051, -347447, 1153389, 3703852, -602542, 200442],
  [0, -16305, 79891, -255525, 826590, 3900205, -509806, 169253],
  [0, -9901, 50810, -164864, 522294, 4049737, -379083, 125312],
  [0, -4429, 23898, -78773, 245439, 4148692, -209205, 68683]]

/-- A Q5.27 word. -/
def q527 (x : Int) : Int := clampI (-(2 ^ 31)) (2 ^ 31 - 1) x

/-- The read delay of a sample (R348). -/
def slewDelay (x : MixCh) : Nat :=
  if x.slew = 0 then x.tau
  else if x.tauNow < x.tau then min x.tau (x.tauNow + x.slew)
  else max x.tau (x.tauNow - x.slew)

/-- DLY_RD at STC `stc` with delay `tau` in 1/16 sample. -/
def delayRead (line : Mem Int) (size stc tau : Nat) : Int :=
  let i := tau / 16
  let cs := delayTable.getD (tau % 16) []
  let s := ((List.range 8).map fun t => cs.getD t 0 * Mem.get line 0 ((stc + 2 * size - i - t) % size)).sum
  q527 (roundAway s (2 ^ 22))

/-! ### The final limiter (R349, R350) -/

/-- One on the limiter's grid 2^(-64). -/
def limOne : Int := 2 ^ 64

/-- What a limiter needs of one sample, in units of 2^(-64): 1, or T / |x| (R349). (DEDUCED, log entry 42.) -/
def limNeed (t x : Int) : Int := if x = 0 then limOne else min limOne (Int.fdiv (t * 2 ^ 27) x.natAbs)

/-- The least gain that a look-ahead of 48 samples asks for, the oldest of the 49 first. (DEDUCED, log entry 42.) -/
def limAhead (t : Int) : Nat → List Int → Int
  | _, [] => limOne
  | k, x :: xs =>
    let h := limNeed t x
    min (h + Int.fdiv ((limOne - h) * k) 48) (limAhead t (k + 1) xs)

/-- One sample of the limiter: the mix with its gain, window and output. (DEDUCED, log entry 42.) -/
def limitStep (m : MixCh) (x : Int) : MixCh :=
  let w := (x :: m.win).take 49
  let w49 := w ++ List.replicate (49 - w.length) 0
  let t := Int.fdiv (fxDb (-(m.thr : Int)) 100) (2 ^ 32)
  let rho := Int.fdiv (fxDb m.rel 96000) (2 ^ 32)
  let up := Int.fdiv (m.gLim * rho) (2 ^ 64)
  let g := min limOne (min up (limAhead t 0 w49.reverse))
  { m with win := w, gLim := g, out := q31 (roundAway (g * w49.getD 48 0 * 16) (2 ^ 64)) }

/-- `PWM_MIX_STAT.LIM_GR`: 20 log10(1 / g) in 0.25 dB, one of the two neighbouring codes (R350). -/
def gainReduction (g : Int) (up : Bool) : Nat :=
  if g ≤ 0 then 0xFF
  else if limOne ≤ g then 0
  else
    let l := fxLog2 (g * 2 ^ 32)
    (clampI 0 0xFF (gridDiv (-l * 80) fxLog2Ten up)).toNat

/-! ### One sample of a mix -/

/-- Whether the host-absent policy mutes a source (R460). -/
def mutedCode (d : Dev) (code : Nat) : Bool := d.mix.muted && decide (0x100 ≤ code ∧ code < 0x180)

/-- The bus of a mix: terms and what its AWL stitch added, and whether it saturated (R244, R333). (DESIGN CHOICE, log entry 24; DEDUCED, log entry 42.) -/
def busOf (d : Dev) (c : Ch) : Int × Bool :=
  let step (acc : Int × Bool) (p : Int) : Int × Bool := let s := acc.1 + p; (q48 s, acc.2 || decide (q48 s ≠ s))
  let m := d.mix.chs[c]
  let ps := (m.terms.filter fun t => decide (t.code ≠ 0x1FF) && !mutedCode d t.code).map fun t =>
    roundAway (Mem.get d.mix.srcNow 0 (srcKey (c.val / 32) t.code) * t.gain) (2 ^ 12)
  (ps ++ [m.inj]).foldl step (0, false)

/-- The delay word of a bus: output gain and group gain (R334), and whether it saturated. -/
def delayWordOf (d : Dev) (c : Ch) (bus : Int) : Int × Bool :=
  let m := d.mix.chs[c]
  let g := match m.group with | some k => (look d.mix.groups k ⟨unity⟩).gain | none => unity
  let z := roundAway (bus * m.outGain * g) (2 ^ 52)
  (q527 z, decide (q527 z ≠ z))

/-- DLY_WR of one lane: bus, gains and the write at STC's position (R333, R334, R582). (DESIGN CHOICE, log entry 24.) -/
def dlyWrLane (d : Dev) (c : Ch) : Dev :=
  let m := d.mix.chs[c]
  if m.lineSize = 0 then d
  else
    let (bus, bs) := busOf d c
    let (w, gs) := delayWordOf d c bus
    d.mixCh c.val fun x => { x with
      line := Mem.set x.line 0 (d.tb.stc % x.lineSize) w
      delayWord := w
      busSat := if bs then satN 0xFF (x.busSat + 1) else x.busSat
      gainSat := if gs then satN 0xFF (x.gainSat + 1) else x.gainSat }

/-- DLY_RD of one lane, at the read delay in force (R345, R348). -/
def dlyRdLane (d : Dev) (c : Ch) : Dev :=
  let m := d.mix.chs[c]
  if m.lineSize = 0 then d
  else
    let tau := slewDelay m
    let x := if m.delayHold then m.lastDelay else delayRead m.line m.lineSize d.tb.stc tau
    d.mixCh c.val fun y => { y with tauNow := tau, lastDelay := x, delayHold := false }

/-- LIMIT of one lane on the input word `x` (R349, R350). -/
def limitLane (d : Dev) (c : Ch) (x : Int) : Dev :=
  if d.mix.chs[c].lineSize = 0 then d
  else
    let up := Config.freeBit d.free
    d.tick.mixCh c.val fun m => let y := limitStep m x; { y with limGr := gainReduction y.gLim up }

/-- AWL of one lane: the taps at the mix output add to its bus (R244). -/
def mixAwlLane (d : Dev) (c : Ch) : Dev := d.mixCh c.val fun m => { m with inj := roundAway (injectAt d c .mixOut) (2 ^ 4) }

/-- A mix whose tile did not run its period: the delay line has the last sample written once more (R510). -/
def mixLost (d : Dev) (c : Ch) : Dev :=
  d.mixCh c.val fun m => if m.lineSize = 0 then m else
    { m with line := Mem.set m.line 0 (d.tb.stc % m.lineSize) m.delayWord }

/-! ### The mix tiles' sequences -/

/-- Logical mix tile `m`. -/
def mtOf (m : Fin 4) : LTile := ⟨16 + m.val, by omega⟩

/-- Whether a logical tile runs: an image is in force, and its physical tile has loaded and not failed for good. -/
def tileRuns (t : TileState) : Bool := !t.failed && t.loading.isNone

/-- Put a block on the fabric for the next Fi boundary (R33); `ord` counts the XFER_OUT stitches of a pair of tiles. -/
def xferSend (d : Dev) (img : Image) (t : LTile) (s : Stitch) (p : Nat) : Dev :=
  let outs := (img.all t.val).filter fun x => decide (x.type = tyXferOut ∧ x.srcB = s.srcB)
  let ord := (outs.takeWhile fun x => decide (x ≠ s)).length
  let b := Mem.get d.core.tiles[t].data Block.zero s.srcA
  let x : XferBlk := ⟨t.val, s.srcB, ord, b⟩
  if !s.runs p then d
  else
    let rest := d.core.xferNext.filter fun y => !decide (y.src = x.src ∧ y.dst = x.dst ∧ y.ord = x.ord)
    { d with core := { d.core with xferNext := rest ++ [x] } }

/-- Copy the lanes of a stitch from a block. -/
def TileState.putLanes (t : TileState) (s : Stitch) (b : Block) : TileState :=
  s.laneList.foldl (fun u i => u.wr s.dst i (b.lane i)) t

/-- XFER_IN: the block of the same place among the pair's stitches, unless none has come (R34). -/
def xferTake (d : Dev) (img : Image) (t : LTile) (s : Stitch) : Dev :=
  let ins := (img.all t.val).filter fun x => decide (x.type = tyXferIn ∧ x.srcB = s.srcB)
  let ord := (ins.takeWhile fun x => decide (x ≠ s)).length
  match d.core.xferNow.find? fun y => decide (y.src = s.srcB ∧ y.dst = t.val ∧ y.ord = ord) with
  | some y => d.tile t fun u => u.putLanes s y.blk
  | none => d

/-- SH_RD and SH_WR of a block of shared SRAM. -/
def sharedMove (d : Dev) (t : LTile) (s : Stitch) : Dev :=
  let a := s.srcA * 2 ^ 14 + s.srcB
  let b := Mem.get d.core.shared Block.zero a
  if s.type = tyShRd then d.tile t fun u => u.putLanes s b
  else
    let x := Mem.get d.core.tiles[t].data Block.zero s.dst
    let b1 := s.laneList.foldl (fun y i => y.setLane i (x.lane i)) b
    { d with core := { d.core with shared := Mem.set d.core.shared Block.zero a b1 } }

/-- Channel of lane `i` of a block of a mix tile. -/
def mixLaneCh (m : Fin 4) (a i : Nat) : Ch := Fin.ofNat 128 (mtCh m.val a i)

/-- The word of a mix tile's slot. -/
def Slot.mixWord : Slot → Int
  | .q v => v
  | _ => 0

/-- MAC, MUL, ADD, NORM, SAT and TABLE on the words of one lane of a mix tile: a product takes SRCB as a gain in Q4.20, a sum keeps 48 bits,
and NORM has nothing to move in words without an exponent. (DESIGN CHOICE, log entry 24.) -/
def mixOp (t : TileState) (s : Stitch) (i : Nat) : TileState :=
  let a := (t.rd s.srcA i).mixWord
  let b := (t.rd s.srcB i).mixWord
  let o := (t.rd s.dst i).mixWord
  let put (v : Int) : TileState := t.wr s.dst i (.q v)
  if s.type = tyMac then put (q48 (o + roundAway (a * b) (2 ^ 12)))
  else if s.type = tyMul then put (q527 (roundAway (a * b) (2 ^ 32)))
  else if s.type = tyAdd then put (q48 (if s.v 0 then a - b else a + b))
  else if s.type = tySat then put (clampI a (t.rd (s.srcA + 1) i).mixWord o)
  else if s.type = tyTable then t.wr s.dst i (t.rd s.srcA i)
  else t

/-- BIQUAD on one lane of a mix tile, in transposed direct form II with coefficients in Q2.30 and states of 48 bits. (DESIGN CHOICE, log
entry 24.) -/
def mixBiquad (t : TileState) (s : Stitch) (i : Nat) : TileState :=
  let c (j : Nat) : Int := (t.rd (s.srcB + j) i).mixWord
  let z (j : Nat) : Int := (t.rd (s.dst + j) i).mixWord
  let x := (t.rd s.srcA i).mixWord
  let y := q48 (roundAway (c 0 * x) (2 ^ 30) + z 1)
  let z1 := q48 (roundAway (c 1 * x - c 3 * y) (2 ^ 30) + z 2)
  let z2 := q48 (roundAway (c 2 * x - c 4 * y) (2 ^ 30))
  t.wrs s.dst i [.q y, .q z1, .q z2]

/-- One stitch of a mix tile's Fi sequence: its enabled lanes, whose blocks take the words of their mixes (R87, R579). -/
def mixStitch (img : Image) (m : Fin 4) (p : Nat) (d : Dev) (s : Stitch) : Dev :=
  let t := mtOf m
  let each (a : Nat) (f : Dev → Ch → Dev) : Dev := s.laneList.foldl (fun e i => f e (mixLaneCh m a i)) d
  let put (a : Nat) (f : MixCh → Int) (e : Dev) : Dev := e.tile t fun u =>
    s.laneList.foldl (fun v i => v.wr a i (.q (f (look e.mix.chs (mixLaneCh m a i).val .reset)))) u
  let lanes (f : TileState → Nat → TileState) : Dev := d.tile t fun u => s.laneList.foldl f u
  if !s.runs p then d
  else if s.type = tySrcIn then lanes fun v i => v.wr s.dst i (.q (Mem.get d.mix.srcNow 0 (srcKey m.val (4 * s.srcA + i))))
  else if s.type = tyAwl then each s.dst mixAwlLane
  else if s.type = tyDlyWr then put s.srcA (·.delayWord) (each s.srcA dlyWrLane)
  else if s.type = tyDlyRd then put s.dst (·.lastDelay) (each s.dst dlyRdLane)
  else if s.type = tyLimit then
    put s.dst (·.out) (s.laneList.foldl (fun e i => limitLane e (mixLaneCh m s.dst i) (e.core.tiles[t].rd s.srcA i).mixWord) d)
  else if s.type = tyXferOut then xferSend d img t s p
  else if s.type = tyXferIn then xferTake d img t s
  else if s.type = tyShRd ∨ s.type = tyShWr then sharedMove d t s
  else if s.type = tyBiquad then lanes fun v i => mixBiquad v s i
  else lanes fun v i => mixOp v s i

/-- The channels of a mix tile. (DESIGN CHOICE, log entry 24.) -/
def mixChans (m : Fin 4) : List Ch := (ixs 128).filter fun c => decide (c.val / 32 = m.val)

/-- The Fi sequence of one mix tile for the period that ends: not run while its tile skips it (R90) or loads (R510). (DESIGN CHOICE, log entry 24.) -/
def mixTileRun (img : Image) (d : Dev) (m : Fin 4) : Dev :=
  let t := d.core.tiles[mtOf m]
  if t.skipFi then d.tile (mtOf m) fun u => { u with skipFi := false, lateNext := true }
  else if t.failed then d
  else if t.loading.isSome then (forCh (mixChans m) mixLost d).tile (mtOf m) fun u => { u with lateNext := true }
  else
    let d1 := forCh (mixChans m) (fun e c => e.mixCh c.val fun x => { x with inj := 0 }) d
    (img.fi (16 + m.val)).foldl (mixStitch img m (d.tb.stc % 32)) d1

/-! ### Output slots (R351, R375) -/

/-- The sample of slot `k` of port `p` at Fi: that of its tap; from a mix tile whose work is late or lost the one before (R89, R351). -/
def tapSample (d : Dev) (p k : Nat) (h : List (List Int)) : Int :=
  match Mem.find d.mix.taps (32 * p + k) with
  | some (c, before) =>
    let m := mixAt d c
    if (look d.core.tiles (16 + c / 32) (TileState.reset 0)).lateNext then (h.getD k []).headD 0
    else if before then q31 (m.delayWord * 16) else m.out
  | none => 0

/-- The output converters take the samples of the present period; each tick of the next period takes a frame from them. -/
def feedOutputs (d : Dev) : Dev :=
  { d with ports := { d.ports with sap := tab d.ports.sap fun p s =>
      if s.fmt.en && s.fmt.out then
        { s with hist := pushFrame s.fmt.slots s.hist ((List.range s.fmt.slots).map fun k => tapSample d p.val k s.hist) }
      else s } }

/-- The work of the mix tiles in the Fi period that ends: generators, trajectories, filters, mixes and output slots. -/
def mixPeriod (d : Dev) : Dev :=
  let d1 := advanceGens d false
  match d1.core.image with
  | none => d1
  | some img =>
    let d2 := stepTrajs d1
    let d3 := filterSources d2 img
    let d4 := (ixs 4).foldl (mixTileRun img) d3
    { feedOutputs d4 with free := d4.free + 1 }

end Sys2Proof.Machine
end

