-- ==== Sys2Proof/Machine/Prot.lean ====
section
/-!
DEFINITION. Release, safe stop, guard release, latches and the short check (chapters 5 and 6) as operations on the
part.
-/

namespace Sys2Proof.Machine

/-- Opcode of CHANNEL_CONTROL. -/
def opChannel : Nat := 0x28

/-! ### Stops that wait and releases that wait -/

/-- Complete every CHANNEL_CONTROL stop whose channels are all unreleased (Table 13-9). -/
def settleStops (d : Dev) : Dev :=
  let gone (cs : List Nat) := cs.all fun c => !(look d.chs c .reset).prot.released
  let fin := d.stops.filter fun s => gone s.2.1
  fin.foldl (fun e s => completeAt e s.1 opChannel stSuccess s.2.2) { d with stops := d.stops.filter fun s => !gone s.2.1 }

/-! ### Safe stop (R164 to R167) -/

/-- The effect of a safe-stop trigger on one channel (R164, R128, R135): a released channel waits for its carrier
boundary, manual drive of an unreleased channel completes its manual period, a halted channel's switches turn off. An ENABLE that an
unreleased channel has accepted and that waits starts no manual drive after the trigger (R128). -/
def triggerChan (x : Chan) : Chan :=
  let y := if x.mod.halted then { x with mod := gatesOff x.mod } else x
  if x.prot.released then
    if x.prot.drive = .safeStop then y else { y with prot := { y.prot with ssPend := true } }
  else
    let z := { y with mod := { y.mod with manPend := if y.mod.manPend = some true then none else y.mod.manPend } }
    if x.prot.drive = .manual then { z with mod := { z.mod with exitHold := 1 } } else z

/-- Trigger a safe stop of a channel and of the other half of its pair (R166). -/
def triggerStop (d : Dev) (c : Ch) : Dev := forCh (halves d c) (fun e h => e.ch h triggerChan) d

/-- Open the safe stop that waits at a carrier boundary (R164): the ramp is abandoned. -/
def openStop (x : Chan) : Chan :=
  if x.prot.ssPend then { x with prot := { x.prot with drive := .safeStop, ssPend := false, ssCount := 0, sweep := false } } else x

/-! ### The short check (R194 to R197) -/

/-- End the short check of a channel's pair: both switches off, the cause written, the latch cleared on a pass, a
history record, and every clear that waits completed (R195, R197). -/
def checkFinish (d : Dev) (c : Ch) (cause status : Nat) : Dev :=
  let l := lead d c
  match d.chs[l].prot.check with
  | none => d
  | some k =>
    let pass := decide (cause = 0x0C)
    let d1 := forCh (halves d l) (fun e h => e.ch h fun x =>
      let y := chanOff x
      { y with prot := { y.prot with check := none, cause := cause
                                     latched := !pass
                                     tripAt := if pass then [] else y.prot.tripAt
                                     dcNeg := if pass then none else y.prot.dcNeg } }) d
    let d2 := hist d1 l.val cause 0 false
    k.refs.foldl (fun e r => completeAt e r opChannel status k.startStc) d2

/-- Abandon a short check (R197). -/
def checkAbandon (d : Dev) (c : Ch) : Dev := checkFinish d c 0x0D stNotReady

/-- What a guard release of every channel does to a channel's short check and measurement (R197, R310). -/
def dropWork (d : Dev) (c : Ch) : Dev := measStop (checkAbandon d c) c stNotReady

/-! ### Guard release and latch (R176, R181, R197) -/

/-- Guard release of one channel: both switches off at once, unreleased (R181). -/
def guardOff (d : Dev) (c : Ch) : Dev := d.ch c chanOff

/-- Guard release of every channel with one history record (Table 6-2); checks and measurements end. (DEDUCED, log entry 65.) -/
def releaseAll (d : Dev) (cause : Nat) : Dev :=
  let d1 := forCh (ixs 128) dropWork d
  settleStops (hist (d1.chAll fun _ x => chanOff x) 0xFF cause 0 false)

/-- Latch a channel and the other half of its pair with one cause (R197). A channel latched already keeps its first
cause, and the further cause enters the history only. (DEDUCED, log entry 17; DEDUCED, log entry 65.) -/
def latch (d : Dev) (c : Ch) (cause detail : Nat) (evt : Nat) : Dev :=
  let was := d.chs[c].prot.latched
  let d1 := forCh (halves d c) (fun e h => e.ch h fun x =>
    let y := chanOff x
    { y with prot := { y.prot with latched := true, cause := if y.prot.latched then y.prot.cause else cause } }) d
  settleStops (setGrd (hist (measStop d1 c stLatched) c.val cause detail (!was)) evt)

/-- A DC or carrier-loss latch: a short check of the channel fails with that cause (R197). (DEDUCED, log entry 17; DEDUCED, log entry 65.) -/
def guardLatch (d : Dev) (c : Ch) (cause : Nat) (evt : Nat) : Dev :=
  if d.chs[lead d c].prot.check.isSome then
    settleStops (setGrd (checkFinish d c cause stLatched) evt)
  else latch d c cause 0 evt

/-! ### Outside stops: SAFE#, PRSNT_EARLY, TRIP pins -/

/-- Start a safe stop of a list of channels from outside: checks are abandoned, measurements end in a safe stop (R166, R197, R310). -/
def stopFrom (d : Dev) (cs : List Ch) : Dev :=
  settleStops (forCh cs (fun e c => triggerStop (measOutside (checkAbandon e c) c) c) d)

/-- The channels of a TRIP pin's group mask. -/
def maskChans (d : Dev) (p : Pin) : List Ch := (ixs 128).filter fun c => (d.guard.tripMask.getD p.val []).getD c.val false

/-! ### The hot-swap gates (R533) -/

/-- Turn HSG_P and HSG_N off and mark precharge as not complete; a failed precharge stays failed. (DEDUCED, log entry 18.) -/
def hsgOff (d : Dev) : Dev :=
  { d with rails := { d.rails with preState := if d.rails.preState = 5 then 5 else 0, stageP := 0, stageN := 0
                                   stage3Fi := 0 } }

/-! ### Release (R161 to R163, R196, R581) -/

/-- Channels of a release group in the image in force. -/
def groupChans (d : Dev) (g : RGroup) : List Ch :=
  if imageOn d then (ixs 128).filter fun c => decide (d.chs[c].cfg.relGroup = some g.val) else []

/-- The NOT_READY conditions of R161. -/
def releaseRefused (d : Dev) (g : RGroup) : Bool :=
  !imageOn d || !preDone d || !d.rails.okLast || d.guard.safe || !d.guard.prsnt || d.guard.thermLatch
    || (groupChans d g).any (tripBlocks d)

/-- Whether a channel is in safe stop, or its trigger waits for the carrier boundary. -/
def inStop (x : Chan) : Bool := decide (x.prot.drive = .safeStop) || x.prot.ssPend

/-- Leave a measurement's drive for the release that ends it: from half duty, as any release (R162, R310). -/
def leaveMeasure (x : Chan) : Chan :=
  { x with
    mod := { x.mod with pending := halfDuty, shadow := halfDuty, shadowNew := true, handoff := [], nearPrev := none }
    prot := { x.prot with drive := .off, ssPend := false, ssCount := 0, sweep := false } }

/-- One measured channel leaves its measurement's drive for a release, its INNER blocks zeroed (R310). -/
def leaveDrive (d : Dev) (h : Ch) : Dev :=
  if d.chs[h].prot.drive = .measure then
    (match d.core.image with
      | none => d
      | some img => d.tile (etOf h) fun t => zeroInnerBut (fun k => decide (k ≠ h)) t (etOf h) (img.blk (etOf h).val)).ch h leaveMeasure
  else d

/-- A measurement that the release of its group ends at the present boundary: ABORTED, with the INNER blocks zeroed, so that the loop
starts with a ramp (R163, R310). -/
def measRelease (d : Dev) (c : Ch) : Dev :=
  let l := lead d c
  match d.chs[l].meas with
  | none => d
  | some m => measComplete (forCh (halves d l) leaveDrive d) l m stAborted

/-- Release one channel at the present boundary: its ramp starts as its loop initialises (R162, R163, R214); manual
modulation goes on, an accepted change of ENABLE with it, or starts at this carrier boundary where its ENABLE is 1 (R127, R128); a
measurement of it ends ABORTED (R310). (DEDUCED, log entry 70.) -/
def releaseChan (d : Dev) (c : Ch) : Dev :=
  let d1 := measRelease d c
  let man := d.chs[lead d c].mod.manEnable
  bindRecord (d1.ch c fun x =>
    let on := decide (x.prot.drive = .manual)
    { x with
      lost := false
      prot := { x.prot with released := true, drive := if on then .manual else .loop }
      mod := { x.mod with manPend := (if on then x.mod.manPend else if man then some true else none), exitHold := if on then x.mod.exitHold else 0 } }) c

/-- The ramp of a channel's group runs again where its inner loop restarts at zero (R97, R131, Table 5-6). (DEDUCED, log entry 70.) -/
def rampAgain (d : Dev) (c : Ch) : Dev :=
  match d.chs[c].cfg.relGroup with
  | some g => if d.chs[c].prot.released then { d with groupRamp := updN d.groupRamp g fun _ => some 0 } else d
  | none => d

/-- The outcome of a release at the present boundary: `none` while a channel of the group is in safe stop, otherwise
the part and the status (R161, R196). (DEDUCED, log entry 53; DEDUCED, log entry 68.) -/
def releaseGroupNow (d : Dev) (g : RGroup) : Option (Dev × Nat) :=
  let cs := groupChans d g
  if releaseRefused d g then some (d, stNotReady)
  else if cs.any fun c => inStop d.chs[c] then none
  else if cs.isEmpty then some (d, stField)
  else
    let bad (c : Ch) : Bool := (halves d c).any fun h => d.chs[h].prot.latched || decide (d.chs[h].prot.oos ≠ 0)
    let go := cs.filter fun c => !bad c && !d.chs[c].prot.released
    let d1 := forCh go releaseChan (forCh cs (fun e c => e.ch c fun x => { x with conf := true }) d)
    let d2 := { d1 with groupRel := d1.groupRel.set g true
                        groupRamp := if go.isEmpty then d1.groupRamp else d1.groupRamp.set g (some 0) }
    some (d2, if cs.any bad then stLatched else stSuccess)

/-- CHANNEL_CONTROL release of a group at the present Fi boundary; while a channel of the group is in safe stop the
release waits (R161). (DEDUCED, log entry 68.) -/
def doRelease (d : Dev) (r : CmdRef) (g : RGroup) : Dev :=
  match releaseGroupNow d g with
  | none => { d with relWait := d.relWait ++ [(r, g.val)] }
  | some (d1, st) => completeAt d1 r opChannel st d.tb.stc

/-- Whether a release that waits for a safe stop may run: no channel of its group is in safe stop any more (R161). -/
def releaseReady (d : Dev) (w : CmdRef × Nat) : Bool :=
  match finOf 32 w.2 with
  | some g => !(groupChans d g).any fun c => inStop d.chs[c]
  | none => false

/-- A release that waited runs at the present boundary. (DEDUCED, log entry 68.) -/
def retryRelease (d : Dev) (w : CmdRef × Nat) : Dev :=
  match finOf 32 w.2 with
  | some g => doRelease { d with relWait := d.relWait.erase w } w.1 g
  | none => d

/-! ### CHANNEL_CONTROL stops and clears -/

/-- CHANNEL_CONTROL stop of a list of channels at the present boundary: completes when all are unreleased; a short
check goes on (R197, R414). -/
def doStop (d : Dev) (r : CmdRef) (cs : List Ch) : Dev :=
  let all := cs.flatMap (halves d)
  let d0 := forCh all (fun e c => e.ch c fun x => { x with conf := false }) d
  let d1 := forCh cs (fun e c => if e.chs[c].prot.check.isSome then e else triggerStop e c) d0
  settleStops { d1 with stops := d1.stops ++ [(r, all.map (·.val), d.tb.stc)] }

/-- CHANNEL_CONTROL stop of a group: also ends the group's release (R581). -/
def doStopGroup (d : Dev) (r : CmdRef) (g : RGroup) : Dev :=
  let cs := groupChans d g
  if imageOn d = false then refuse d r opChannel stNotReady
  else doStop { d with groupRel := d.groupRel.set g false, groupRamp := d.groupRamp.set g none } r cs

/-- Whether a clear of the channel is refused (R193). -/
def clearRefused (d : Dev) (c : Ch) : Bool :=
  !imageOn d || !preDone d || !railsOk d || d.guard.safe || d.guard.thermLatch || !d.guard.prsnt || tripBlocks d c
    || (halves d c).any fun h => d.chs[h].mod.halted

/-- Whether a channel, or the other half of its pair, is latched (R197). -/
def latchedPair (d : Dev) (c : Ch) : Bool := (halves d c).any fun h => d.chs[h].prot.latched

/-- A clear of a channel (R192 to R194, R197), with the command that waits for its outcome, if any: a latch of either half of a pair
is a latch of both. The check's class 1 limit is the lower of the channel's and 2.0 A. (DEDUCED, log entry 32.) -/
def doClear (d : Dev) (r : Option CmdRef) (c : Ch) : Dev :=
  let l := lead d c
  let fin (e : Dev) (st : Nat) : Dev := match r with | some q => completeAt e q opChannel st e.tb.stc | none => e
  if !latchedPair d c then fin d stSuccess
  else match d.chs[l].prot.check with
    | some k => d.ch l fun x => { x with prot := { x.prot with check := some { k with refs := k.refs ++ r.toList } } }
    | none =>
      if clearRefused d l then fin (hist d c.val 0x0E 0 false) stNotReady
      else forCh (halves d l) (fun e h => e.ch h fun x =>
        { x with prot := { x.prot with
          drive := .check
          check := some ⟨1, min x.cfg.ilim 40, false, false, 0, 0, 0, 0, d.tb.stc, if h = l then r.toList else []⟩ } }) d

/-! ### Steps of the short check -/

/-- Set the step of a running check on both halves. (DEDUCED, log entry 32.) -/
def checkStep (d : Dev) (c : Ch) (f : Check → Check) : Dev :=
  forCh (halves d c) (fun e h => e.ch h fun x =>
    { x with prot := { x.prot with check := x.prot.check.map f, ssCount := 0 } }) d

/-- Whether a half of the pair meets `p` in its running check. -/
def checkAny (d : Dev) (c : Ch) (p : Check → Bool) : Bool :=
  (halves d c).any fun h => match d.chs[h].prot.check with | some k => p k | none => false

/-- End of the 10 ms of observation, 960 Fi periods: fails with cause 0x0B, or starts switching (R194, step 1). -/
def checkObserved (d : Dev) (c : Ch) : Dev :=
  let l := lead d c
  match d.chs[l].prot.check with
  | none => d
  | some k =>
    if k.step ≠ 1 ∨ k.fi < 960 then d
    else if checkAny d l (·.driven) then checkFinish d l 0x0B stLatched
    else checkStep d l fun k => { k with step := 2, fi := 0, sum := 0, cnt := 0, tripped := false }

/-- What the drive says (R194, step 3), from the current sense sum of its last 10 ms in units of 10 A / 2^23. -/
def checkJudge (k : Check) (tripped : Bool) : Nat :=
  if tripped then 0x0A
  else if (k.cnt : Int) * 2 ^ 23 < 100 * k.sum then 0x0A
  else if 1000 * k.sum < -((k.cnt : Int) * 2 ^ 23) then 0x0B
  else 0x0C

/-- End of the 20 ms of drive, 1,920 Fi periods: judges and runs the half-duty ending (R194, steps 3 and 4). -/
def checkDriven (d : Dev) (c : Ch) : Dev :=
  let l := lead d c
  match d.chs[l].prot.check with
  | none => d
  | some k =>
    if k.step ≠ 2 ∨ k.fi < 1920 then d
    else checkStep d l fun j => { j with step := 4, outcome := checkJudge k (checkAny d l (·.tripped)) }

/-- End of the half-duty ending of a check: the outcome takes effect (R195). -/
def checkEnded (d : Dev) (c : Ch) : Dev :=
  let l := lead d c
  match d.chs[l].prot.check with
  | none => d
  | some k =>
    if k.step ≠ 4 ∨ !(halves d l).all fun h => decide (16 ≤ d.chs[h].prot.ssCount) then d
    else checkFinish d l k.outcome (if k.outcome = 0x0C then stSuccess else stLatched)

/-! ### Class 1 (R172 to R177) -/

/-- A class 1 trip of a channel at fine step `pos`, the low-side switch for `low`, at an inductor current of `ma` mA in the direction of
that switch: its comparator fires above the limit in force (R172, R173). (DEDUCED, log entry 13.) -/
def class1 (d : Dev) (c : Ch) (low : Bool) (pos ma : Nat) : Dev :=
  let x := d.chs[c]
  if (if low then x.mod.ls else x.mod.hs) && unblanked x pos && decide (50 * classLimit x < ma) then
    let p := countTrip x.prot
    let n := winCount p x.cfg.tripWindow
    let d1 := d.ch c fun x =>
      { x with prot := { p with check := p.check.map fun k => if k.step = 2 then { k with tripped := true } else k }
               mod := tripGates x.mod low pos }
    let d2 := match d.chs[lead d c].meas with
      | some m => d1.ch (lead d c) fun x => { x with meas := some { m with tripped := true } }
      | none => d1
    if x.cfg.tripCount ≤ n then
      if x.prot.latched then setGrd (hist d2 c.val 1 (satN 0xFF n) false) 5
      else latch d2 c 1 (satN 0xFF n) 5
    else d2
  else d

end Sys2Proof.Machine
end

