-- ==== Sys2Proof/Machine/Modulator.lean ====
section
/-!
DEFINITION. The commands of the modulator: take-ups, gate edges, counter events, manual modulation and the debug halt
(chapter 4).
-/

namespace Sys2Proof.Machine

/-- Run an operation of the part as a command's effect: everything but the queue. (DESIGN CHOICE, log entry 4.) -/
def onDev (f : Dev → Dev) (s : State) : Host.Outcome State Fault Refusal := .next { s with dev := f s.dev }

/-! ### Take-ups -/

/-- Whether a channel runs one of the half-duty endings of 16 periods (R164, R194, R289). -/
def halfEnding (d : Dev) (c : Ch) : Bool :=
  let x := d.chs[c]
  match x.prot.drive with
  | .safeStop => true
  | .check => match x.prot.check with | some k => decide (k.step = 4) | none => false
  | .measure => match d.chs[lead d c].meas with | some m => decide (m.step = 7) | none => false
  | _ => false

/-- Mean voltage in mV that an open-loop step of a measurement asks of a channel's switch node: 100 in the DC step, 300
in the CABLE step, split over a bridged pair (R289, R291, R293). -/
def measMv (d : Dev) (c : Ch) : Option Int :=
  match d.chs[lead d c].meas with
  | none => none
  | some m =>
    let v : Int := if m.step = 2 then 100 else 300
    if m.step = 2 ∨ m.step = 3 then
      some (if bridgedB d c then (if c.val % 2 = 1 then -(v / 2) else v / 2) else v)
    else none

/-- The word a channel takes up at count 0, whether feed-forward applies to it, and the period (R122, R129, R164, R194,
R291). An open-loop step that has ended keeps its duty until the safe stop that ends it opens. -/
def takeSource (d : Dev) (c : Ch) (up : Bool) : Nat × Bool × Nat :=
  let x := d.chs[c]
  let m := x.mod
  let man := d.chs[lead d c].mod
  let ffOwn := if m.manual then man.manFF else x.cfg.ffEn
  let p := if m.manual then m.pendPeriod else 256
  if halfEnding d c then (2 ^ 22, ffOwn, p)
  else match x.prot.drive with
    | .check => (checkWord x.cfg.ffRef (checkMv x (decide (c.val % 2 = 1))) up, true, 256)
    | .measure => match measMv d c with
      | some v => (checkWord x.cfg.ffRef v up, true, 256)
      | none => if x.prot.sweep then (wordMag m.pending, x.cfg.ffEn, 256) else (m.duty.toNat, false, 256)
    | .manual => (wordMag m.pending, man.manFF, m.pendPeriod)
    | _ => (wordMag m.pending, x.cfg.ffEn, 256)

/-- Whether the channel's duty word is taken up at count 128 instead of count 0 (R117, R129). -/
def midMode (d : Dev) (c : Ch) : Bool :=
  let x := d.chs[c]
  x.cfg.updMid && (decide (x.prot.drive = .loop) || decide (x.prot.drive = .off) ||
    (decide (x.prot.drive = .measure) && x.prot.sweep))

/-- Add the word taken up to a CABLE step's mean of V_sw, of each half with its sign (R293). (DEDUCED, log entry 25.) -/
def measSw (d : Dev) (c : Ch) (w : Nat) : Dev :=
  let l := lead d c
  match d.chs[l].meas with
  | none => d
  | some m =>
    if m.step = 3 ∧ 960 ≤ m.fi then
      let u := ((w : Int) - 2 ^ 22) * d.chs[c].cfg.ffRef
      d.ch l fun x => { x with meas := some { m with
        sumSw := m.sumSw + (if c = l then u else -u), cntSw := if c = l then m.cntSw + 1 else m.cntSw } }
    else d

/-- A manual period that ends after an exit (R128, R131): an unreleased channel is off, and a change of ENABLE accepted meanwhile still
waits; a released one holds both switches off until a further count 0, its next one under R104, from which it runs on the words of an
inner loop at zero state. Where the end itself falls on a count 0 of R104, as after periods that add up to whole carrier periods, the
model still waits for the next one (DESIGN CHOICE, log entry 15: the spec does not say which is meant). (DEDUCED, log entry 15.) -/
def manualExit (x : Chan) : Chan :=
  if !x.prot.released then
    let y := chanOff x
    { y with mod := { y.mod with manPend := x.mod.manPend, phase := 0 } }
  else
    { x with
      mod := { gatesOff x.mod with
        manual := false, period := 256, pendPeriod := 256, pending := halfDuty, shadow := halfDuty, shadowNew := true
        nearPrev := none, tripPend := false, exitHold := 2, phase := 0 }
      prot := { x.prot with drive := .loop } }

/-- The take-up of a channel at count 0: its word, or for the odd half of a bridged pair in manual modulation the complement of the even
half's. (DEDUCED, log entry 15.) -/
def takeUpMod (d : Dev) (c : Ch) (r0 r1 r2 : Bool) : Mod :=
  let x := d.chs[c]
  if x.prot.drive = .manual ∧ bridgedB d c = true ∧ c.val % 2 = 1 then
    let m := takeOdd x d.chs[lead d c].mod r2
    { m with pendPeriod := m.period }
  else
    let (w, ff, p) := takeSource d c r0
    takeWord x w ff p r1 r2

/-- The period of a channel whose count 0 this is, once its mode is settled; `first` marks the count 0 under R104 that ends an exit from
manual modulation, at which a channel set for mid-period update takes up an inner-loop word as well (R131). -/
def takePeriod (d : Dev) (c : Ch) (first : Bool) : Dev :=
  let bitv (k : Nat) : Bool := Config.freeBit (d.free + k)
  let d0 := d.ticks 4
  let man := decide (d0.chs[c].prot.drive = .manual)
  let rail := d0.power[tileOf c].rail
  let d1 := if man then d0.ch c fun x =>
      { x with mod := { manualReload x.mod (bitv 0) (bitv 3) with
          pendRails := if accepts x.mod (bitv 0) then rail else x.mod.pendRails } }
    else d0
  if midMode d1 c && !first then d1.ch c fun x => startPeriod x { x.mod with period := 256 }
  else
    let m := takeUpMod d1 c (bitv 0) (bitv 1) (bitv 2)
    let d2 := if halfEnding d1 c then d1.ch c fun x => { x with prot := { x.prot with ssCount := x.prot.ssCount + 1 } } else d1
    let d3 := d2.ch c fun x =>
      let y := startPeriod x m
      { y with mod := { y.mod with phase := if man then (y.mod.phase + m.period) % 256 else y.mod.phase } }
    capPoint (measSw d3 c (takeSource d1 c (bitv 0)).1) .duty .carrier c (q23 m.duty) m.flags.trip m.flags.range

/-- Count 0 of a channel (R103, R109, R112, R117, R123, R129, R164). -/
def takeUpDev (d : Dev) (c : Ch) : Dev :=
  let x := d.chs[c]
  if !x.mod.counting || x.mod.halted then d
  else
    let d1 := eviCount (d.ch c countZero) 1 c.val
    if halfEnding d1 c && decide (16 ≤ x.prot.ssCount) then
      if x.prot.drive = .safeStop then settleStops (d1.ch c chanOff)
      else d1.ch c fun x => { x with mod := gatesOff x.mod }
    else if x.mod.exitHold = 1 ∧ x.prot.drive = .manual then
      let d2 := rampAgain (d1.ch c manualExit) c
      if d2.chs[c].mod.exitHold = 2 then d2 else takePeriod d2 c false
    else if x.mod.exitHold ≠ 0 then takePeriod (d1.ch c fun x => { x with mod := { x.mod with exitHold := 0 } }) c true
    else takePeriod d1 c false

/-- TAKE_UP (R109). -/
def execTakeUp (c : Ch) (s : State) : Host.Outcome State Fault Refusal := onDev (fun d => takeUpDev d c) s

/-- Count 128 of a channel set for mid-period update (R117, R118, R121). -/
def midTakeUpDev (d : Dev) (c : Ch) : Dev :=
  let x := d.chs[c]
  if !x.mod.counting || x.mod.halted || !midMode d c || decide (x.mod.exitHold ≠ 0) then d
  else
    let r1 := Config.freeBit d.free
    let r2 := Config.freeBit (d.free + 1)
    let d1 := (d.ticks 2).ch c fun x =>
      let w := takeWord x (wordMag x.mod.pending) x.cfg.ffEn 256 r1 r2
      let m := { w with flags := midFlags w.flags x.mod x.mod.edge w.edge w.dead }
      { x with mod := if switching x then midUpdate m m.edge m.dead else m }
    let f := d1.chs[c].mod.flags
    capPoint d1 .duty .carrier c (q23 d1.chs[c].mod.duty) f.trip f.range

/-- MID_PERIOD_TAKE_UP (R121). -/
def execMidPeriodTakeUp (c : Ch) (s : State) : Host.Outcome State Fault Refusal := onDev (fun d => midTakeUpDev d c) s

/-- The earliest programmed edge of the present period happens (R110, R111). (DESIGN CHOICE, log entry 4.) -/
def gateEdgeDev (d : Dev) (c : Ch) : Dev :=
  if d.chs[c].mod.halted then d
  else d.ch c fun x =>
    match x.mod.plan with
    | [] => x
    | e :: rest => if e.pos < 16 * x.mod.period then { x with mod := { applyEdge x.mod e with plan := rest } } else x

/-- GATE_EDGE (R111). -/
def execGateEdge (c : Ch) (s : State) : Host.Outcome State Fault Refusal := onDev (fun d => gateEdgeDev d c) s

/-! ### Counter events -/

/-- Whether a channel's events occur: its counter runs and isn't halted (R103, R135). -/
def eventsRun (d : Dev) (c : Ch) : Bool := d.chs[c].mod.counting && !d.chs[c].mod.halted

/-- PERIOD_EVENT (R123). -/
def execPeriodEvent (c : Ch) (s : State) : Host.Outcome State Fault Refusal :=
  onDev (fun d => if eventsRun d c then eviCount d 2 c.val else d) s

/-- A compare event (R123, R124, R150): a compare value not below the period raises none; the auxiliary sample is taken only 16
to 240 Fk ticks after a carrier boundary. -/
def cmpDev (d : Dev) (c : Ch) (b : Bool) (ticks : Nat) (smp : Sample) : Dev :=
  let m := d.chs[c].mod
  let v := if b then m.cmpBNow else m.cmpANow
  if eventsRun d c && decide (v < m.period) then
    let d1 := eviCount d (if b then 4 else 3) c.val
    if (if b then m.auxB else m.auxA) && decide (16 ≤ ticks ∧ ticks ≤ 240) then
      let st := if b then CapStrobe.cmpB else CapStrobe.cmpA
      capPoint (capPoint d1 .voltage st c (q23 smp.v) m.flags.trip m.flags.range)
        .current st c (heldCurrent m (q23 smp.i)) m.flags.trip m.flags.range
    else d1
  else d

/-- CMP_EVENT (R124). -/
def execCmpEvent (c : Ch) (b : Bool) (ticks : Nat) (smp : Sample) (s : State) : Host.Outcome State Fault Refusal :=
  onDev (fun d => cmpDev d c b ticks smp) s

/-- A unit whose count has passed DIV raises its vector, without coalescing, and counts from 0 again (R125). (DEDUCED, log entry 16.) -/
def eviSignalDev (d : Dev) (u : Fin 16) : Dev :=
  let (ch, ev, vec, en, div, cnt) := d.evi[u]
  if en && decide (div < cnt) then signal { d with evi := d.evi.set u (ch, ev, vec, en, div, 0) } vec else d

/-- EVI_SIGNAL (R125). -/
def execEviSignal (u : Fin 16) (s : State) : Host.Outcome State Fault Refusal := onDev (fun d => eviSignalDev d u) s

/-! ### Manual modulation (R127 to R132) -/

/-- Whether an unreleased channel may start manual drive (R128). -/
def manualAllowed (d : Dev) (c : Ch) : Bool :=
  (halves d c).all fun h =>
    let x := d.chs[h]
    preDone d && !x.prot.latched && decide (x.prot.oos = 0) && !inStop x && !d.chs[lead d h].meas.isSome
      && !clearRefused d h

/-- A write to `PWM_MAN_CTRL` (R127, R128, R132). (DEDUCED, log entry 15.) -/
def manEnableDev (d : Dev) (c : Ch) (value : W32) : Dev :=
  let x := d.chs[c]
  if d.guard.audioReset then d
  else if bridgedB d c && decide (c.val % 2 = 1) then
    d.ch c fun x => { x with mod := { x.mod with manEnable := value.getLsbD 0, manFF := value.getLsbD 1 } }
  else
    let en := value.getLsbD 0
    let d1 := d.ch c fun x => { x with mod := { x.mod with manFF := value.getLsbD 1 } }
    if en = x.mod.manEnable then d1
    else if en && !(x.cfg.manPermit && (x.prot.released || manualAllowed d c)) then d1
    else
      let d2 := d1.ch c fun x => { x with mod := { x.mod with manEnable := en } }
      forCh (halves d c) (fun e h => e.ch h fun x => { x with mod := { x.mod with manPend := some en } }) d2

/-- MAN_ENABLE_WRITE (R127). -/
def execManEnableWrite (c : Ch) (value : W32) (s : State) : Host.Outcome State Fault Refusal :=
  onDev (fun d => manEnableDev d c value) s

/-- A write to `PWM_MAN_DUTY` or `PWM_MAN_PERIOD`: the register, and in manual modulation the handshake of the word with the reload of
the channel, which on a bridged pair is the even half's (R129, R130, R132). (DEDUCED, log entry 15.) -/
def manWordDev (d : Dev) (c : Ch) (period : Bool) (value : W32) (near : Bool) : Dev :=
  if d.guard.audioReset then d
  else
    let w : Q23 := value.setWidth 24
    let p := manPeriodClamp (value.toNat % 512)
    d.ch c fun x0 =>
      let x := { x0 with mod := if period then { x0.mod with manPeriod := p } else { x0.mod with manDuty := w } }
      if !(bridgedB d c && decide (c.val % 2 = 1)) && x.mod.manual && !x.mod.halted && decide (x.prot.drive = .manual) then
        { x with mod := if period then handPeriod x.mod p near else handShadow x.mod w near }
      else x

/-- MAN_WORD_WRITE (R129). -/
def execManWordWrite (c : Ch) (period : Bool) (value : W32) (near : Bool) (s : State) : Host.Outcome State Fault Refusal :=
  onDev (fun d => manWordDev d c period value near) s

/-! ### The loop's words (R119, R120) -/

/-- A DUTY stitch completes its handshake; words are discarded while the channel is halted, in manual modulation or in
safe stop (R129, R135, R167). (DEDUCED, log entry 14.) -/
def handoverDev (d : Dev) (c : Ch) (near : Bool) : Dev :=
  d.ch c fun x =>
    match x.mod.handoff with
    | [] => x
    | w :: rest =>
      let m := { x.mod with handoff := rest }
      if x.mod.halted || x.mod.manual || decide (x.prot.drive = .safeStop) then { x with mod := m }
      else { x with mod := handShadow m w near }

/-- DUTY_HANDOVER (R119). -/
def execDutyHandover (c : Ch) (near : Bool) (s : State) : Host.Outcome State Fault Refusal :=
  onDev (fun d => handoverDev d c near) s

/-! ### Debug halt (R133 to R136) -/

/-- Whether `PWM_HALT_MASK` names a channel. -/
def haltNamed (d : Dev) (c : Ch) : Bool := (d.haltMask.getD (c.val / 32) 0).getLsbD (c.val % 32)

/-- A halt request from the register or over JTAG: no effect while PERMIT reads 0; otherwise every masked channel freezes
with its gates as they are (R133, R134). A request while a halt stands freezes the channels that the mask names by then as well
(DESIGN CHOICE, log entry 61: the spec does not say). -/
def haltDev (d : Dev) : Dev :=
  if d.guard.dbgPermit && !d.guard.audioReset then
    { d with halt := true
             chs := tab d.chs fun c x => if haltNamed d c then { x with mod := { x.mod with halted := true } } else x }
  else d

/-- HALT_REQUEST (R134): the register write and the JTAG request have the same effect. (DEDUCED, log entry 61.) -/
def execHaltRequest (_jtag : Bool) (s : State) : Host.Outcome State Fault Refusal := onDev haltDev s

/-- What the end of a halt does to a channel: the counter realigns to R104, and with `stop` the channel enters safe stop (R136); a safe
stop that the halt froze goes on (R167). A halted channel that is not released realigns as well, loses its programmed edges and goes on
(DESIGN CHOICE, log entry 61: R136 speaks of released channels). -/
def unhalt (stop : Bool) (x : Chan) : Chan :=
  let y := if x.mod.halted then { x with mod := { x.mod with halted := false, phase := 0, plan := [] } } else x
  if stop && y.prot.released then openStop (triggerChan y) else y

/-- The end of a halt at a carrier boundary (R136): with a halted released channel the other half of its pair stops too (R166). -/
def haltEndDev (d : Dev) : Dev :=
  if d.halt then d
  else
    let stop (c : Ch) : Bool := (halves d c).any fun h => d.chs[h].mod.halted && d.chs[h].prot.released
    d.chAll fun c x => unhalt (stop c) x

/-- HALT_END (R136): acts once HALT has been written 0. -/
def execHaltEnd (s : State) : Host.Outcome State Fault Refusal := onDev haltEndDev s

/-- CNT_CLR (R139, Table 4-17). -/
def execCntClr (value : W32) (s : State) : Host.Outcome State Fault Refusal :=
  onDev (fun d => if value.getLsbD 0 && !d.guard.audioReset then
    d.chAll fun _ x => { x with mod := { x.mod with collisions := 0 } } else d) s

/-- An accepted change of ENABLE takes effect at a carrier boundary (R127, R128, R131): `man` holds the manual registers. -/
def enableStep (x : Chan) (man : Mod) : Chan :=
  match x.mod.manPend with
  | some true =>
    if x.prot.drive = .safeStop ∨ x.prot.latched then { x with mod := { x.mod with manPend := none } }
    else { x with
      prot := { x.prot with drive := .manual }
      mod := { x.mod with manPend := none, manual := true, exitHold := 0, shadow := man.manDuty, shadowNew := true
                          manShadowP := man.manPeriod, manNewP := true, nearPrev := none, nearPrevP := none } }
  | some false =>
    { x with mod := { x.mod with manPend := none, exitHold := if x.prot.drive = .manual then 1 else x.mod.exitHold } }
  | none => x

/-- The reload of a channel outside manual modulation (R107, R117, R577): rails and word of a reload that accepts one; a channel without
a loop in the image has half duty. A word that no reload has accepted takes the rails of every boundary. (DEDUCED, log entry 14.) -/
def reloadStep (x : Chan) (rails : RailSample) (take : Bool) : Chan :=
  let acc := accepts x.mod take
  let stand := !acc && !x.cfg.inUse
  let m := loopReload x.mod take
  { x with
    mod := { m with
      pending := if stand then halfDuty else m.pending
      wordIn := acc || (x.mod.wordIn && !stand)
      pendRails := if acc || ownWord x || stand || !x.mod.wordIn then rails else x.mod.pendRails
      handoff := x.mod.handoff.drop (x.mod.handoff.length - 1) }
    late := if reloadLate x.mod take && closedLoop x then satN 0xFFFFFFFF (x.late + 1) else x.late }

/-- What a carrier boundary does to a channel's modulator before its sample (R103, R117, R127, R128, R131, R164): its counter
runs from the first one after audio reset, the safe stop that waits opens, an accepted change of ENABLE takes effect, and outside manual modulation the shadow word is reloaded.
`rails` is the rail sample of the carrier boundary before this reload (R107); `take` settles a collision. (DEDUCED, log entry 14.) -/
def boundaryMod (x0 : Chan) (man : Mod) (rails : RailSample) (take : Bool) : Chan :=
  let x := openStop { x0 with mod := { x0.mod with counting := true } }
  if x.mod.halted then x
  else
    let x1 := enableStep x man
    if x1.mod.manual then { x1 with mod := { x1.mod with
      handoff := [], pendRails := if ownWord x1 then rails else x1.mod.pendRails } }
    else reloadStep x1 rails take

end Sys2Proof.Machine
end

