-- ==== Sys2Proof/Machine/Ports.lean ====
section
/-!
DEFINITION. The events of the serial audio ports: frames, time-outs, phase evaluations, slips and the report on a link partner
(chapter 12 and R314). The ports' ticks are in Sources.lean.
-/

namespace Sys2Proof.Machine

/-- The bits of slot `k` in the bits received from a frame start on, the OFFSET bits that follow the next frame start with them (R357). -/
def slotBits (f : SapFmt) (bs : List Bool) (k : Nat) : List Bool := (bs.drop (f.offset + k * f.width)).take f.width

/-- A slot's sample from its bits: the first DATA_BITS fill Q1.31 from bit 31 down (R359), 0 where the mask leaves the slot out (R374). -/
def slotIn (f : SapFmt) (mask : W32) (bs : List Bool) (k : Nat) : Int :=
  let b := slotBits f bs k
  if mask.getLsbD k then signed 32 ((List.range f.dataBits).map fun j => b2n (b.getD j false) * 2 ^ (31 - j)).sum else 0

/-- A sample as an output slot sends it: rounded to DATA_BITS and saturated (R359). -/
def slotOut (f : SapFmt) (x : Int) : Int :=
  let k := 32 - f.dataBits
  (satBits f.dataBits (shrRound x k)).1 * 2 ^ k

/-- What an output port sends in slot `k` of the frame in transfer: none is high impedance (R364, R375). -/
def slotDriven (s : Sap) (k : Nat) : Option Int :=
  if s.fmt.en && s.fmt.out && (s.started || s.fmt.master) then
    if s.sentMask.getLsbD k then some (s.sent.getD k 0) else if s.fmt.tristate then none else some 0
  else none

/-- The bits that an output port drives in the SLOTS × W positions from OFFSET on, the last OFFSET of them after the next frame start:
DATA_BITS of each slot's sample, the rest 0; none is high impedance (R357, R359, R375). -/
def frameDriven (s : Sap) : List (Option Bool) :=
  (List.range s.fmt.slots).flatMap fun k => (List.range s.fmt.width).map fun j =>
    (slotDriven s k).map fun v => decide (j < s.fmt.dataBits) && bit (wrap 32 v) (31 - j)

/-- A whole frame enters an input port's FIFO (R371): with 8 frames held the port overruns and its FIFO is emptied first. (DEDUCED, log entry 41.) -/
def Sap.receive (s : Sap) (bs : List Bool) : Sap :=
  let f := (List.range s.fmt.slots).map fun k => slotIn s.fmt s.mask bs k
  if 0 < s.discardNext then { s with discardNext := s.discardNext - 1 }
  else if s.running && decide (8 ≤ s.fifo.length) then { s with overruns := cnt32 s.overruns, resync := 4, fifo := [f] }
  else { s with fifo := s.fifo ++ [f] }

/-- An output port starts a frame: the next of its FIFO, or while it resynchronises or has none the last sent once more, which counts under
STANDIN (R35, R371). -/
def Sap.send (s : Sap) : Sap :=
  match s.fifo with
  | f :: rest =>
    if s.resync = 0 then { s with fifo := rest, sent := f.map (slotOut s.fmt), sentMask := s.mask }
    else { s with standin := cnt32 s.standin, sentMask := s.mask }
  | [] => { s with standin := cnt32 s.standin, sentMask := s.mask }

/-- Start running: the tick sequence and the fill's average begin (R366, R370, R377). -/
def Sap.run (s : Sap) (acc : Nat) : Sap := { s with running := true, acc := acc, ticks := 0, fillSum := 0, evalSum := none, slipPend := 0 }

/-- Whether a master port of a rate starts a frame at the present instant (R363): at an Fi boundary with STC a multiple of 96 kHz / rate, and
at 192 kHz in the middle of an Fi period too. A frame start at an Fi boundary is given just before its FI_BOUNDARY. (DEDUCED, log entry
41.) -/
def masterTime (d : Dev) (rate : Nat) : Bool :=
  let t := d.tb
  let atBoundary := (!t.started || decide (t.n ≤ t.m)) && decide (nextStc d % max 1 (96000 / rateHz rate) = 0)
  let atMiddle := decide (rateHz rate = 192000) && t.started && decide (t.m = (t.n + 1) / 2 ∨ t.m = t.n / 2 + 1)
  t.running && (atBoundary || atMiddle)

/-- A framing error: an input port counts none while it is idle (R361, R370). -/
def Sap.frameError (s : Sap) : Sap := if s.fmt.out || s.running then { s with frameErr := cnt32 s.frameErr } else s

/-- A frame start of a port, with the bits received since the one before, the OFFSET bits after it included, and the bit clocks between the
two (R357 to R361, R370 to R375). A master port drives its own clock, so its frames start at their times alone and have their length
(R363). (DEDUCED, log entry 41.) -/
def sapFrameDev (d : Dev) (p : Port) (bs : List Bool) (clocks : Nat) : Dev :=
  let s0 := d.ports.sap[p]
  if d.guard.audioReset || !s0.fmt.en || (s0.fmt.master && !masterTime d s0.fmt.rate) then d
  else
    let s1 : Sap :=
      if !s0.started then s0
      else if s0.fmt.master || decide (clocks = s0.frameBits) then (if s0.fmt.out then s0 else s0.receive bs)
      else s0.frameError
    let s2 : Sap := { s1 with started := true, mask := s1.maskPend, partPresent := s1.partPresent || !s1.fmt.master }
    let s3 : Sap := if s2.running then s2
      else if s2.fmt.out ∨ 4 ≤ s2.fifo.length then s2.run (joinAcc d p.val)
      else s2
    d.sap p.val fun _ => if s3.fmt.out then s3.send else s3

/-- SAP_FRAME (R357). -/
def execSapFrame (p : Port) (bits : List Bool) (clocks : Nat) (s : State) : Host.Outcome State Fault Refusal :=
  onDev (fun d => sapFrameDev d p bits clocks) s

/-- No frame start within two frames' bit clocks (R361): the bits received are discarded. -/
def sapTimeoutDev (d : Dev) (p : Port) : Dev :=
  d.sap p.val fun s => if s.fmt.en && !s.fmt.master && s.started then { s.frameError with started := false, partPresent := false } else s

/-- SAP_FRAME_TIMEOUT (R361). -/
def execSapFrameTimeout (p : Port) (s : State) : Host.Outcome State Fault Refusal := onDev (fun d => sapTimeoutDev d p) s

/-- SAP_PHASE_EVAL (R366). The quotient of `SAP_STAT.PHASE` takes one of its two neighbouring codes. -/
def execSapPhaseEval (p : Port) (s : State) : Host.Outcome State Fault Refusal :=
  onDev (fun d => d.tick.sap p.val fun x => x.evaluate (Config.freeBit d.free)) s

/-- SAP_SLIP (R367, R368): the slip that the evaluation decided acts at the port's next tick. -/
def execSapSlip (p : Port) (s : State) : Host.Outcome State Fault Refusal :=
  onDev (fun d => d.sap p.val Sap.slipDue) s

/-- The rate code nearest a frame rate in mHz within ±1,000 ppm, 0 if none (R314). -/
def rateCode (mhz : Nat) : Nat :=
  ([1, 2, 3, 4, 5, 6, 7].find? fun k =>
    let hz := rateHz k
    decide (mhz ≤ 1001 * hz ∧ 999 * hz ≤ mhz)).getD 0

/-- The report on a slave port's partner (R314). -/
def partnerDev (d : Dev) (p : Port) (bclk mhz : Nat) : Dev :=
  d.sap p.val fun s =>
    if s.fmt.en && !s.fmt.master && !d.guard.audioReset then
      let code := rateCode mhz
      { s with
        partPresent := true
        partMatch := decide (bclk = s.frameBits ∧ code = s.fmt.rate)
        partRate := code
        partMhz := mhz
        partBclk := satN 0x7FF bclk
        partSlots := if bclk % s.fmt.width = 0 then satN 0x3F (bclk / s.fmt.width) else 0 }
    else s

/-- PARTNER_MEASURE (R314). -/
def execPartnerMeasure (p : Port) (bclk : Nat) (rateMilliHz : Nat) (s : State) : Host.Outcome State Fault Refusal :=
  onDev (fun d => partnerDev d p bclk rateMilliHz) s

/-- TRAJECTORY_END (R341). -/
def execTrajectoryEnd (q : QId) (cid : BitVec 16) (s : State) : Host.Outcome State Fault Refusal :=
  onDev (fun d => trajEndDev d q cid) s

end Sys2Proof.Machine
end

