-- ==== Sys2Proof/Machine/Tiles.lean ====
section
/-!
DEFINITION. The carrier boundary: reloads and samples (R117, R149 to R151, R155), the engine tiles' Fc sequences and slices
(R33, R77, R78), and a tile's completion of a period's work (R87 to R91).
-/

namespace Sys2Proof.Machine

/-! ### The engine tiles' sequences -/

/-- Engine tile `k`. -/
def enOf (k : Fin 16) : LTile := ⟨k.val, by omega⟩

/-- One stitch of an engine tile in phase `p`: its enabled lanes at once. -/
def engStitch (img : Image) (t : LTile) (p m : Nat) (d : Dev) (s : Stitch) : Dev :=
  if !s.runs p then d
  else if s.type = tyExcur then (stitchChs d t s).foldl (fun e c => excurLane e t s c) d
  else if s.type = tyThermal then (stitchChs d t s).foldl (fun e c => thermalLane e t s c) d
  else if s.type = tyGrant then (stitchChs d t s).foldl (fun e c => grantLane e t s c) d
  else if s.type = tyXferOut then xferSend d img t s p
  else if s.type = tyXferIn then xferTake d img t s
  else if s.type = tyShRd ∨ s.type = tyShWr then sharedMove d t s
  else s.laneList.foldl (fun e i => noteSat img t s i (innerLane e img t s m i)) d

/-- The end of an Fc sequence: status, zeroed inner blocks, and the state copy in the spares (R218, R503). -/
def fcDone (d : Dev) (img : Image) (t : LTile) : Dev :=
  (fcStatus d t).tile t fun u => copyState img t.val true (zeroInner u t (img.blk t.val))

/-- Fc sequence and slice `m` of one engine tile. A sequence that R90 skips is not run, its slice is; a spare that has taken
over runs no slice before the next Fi boundary (R509). (DEDUCED, log entry 31.) -/
def engRun (img : Image) (m : Nat) (d : Dev) (k : Fin 16) : Dev :=
  let t := enOf k
  let p := d.tb.stc % 32
  let u := d.core.tiles[t]
  if !tileRuns u then d
  else
    let d := d.tile t fun x => { x with before := none }
    let d1 := if u.skipFc then d.tile t fun x => { x with skipFc := false }
      else fcDone ((img.fc t.val).foldl (engStitch img t p m) (d.tile t fun x => { x with copyPrev := x.copy })) img t
    if u.holdSlices then d1
    else
      let d2 := ((slicesOf (img.fi t.val)).getD m []).foldl (engStitch img t p m) d1
      if m + 1 = d.tb.n then d2.tile t fun x => copyState img t.val false x else d2

/-- Every engine tile. -/
def engAll (d : Dev) (m : Nat) : Dev :=
  match d.core.image with
  | none => d
  | some img => (ixs 16).foldl (engRun img m) d

/-! ### Samples -/

/-- The rail samples of a carrier boundary (R151, R155, R157): the clamps assert above the threshold, and the running minima and
sums are kept. (DESIGN CHOICE, log entry 6.) -/
def railSampleTile (d : Dev) (p : Power) (r : RailSample) : Power :=
  let low := (min r.pvp (-r.pvn)).toNat
  let least (o : Option Nat) : Option Nat := some (match o with | some h => min h low | none => low)
  { p with
    rail := r
    sumP := p.sumP + r.pvp
    sumN := p.sumN + r.pvn
    cnt := p.cnt + 1
    hRun := if preDone d then least p.hRun else p.hRun
    fiMin := least p.fiMin }

/-- Rail-wide effects of a set of rail samples: clamps (R155, R156), the bits of `GRD_STATUS`, and whether R140 holds; a clamp or rise bit
of `HSW_CLAMP` that becomes 1 raises its event (R425). -/
def railWide (d : Dev) : Dev :=
  let hi (f : RailSample → Int) (mv : Nat) : Bool := anyB d.power fun _ p => decide ((mv : Int) < 10 * f p.rail)
  let allLow (f : RailSample → Int) (mv : Nat) : Bool := allB d.power fun _ p => decide (10 * f p.rail < mv)
  let r := d.rails
  let pos (x : RailSample) : Int := x.pvp
  let neg (x : RailSample) : Int := -x.pvn
  let rp := hi pos r.riseThr
  let rn := hi neg r.riseThr
  let newBits := (rp && !(r.riseP && r.clampP)) || (rn && !(r.riseN && r.clampN))
  let g := railLevels d (d.power.toList.map (·.rail))
  let x := { r with
    clampP := r.clampP || rp
    clampN := r.clampN || rn
    riseP := r.riseP || rp
    riseN := r.riseN || rn
    reportP := r.reportP || rp
    reportN := r.reportN || rn
    clampFiP := if rp then false else r.clampFiP
    clampFiN := if rn then false else r.clampFiN
    belowP := r.belowP && allLow pos (r.riseThr - r.riseHyst)
    belowN := r.belowN && allLow neg (r.riseThr - r.riseHyst)
    okSinceFi := r.okSinceFi && railsOk d }
  let d1 := { d with guard := g, rails := x }
  if newBits then raiseEvt d1 2 else d1

/-- Steps of a rail of tile `t` from sample `a` to sample `b`: one crossing of every level `v` with one sample at `v` or below and one above
it, kept by tile and `v` + 65,536, in 10 mV. What R312 asks of the samples, whichever mean it then takes the crossings at. -/
def crossLevels (m : Mem Nat) (t : Nat) (a b : Int) : Mem Nat :=
  (List.range (b - a).natAbs).foldl (fun m (k : Nat) =>
    let key := t * 2 ^ 17 + (min a b + k + 65536).toNat
    Mem.set m 0 key (Mem.get m 0 key + 1)) m

/-- The sums and extremes of the rail samples of all tiles over the 100 ms after precharge (R312). (DEDUCED, log entry 38.) -/
def supplySample (was : List RailSample) (d : Dev) : Dev :=
  let r := d.rails
  if r.preState ≠ 4 ∨ 9600 ≤ r.sinceDone then d
  else
    let ps := d.power.toList.map fun p => p.rail.pvp
    let ns := d.power.toList.map fun p => p.rail.pvn
    let lo (l : List Int) (x : Int) : Int := if r.sumCnt = 0 then l.foldl min (l.headD 0) else l.foldl min x
    let hi (l : List Int) (x : Int) : Int := if r.sumCnt = 0 then l.foldl max (l.headD 0) else l.foldl max x
    let cross (m : Mem Nat) (f : RailSample → Int) : Mem Nat :=
      if r.sumCnt = 0 then [] else (was.zip (d.power.toList.map (·.rail))).zipIdx.foldl (fun m p => crossLevels m p.2 (f p.1.1) (f p.1.2)) m
    { d with rails := { r with
      crossP := cross r.crossP (·.pvp)
      crossN := cross r.crossN (·.pvn)
      sumP := (if r.sumCnt = 0 then 0 else r.sumP) + ps.sum
      sumN := (if r.sumCnt = 0 then 0 else r.sumN) + ns.sum
      sumCnt := r.sumCnt + 16
      minP := lo ps r.minP
      maxP := hi ps r.maxP
      minN := lo ns r.minN
      maxN := hi ns r.maxN } }

/-- What the samples tell a running short check or the pre-check of a measurement (R194, R290): external drive above 1.0 V, and
in the drive's last 10 ms the sum of the current. -/
def checkSample (d : Dev) (c : Ch) : Dev :=
  let x := d.chs[c]
  let drv (v : Int) : Bool := decide (2 ^ 23 < v.natAbs * 24)
  let d1 := match x.prot.check with
    | none => d
    | some k =>
      let k1 := if k.step = 1 then { k with driven := k.driven || drv x.sense.v }
        else if k.step = 2 ∧ 960 ≤ k.fi then { k with sum := k.sum + x.sense.i, cnt := k.cnt + 1 } else k
      d.ch c fun y => { y with prot := { y.prot with check := some k1 } }
  match x.meas with
  | none => d1
  | some m =>
    let v := if bridgedB d c then x.sense.v - d.chs[oddOf c].sense.v else x.sense.v
    if m.step = 1 then d1.ch c fun y => { y with meas := some { m with driven := m.driven || drv v } } else d1

/-- A channel's samples at a carrier boundary, with the flags of the period before (R116, R149, R150): TRIP tells of every trip since the
sample before, as in Table 6-5, where a trip after one sample is delivered with the next.
(DESIGN CHOICE, log entry 6; DEDUCED, log entry 13; DESIGN CHOICE, log entry 72.) -/
def takeSample (d : Dev) (c : Ch) (s : Sample) : Dev :=
  d.ch c fun x =>
    let m := x.mod
    let i := heldCurrent m (q23 s.i)
    { x with
      sense := { x.sense with v := q23 s.v, i := i }
      mod := { m with
        held := if m.hs || m.ls then none else some i
        tripSmp := false
        sampleFlags := { m.flags with trip := m.tripSmp } } }

/-- Offer the samples to the capture units (Table 8-7). -/
def captureSample (d : Dev) (c : Ch) : Dev :=
  let x := d.chs[c]
  let f := x.mod.sampleFlags
  capPoint (capPoint d .voltage .carrier c x.sense.v f.trip f.range) .current .carrier c x.sense.i f.trip f.range

/-- Reload every channel (R117, R119, R127): `rails` of the sample before. -/
def reloadAll (d : Dev) : Dev :=
  let d1 := (ixs 128).foldl (fun e c =>
    let man := e.chs[lead e c].mod
    let bitv := Config.freeBit (e.free + c.val)
    e.ch c fun x => boundaryMod x man d.power[tileOf c].rail bitv) d
  { d1 with free := d1.free + 128 }

/-- A carrier boundary (R117). The present Fi period has N of them, and the first is where the ticks of the period take their
samples; nothing happens without a running timebase. (DEDUCED, log entry 5.) -/
def carrierDev (d : Dev) (samples : List Sample) (rails : List RailSample) : Dev :=
  if d.guard.audioReset || !d.tb.running || decide (d.tb.n ≤ d.tb.m) then d
  else
    let m := d.tb.m
    let d0 := if d.tb.started && decide (m = 0) then allTicks d else d
    let d1 := reloadAll (advanceGens { d0 with tb := { d0.tb with m := m + 1 } } true)
    let d2 := supplySample (d1.power.toList.map (·.rail)) (railWide { d1 with power := tab d1.power fun k p => railSampleTile d1 p (rails.getD k.val ⟨0, 0⟩) })
    let d3 := (ixs 128).foldl (fun e c => takeSample e c (samples.getD c.val ⟨0, 0⟩)) d2
    let d4 := (ixs 128).foldl checkSample d3
    let d4i := { d4 with awl := { d4.awl with inj := tab d4.awl.inj fun c _ => injNow d4 c } }
    let d5 := eviCount ((ixs 128).foldl captureSample d4i) 5 0
    engAll d5 m

/-! ### Completion of a period's work (R87 to R91) -/

/-- Slack of a completion. -/
def slackOf (period count : Nat) : Nat := period - count

/-- Whether a late word of a channel counts as a late stitch: not in manual modulation (R129), not in safe stop (R167), and not while it
is halted (R135). -/
def countsLate (x : Chan) : Bool := decide (x.prot.drive ≠ .manual ∧ x.prot.drive ≠ .safeStop) && !x.mod.halted

/-- One late stitch for every channel of a tile whose sequence is skipped (R90). (DEDUCED, log entry 30.) -/
def lateAll (d : Dev) (own : Ch → Bool) : Dev :=
  d.chAll fun c x => if own c && countsLate x then { x with late := satN 0xFFFFFFFF (x.late + 1) } else x

/-- A tile's Fc sequence (`fi` false) or Fi work of the present period completes `count` Fk ticks after the boundary that opened it; the
next period's sequence is the one that R90 leaves out. (DEDUCED, log entry 30.) -/
def tileDoneDev (d : Dev) (t : LTile) (fi : Bool) (count : Nat) : Dev :=
  let u := d.core.tiles[t]
  let eng := decide (t.val < 16)
  if !imageOn d || !tileRuns u || (!fi && !eng) then d
  else if !fi then
    let sl := slackOf 256 count
    let skip := decide (512 < count)
    let d1 := { d with core := { d.core with slack := updN d.core.slack u.phys fun r =>
      { r with fcMin := min r.fcMin sl, fcMinInt := min r.fcMinInt sl, fcLast := satN 0xFFFF count
               skipped := if skip then satN 0xFFFFFFFF (r.skipped + 1) else r.skipped } } }
    if skip then lateAll (d1.tile t fun x => { x with skipFc := true }) fun c => decide (c.val / 8 = t.val) else d1
  else
    let per := 256 * d.tb.n
    let sl := slackOf per count
    let late := decide (per < count)
    let skip := !eng && decide (2 * per < count)
    let d1 := { d with core := { d.core with slack := updN d.core.slack u.phys fun r =>
      { r with fiMin := min r.fiMin sl, fiMinInt := min r.fiMinInt sl
               lateFi := if late then satN 0xFFFFFFFF (r.lateFi + 1) else r.lateFi
               skipped := if skip then satN 0xFFFFFFFF (r.skipped + 1) else r.skipped } } }
    let d2 := d1.tile t fun x => { x with lateNext := x.lateNext || late, skipNext := x.skipNext || skip }
    if skip then lateAll d2 fun c => decide (16 + c.val / 32 = t.val) else d2

/-- TILE_PERIOD_COMPLETE (R87). -/
def execTilePeriodComplete (t : LTile) (fi : Bool) (count : Nat) (s : State) : Host.Outcome State Fault Refusal :=
  onDev (fun d => tileDoneDev d t fi count) s

/-! ### Generators and captures -/

/-- GENERATOR_STOP (R248). -/
def execGeneratorStop (g : Fin 8) (s : State) : Host.Outcome State Fault Refusal := onDev (fun d => genStopDev d g) s

/-- CAPTURE_ENTRY (R249): a unit writes the entry that waits. -/
def execCaptureEntry (u : Fin 16) (s : State) : Host.Outcome State Fault Refusal :=
  onDev (fun d => { d with awl := { d.awl with caps := upd d.awl.caps u capWrite } }) s

end Sys2Proof.Machine
end

