-- ==== Sys2Proof/Machine/Regions.lean ====
section
/-!
DEFINITION. Region tables: the Fi boundary's shadows and rescale (R210, R219, R230, R232), the registers of R254, and
TABLE_WRITE and TABLE_READ (R234 to R239, R411, R413).
-/

namespace Sys2Proof.Machine

/-! ### Links (Table 8-10) -/

/-- Fields of REGION_LINK. -/
def lkTable : Nat := 0
def lkState : Nat := 1
def lkSet : Nat := 2
def lkPi : Nat := 3
def lkNotch : Nat := 4
def lkGains : Nat := 5
def lkCoef : Nat := 6
def lkAccel : Nat := 7
def lkKa : Nat := 8
def lkLims : Nat := 9

/-- Block address of a link field, none where the channel has no such block. -/
def linkAt (x : Chan) (j : Nat) : Option Nat :=
  let a := x.region.link.getD j 0xFFFF
  if a = 0xFFFF then none else some a

/-- Lane of a channel. -/
def laneOf (c : Ch) : Nat := c.val % 4

/-- The block that holds word `j` of the tables in force, with its place (Table 8-3). -/
def wordBlock (x : Chan) (j : Nat) : Option Nat :=
  if j < 2 then (linkAt x lkGains).map (· + j)
  else if j < 7 then (linkAt x lkCoef).map (· + (j - 2))
  else if j < 8 then linkAt x lkKa
  else (linkAt x lkLims).map (· + (j - 8))

/-- Word `j` in force, zero where the channel has no such block. -/
def wordNow (t : TileState) (x : Chan) (c : Ch) (j : Nat) : Slot :=
  match wordBlock x j with
  | some a => t.rd a (laneOf c)
  | none => .c 0 0

/-! ### Rescale (R232) -/

/-- Whether a linked GAINS, COEF or KA word of a lane differs between two states of its tile. -/
def coefChanged (old new : TileState) (x : Chan) (c : Ch) : Bool :=
  (List.range 8).any fun j => decide (wordNow old x c j ≠ wordNow new x c j)

/-- Rescale a lane's states from the values of `old` to the constants of `new`. -/
def rescaleLane (old new : TileState) (x : Chan) (c : Ch) : TileState :=
  let l := laneOf c
  let w (k : Option Nat) (j : Nat) : Slot := match k with | some a => old.rd (a + j) l | none => .zero
  let e := (w (linkAt x lkSet) 0).term
  let diff (j : Nat) (v : FTerm) : List FTerm :=
    [((wordNow old x c j).term).mul v, (((wordNow new x c j).term).mul v).neg]
  match linkAt x lkPi with
  | none => new
  | some p =>
    let u := (old.rd p l).term
    let a := (w (linkAt x lkAccel) 0).term
    let ka := diff 7 a
    let kp := (old.rd (p + 1) l).term :: diff 0 e
    let notch := linkAt x lkNotch
    let xs := if notch.isSome then fsum kp else fsum (kp ++ ka)
    let t1 := match renorm [(false, (old.rd p l).acc), (true, xs), (true, (old.rd (p + 2) l).acc)] (old.rd p l).exp with
      | [a0, a1, a2] => new.wrs p l [a0, a1, a2]
      | _ => new
    match notch with
    | none => t1
    | some n =>
      let z1 := fsum ((old.rd (n + 1) l).term :: (diff 2 u ++ ka))
      match renorm [(false, (old.rd n l).acc), (true, z1), (true, (old.rd (n + 2) l).acc)] (old.rd n l).exp with
      | [b0, b1, b2] => t1.wrs n l [b0, b1, b2]
      | _ => t1

/-- The channels of an engine tile. -/
def tileChs (t : LTile) : List Ch := (List.range 8).map fun j => laneCh t (j / 4) (j % 4)

/-- Rescale every lane of a tile in loop mode whose constants changed at this boundary. -/
def rescaleTile (d : Dev) (t : LTile) : Dev :=
  let new := d.core.tiles[t]
  let old := match new.before with | some b => { new with data := b } | none => new
  d.tile t fun _ => (tileChs t).foldl (fun u c =>
    let x := d.chs[c]
    if loopMode x && coefChanged old u x c then rescaleLane old u x c else u) new

/-- Make a tile's TABLE shadows current (R210, R230); those of a tile whose Fi work is late wait for the next boundary. -/
def applyShadow (t : TileState) : TileState :=
  let u := { t with before := some t.data }
  if u.lateFi then u
  else { u with data := u.shadow.foldl (fun m p => Mem.set m Block.zero p.1 p.2) u.data, shadow := [] }

/-- `PWM_REGION_STAT` at an Fi boundary (R254). -/
def regionStat (d : Dev) (t : LTile) (c : Ch) : Dev :=
  let u := d.core.tiles[t]
  match linkAt d.chs[c] lkState with
  | none => d
  | some a =>
    if u.lateFi then d.stat c fun y => { y with switched := false }
    else
      let r := bits (u.rd a (laneOf c)).num 0 3
      d.stat c fun y => { y with
        region := r
        cond := y.condRun
        switched := decide (r ≠ y.region)
        switches := if r = y.region then y.switches else satN 0xFFFF (y.switches + 1) }

/-- Shadows, rescale and region registers of the engine tiles at an Fi boundary; at a boundary where a new image takes over (`plain`) the
constants come with its tables, without rescale, and the region registers with them. -/
def shadowsCurrent (d : Dev) (plain : Bool) : Dev :=
  if !imageOn d then d
  else (ixs 16).foldl (fun e k =>
    let t := enOf k
    let e1 := e.tile t applyShadow
    if plain then e1 else (tileChs t).foldl (fun f c => regionStat f t c) (rescaleTile e1 t)) d

/-! ### TABLE_WRITE and TABLE_READ -/

/-- Opcodes. -/
def opTableWrite : Nat := 0x22
def opTableRead : Nat := 0x23

/-- Whether commands are served only as far as bring-up allows (R462, Table 14-2). -/
def hostClosed (d : Dev) : Bool := d.guard.audioReset || d.admin.bringup

/-- Put the words of a region table in place for one channel: the table, its tile blocks, and the words in force where
they are those of the region whose tables are current (R237, R238). -/
def putTable (d : Dev) (c : Ch) (q : Nat) (ws : List W64) : Dev :=
  let x := d.chs[c]
  let l := laneOf c
  let d1 := d.ch c fun y => { y with region := { y.region with tables := y.region.tables.set q ws } }
  let slot (j : Nat) : Slot := cOf (ws.getD j 0).toNat
  let t1 : TileState := d1.core.tiles[etOf c]
  let t2 := match linkAt x lkTable with
    | some b => (List.range 12).foldl (fun t j => t.wr (b + 8 * j + q) l (slot j)) t1
    | none => t1
  let t3 := if x.stat.region = q then
      (List.range 12).foldl (fun t j => match wordBlock x j with | some a => t.wr a l (slot j) | none => t) t2
    else t2
  let old := match t1.before with | some b => { t1 with data := b } | none => t1
  let t4 := if x.stat.region = q ∧ loopMode x = true ∧ (coefChanged old t3 x c || coefChanged old t1 x c) = true then
      rescaleLane old t3 x c
    else t3
  d1.tile (etOf c) fun _ => t4

/-- Put the condition words and ρ of one channel in place, in the SRCB stages of its REGION stitches (R227, R236). -/
def putConds (d : Dev) (c : Ch) (ws : List W64) : Dev :=
  loadConds (d.ch c fun y => { y with region := { y.region with conds := ws.take 7, rho := ws.getD 7 0 } }) c

/-- Whether a command names the odd half of a bridged pair (R411). -/
def oddHalf (d : Dev) (c : Ch) : Bool := bridgedB d c && decide (c.val % 2 = 1)

/-- The rules of TABLE_WRITE that depend on no image: the words' count, the exponents of a region table, the condition words (R229,
R235). -/
def tableWordsOk (cond : Bool) (ns : List Nat) : Bool :=
  if cond then decide (ns.length = 8) && threshOk ns else decide (ns.length = 12) && regionTableOk ns

/-- TABLE_WRITE at the present boundary (R234 to R239). -/
def doTableWrite (d : Dev) (r : CmdRef) (c : Ch) (cond : Bool) (q : Fin 8) (ws : List W64) : Dev :=
  if !tableWordsOk cond (ws.map (·.toNat)) then refuse d r opTableWrite stField
  else if hostClosed d then refuse d r opTableWrite stNotReady
  else if !imageOn d then refuse d r opTableWrite stNotReady
  else if oddHalf d c || !d.chs[c].cfg.inUse then completeAt d r opTableWrite stField d.tb.stc
  else
    let d1 := forCh (halves d c) (fun e h => if cond then putConds e h ws else putTable e h q.val ws) d
    completeAt d1 r opTableWrite stSuccess d.tb.stc

/-- The words a TABLE_READ returns: 0 a region table, 1 the condition words and ρ, 2 the words in force. -/
def tableWords (d : Dev) (c : Ch) (kind : Fin 3) (q : Fin 8) : List Nat :=
  let x := d.chs[c]
  match kind with
  | 0 => (x.region.tables.getD q.val []).map (·.toNat)
  | 1 => (x.region.conds ++ [x.region.rho]).map (·.toNat)
  | 2 => (List.range 12).map fun j => (wordNow d.core.tiles[etOf c] x c j).word

/-- TABLE_READ at the present boundary (R413). -/
def doTableRead (d : Dev) (r : CmdRef) (c : Ch) (kind : Fin 3) (q : Fin 8) : Dev :=
  if r.len ≠ (if kind = 1 then 64 else 96) then refuse d r opTableRead stField
  else if hostClosed d then refuse d r opTableRead stNotReady
  else if !imageOn d then refuse d r opTableRead stNotReady
  else if oddHalf d c || !d.chs[c].cfg.inUse then completeAt d r opTableRead stField d.tb.stc
  else completeAt (hostWrite d r ((tableWords d c kind q).flatMap (le 8))) r opTableRead stSuccess d.tb.stc

/-- TABLE_WRITE (R234). -/
def execTableWrite (r : CmdRef) (c : Ch) (cond : Bool) (q : Fin 8) (ws : List W64) (s : State) : Host.Outcome State Fault Refusal :=
  onDev (fun d => doTableWrite d r c cond q ws) s

/-- TABLE_READ (R413). -/
def execTableRead (r : CmdRef) (c : Ch) (kind : Fin 3) (q : Fin 8) (s : State) : Host.Outcome State Fault Refusal :=
  onDev (fun d => doTableRead d r c kind q) s

end Sys2Proof.Machine
end

