-- ==== Sys2Proof/Machine/Io.lean ====
section
/-!
DEFINITION. The I/O commands of mixes, streams, generators and captures, each at the present boundary: STREAM_WRITE, TIMED_SET,
GAIN_TRAJECTORY, INJECT and CAPTURE_READ (chapters 8, 11 and 13).
-/

namespace Sys2Proof.Machine

/-- Opcodes of Table 13-6. -/
def opStream : Nat := 0x20
def opCapture : Nat := 0x21
def opSet : Nat := 0x24
def opInject : Nat := 0x27

/-! ### Host streams (R327 to R331, R412) -/

/-- Capacity of a stream's FIFO. -/
def hsDepth : Nat := 16384

/-- Samples of a STREAM_WRITE as FIFO entries: END marks the last. -/
def hsEntries (samples : List Int) (fin : Bool) : List HsSample :=
  let n := samples.length
  (samples.zip (List.range n)).map fun p => ⟨p.1, fin && decide (p.2 + 1 = n)⟩

/-- Append samples to a stream; the ones owed to an alignment group's drop are left out (R378). An idle stream starts
running, unless a timed write waits for its boundary. -/
def Stream.append (s : Stream) (xs : List HsSample) (acc : Nat) : Stream :=
  let k := min s.discardNext xs.length
  let t := { s with fifo := s.fifo ++ xs.drop k, discardNext := s.discardNext - k }
  if !s.running && decide (s.starts = []) && decide (k < xs.length) then { t with running := true, acc := acc } else t

/-- Copy a STREAM_WRITE that has its room, without the samples owed to an alignment group's drop (R378): an untimed one completes, a
timed one keeps its place until its boundary. -/
def streamCopy (d : Dev) (r : CmdRef) (h : Nat) (fin : Bool) (samples : List Int) (start : Option Nat) : Dev :=
  let xs := hsEntries samples fin
  match start with
  | none =>
    let acc := joinAcc d (0x80 + h)
    let d1 := d.stream h fun s => s.append xs acc
    complete d1 r opStream stSuccess samples.length (look d1.mix.streams h .reset).fifo.length
  | some b =>
    let d1 := d.stream h fun s =>
      let ys := xs.drop s.discardNext
      { s with
        starts := s.starts ++ [⟨b, s.fifo.length, ys.length, r⟩]
        fifo := s.fifo ++ ys
        discardNext := s.discardNext - xs.length }
    let mark (f : Flight) : Flight := if sameRef f.ref r then { f with written := true } else f
    { d1 with qif := { d1.qif with flights := d1.qif.flights.map mark } }

/-- Room of a stream. -/
def streamRoom (d : Dev) (h : Nat) : Nat := hsDepth - (look d.mix.streams h .reset).fifo.length

/-- STREAM_WRITE, untimed or with its start (R328, R329, R412). -/
def doStreamWrite (d : Dev) (r : CmdRef) (h : Nat) (fin : Bool) (samples : List Int) (start : Option Nat) : Dev :=
  let late := match start with | some b => decide (b < nextStc d) | none => false
  if samples = [] ∨ hsDepth < samples.length then refuse d r opStream stField
  else if hostClosed d || !imageOn d then refuse d r opStream stNotReady
  else if late then refuse d r opStream stLate
  else if !(look d.mix.streams h .reset).en then refuse d r opStream stField
  else if samples.length ≤ streamRoom d h then streamCopy d r h fin samples start
  else { d with qif := { d.qif with swaits := d.qif.swaits ++ [⟨r, h, fin, samples, start⟩] } }

/-- STREAM_WRITE. -/
def execStreamWrite (r : CmdRef) (h : HStream) (fin : Bool) (samples : List W32) (start : Option Nat) (s : State) :
    Host.Outcome State Fault Refusal :=
  onDev (fun d => doStreamWrite d r h.val fin (samples.map fun w => signed 32 w.toNat) start) s

/-- Room has come in a stream's FIFO: the writes that wait for it are copied in fetch order while they fit (R328). A timed one
whose boundary has passed is late. -/
def streamRoomDev (d : Dev) (h : Nat) : Dev :=
  d.qif.swaits.foldl (fun e w =>
    if w.h = h ∧ w.samples.length ≤ streamRoom e h then
      let e1 := { e with qif := { e.qif with swaits := e.qif.swaits.filter fun x => !decide (x.ref = w.ref) } }
      match w.start with
      | some b => if b < nextStc e then refuse e1 w.ref opStream stLate else streamCopy e1 w.ref h w.fin w.samples w.start
      | none => streamCopy e1 w.ref h w.fin w.samples none
    else e) d

/-- STREAM_ROOM (R328). -/
def execStreamRoom (h : HStream) (s : State) : Host.Outcome State Fault Refusal := onDev (fun d => streamRoomDev d h.val) s

/-! ### TIMED_SET (R322, R324, R336 to R338, R346, R348, R372) -/

/-- Reserved codes and ranges of a TIMED_SET, whatever the image. -/
def setFieldOk : SetObj → Bool
  | .termSource _ _ code => sourceOk code.toNat
  | .termGain _ _ _ => true
  | .outGain _ _ => true
  | .groupGain _ _ => true
  | .corner code sel => sourceOk code.toNat && decide (sel.toNat < 3)
  | .delay _ tau slew => decide (tau ≤ 262144 ∧ slew ≤ 16)
  | .limiter _ thr rel => decide (thr ≤ 2000 ∧ 1 ≤ rel ∧ rel ≤ 1000)
  | .slotMask _ _ => true

/-- Whether a gain object exists in the image in force (R332, R411). -/
def gainExists (d : Dev) : GainObj → Bool
  | .term c t => !oddHalf d c && decide (t < (mixAt d c.val).terms.length)
  | .out c => !oddHalf d c
  | .group _ => true

/-- Whether the object of a TIMED_SET exists in the image and takes the value. -/
def setObjOk (d : Dev) (img : Image) : SetObj → Bool
  | .termSource c t code => gainExists d (.term c t) && sourceRead img c.val code.toNat
  | .termGain c t _ => gainExists d (.term c t)
  | .outGain c _ => gainExists d (.out c)
  | .groupGain _ _ => true
  | .corner _ _ => true
  | .delay c tau _ => !oddHalf d c && decide ((mixAt d c.val).lineSize ≠ 0 ∧ tau + 256 ≤ 16 * (mixAt d c.val).lineSize)
  | .limiter c _ _ => !oddHalf d c
  | .slotMask _ _ => true

/-- Make the change of a TIMED_SET. -/
def applySet (d : Dev) : SetObj → Dev
  | .termSource c t code => d.mixCh c.val fun m => { m with terms := m.terms.modify t fun y => { y with code := code.toNat } }
  | .termGain c t g => gainChange d (.term c t) g.toInt
  | .outGain c g => gainChange d (.out c) g.toInt
  | .groupGain g v => gainChange d (.group g) v.toInt
  | .corner code sel => { d with mix := { d.mix with corners := Mem.set d.mix.corners 0 code.toNat sel.toNat } }
  | .delay c tau slew => d.mixCh c.val fun m => { m with tau := tau, slew := slew }
  | .limiter c thr rel => d.mixCh c.val fun m => { m with thr := thr, rel := rel }
  | .slotMask p mask => d.sap p.val fun s => { s with maskPend := mask }

/-- TIMED_SET at the present boundary. -/
def doTimedSet (d : Dev) (r : CmdRef) (o : SetObj) : Dev :=
  if !setFieldOk o then refuse d r opSet stField
  else if hostClosed d then refuse d r opSet stNotReady
  else match d.core.image with
    | none => refuse d r opSet stNotReady
    | some img =>
      if setObjOk d img o then completeAt (applySet d o) r opSet stSuccess d.tb.stc
      else completeAt d r opSet stField d.tb.stc

/-- TIMED_SET. -/
def execTimedSet (r : CmdRef) (o : SetObj) (s : State) : Host.Outcome State Fault Refusal := onDev (fun d => doTimedSet d r o) s

/-! ### GAIN_TRAJECTORY (R339 to R342) -/

/-- Whether two end points differ in sign. -/
def signsDiffer (a b : Int) : Bool := (decide (a < 0) && decide (0 < b)) || (decide (b < 0) && decide (0 < a))

/-- Trajectories that run, those of object `o` apart. -/
def trajCount (d : Dev) (o : GainObj) : Nat := (d.mix.trajs.filter fun t => decide (t.k < t.steps ∧ t.obj ≠ o)).length

/-- GAIN_TRAJECTORY at the present boundary. -/
def doTraj (d : Dev) (r : CmdRef) (o : GainObj) (log : Bool) (g1 : Int) (steps : Nat) : Dev :=
  if steps < 1 ∨ 1048576 < steps then refuse d r opTraj stField
  else if hostClosed d || !imageOn d then refuse d r opTraj stNotReady
  else if !gainExists d o then completeAt d r opTraj stField d.tb.stc
  else
    let g0 := gainBefore d o
    if log && signsDiffer g0 g1 then completeAt d r opTraj stField d.tb.stc
    else if 512 ≤ trajCount d o then completeAt d r opTraj stNotReady d.tb.stc
    else
      let d1 := endTraj d o
      { d1 with mix := { d1.mix with
        trajs := d1.mix.trajs ++ [⟨r, d.tb.stc, o, g0, g1, steps, 0, log⟩]
        gBefore := (o, g0) :: d1.mix.gBefore.filter fun p => decide (p.1 ≠ o) } }

/-- GAIN_TRAJECTORY. -/
def execGainTrajectory (r : CmdRef) (o : GainObj) (log : Bool) (g1 : BitVec 24) (steps : Nat) (s : State) :
    Host.Outcome State Fault Refusal :=
  onDev (fun d => doTraj d r o log g1.toInt steps) s

/-! ### INJECT (R240 to R250, R287, R409) -/

/-- Ranges of a record. -/
def recOk : InjectRec → Bool
  | .gen g =>
    match g.kind with
    | .sine => true
    | .sweep => decide (1024 ≤ g.len ∧ g.len ≤ 2 ^ 24)
    | .multitone => decide (1024 ≤ g.period ∧ g.period ≤ 65536 ∧ 1 ≤ g.tones ∧ g.tones ≤ 64)
    | .noise => decide (g.seed ≠ 0)
    | .mls => decide (10 ≤ g.order ∧ g.order ≤ 20)
  | .tones _ _ ts => decide (1 ≤ ts.length ∧ ts.length ≤ 7)
  | .tap _ _ _ _ _ => true
  | .cap _ _ _ cont _ dec ring count =>
    decide (1 ≤ dec ∧ dec ≤ 65536 ∧ 1024 ≤ ring ∧ ring ≤ 131072) && (cont || decide (1 ≤ count ∧ count ≤ ring))

/-- Tone `k` that the Tones records of a command give a generator. -/
def toneOf (recs : List InjectRec) (g k : Nat) : Option Tone :=
  recs.findSome? fun
    | .tones h first ts => if h.val = g ∧ first ≤ k then ts[k - first]? else none
    | _ => none

/-- All tones of a MULTITONE generator, none where one is missing or its bin lies outside its period (R409, Table 8-5). -/
def tonesOf (recs : List InjectRec) (g : GenRec) : Option (List Tone) :=
  if g.kind ≠ .multitone then some []
  else
    let ts := (List.range g.tones).filterMap (toneOf recs g.gen.val)
    if ts.length = g.tones ∧ ts.all (fun t => decide (1 ≤ t.bin.toNat ∧ 2 * t.bin.toNat + 2 ≤ g.period)) then some ts else none

/-- Rules of an ARM that depend on no image. -/
def armFieldOk (recs : List InjectRec) : Bool :=
  decide (recs ≠ []) && recs.all recOk && recs.all fun
    | .gen g => (tonesOf recs g).isSome
    | _ => true

/-- Whether a channel's mix tile has an AWL stitch for its mix output (R244). -/
def mixAwl (img : Image) (c : Ch) : Bool :=
  (img.fi (16 + c.val / 32)).any fun s => decide (s.type = tyAwl ∧ s.srcB = 0 ∧ s.dst / 0x340 = c.val % 32 / 4) && s.lane (c.val % 4)

/-- Whether the node a record names has its stitch; the mix of the odd half of a bridged pair is no node (R335). (DEDUCED, log entry 39.) -/
def nodeOk (d : Dev) (img : Image) : InjectRec → Bool
  | .tap _ _ node c _ => if node = .mixOut then mixAwl img c && !oddHalf d c else innerAwl img c
  | .cap _ p c _ _ _ _ _ => if p = .setpoint ∨ p = .error then innerAwl img c else true
  | _ => true

/-- Units a measurement holds: generator, tap and capture units (R287). -/
def heldUnits (d : Dev) : List (List Nat) := d.chs.toList.filterMap fun x => x.meas.map (·.units)

/-- Whether a generator, tap or capture unit is held by a measurement. -/
def genHeld (d : Dev) (g : Nat) : Bool := (heldUnits d).any fun u => decide (u[0]? = some g)
def tapHeld (d : Dev) (t : Nat) : Bool := (heldUnits d).any fun u => decide (u[1]? = some t)
def capHeld (d : Dev) (u : Nat) : Bool := (look d.awl.caps u .reset).heldBy.isSome

/-- Whether a record names a unit that a measurement holds. -/
def recHeld (d : Dev) : InjectRec → Bool
  | .gen g => genHeld d g.gen.val
  | .tones g _ _ => genHeld d g.val
  | .tap t g _ _ _ => tapHeld d t.val || genHeld d g.val
  | .cap u _ _ _ _ _ _ _ => capHeld d u.val

/-- Arm what a record names. -/
def armRec (recs : List InjectRec) (a : Awl) : InjectRec → Awl
  | .gen g =>
    let lf := match g.kind with | .noise => g.seed.toNat | .mls => 2 ^ g.order - 1 | _ => 0
    { a with gens := a.gens.set g.gen ⟨some g, (tonesOf recs g).getD [], true, 0, 0, lf, 0⟩ }
  | .tones _ _ _ => a
  | .tap t g node c gain => { a with taps := a.taps.set t (some ⟨g.val, node, c.val, gain.toInt⟩) }
  | .cap u p c cont st dec ring count =>
    { a with caps := a.caps.set u { Cap.reset with
        armed := true, point := p, ch := c.val, cont := cont, strobe := st, dec := dec, ring := ring, limit := count } }

/-- Whether the taps of some generator serve nodes of both rates (R240). -/
def ratesMixed (a : Awl) : Bool :=
  (List.range 8).any fun g =>
    let nodes := a.taps.toList.filterMap fun t => match t with | some x => if x.gen = g then some x.node else none | none => none
    nodes.contains .mixOut && nodes.any fun n => decide (n ≠ .mixOut)

/-- Ring entries of all armed units. -/
def ringSum (a : Awl) : Nat := ((a.caps.toList.filter (·.armed)).map (·.ring)).sum

/-- INJECT ARM at the present boundary. -/
def doInjectArm (d : Dev) (r : CmdRef) (recs : List InjectRec) : Dev :=
  if !armFieldOk recs then refuse d r opInject stField
  else if hostClosed d then refuse d r opInject stNotReady
  else match d.core.image with
    | none => refuse d r opInject stNotReady
    | some img =>
      let a := recs.foldl (armRec recs) d.awl
      if !recs.all (nodeOk d img) || ratesMixed a then completeAt d r opInject stField d.tb.stc
      else if recs.any (recHeld d) || decide (524288 < ringSum a) then completeAt d r opInject stNotReady d.tb.stc
      else completeAt { d with awl := a } r opInject stSuccess d.tb.stc

/-- INJECT_ARM. -/
def execInjectArm (r : CmdRef) (recs : List InjectRec) (s : State) : Host.Outcome State Fault Refusal :=
  onDev (fun d => doInjectArm d r recs) s

/-- INJECT STOP at the present boundary (R248). -/
def doInjectStop (d : Dev) (r : CmdRef) (gens : Byte) (taps units : BitVec 16) : Dev :=
  if hostClosed d || !imageOn d then refuse d r opInject stNotReady
  else if (List.range 8).any (fun g => gens.getLsbD g && genHeld d g) || (List.range 16).any fun k =>
      (taps.getLsbD k && tapHeld d k) || (units.getLsbD k && capHeld d k) then
    completeAt d r opInject stNotReady d.tb.stc
  else
    let a := d.awl
    let a1 := { a with
      gens := tab a.gens fun i g => if gens.getLsbD i.val then { g with running := false, value := 0 } else g
      taps := tab a.taps fun i t => if taps.getLsbD i.val then none else t
      caps := tab a.caps fun i u => if units.getLsbD i.val then { u with armed := false } else u }
    completeAt { d with awl := a1 } r opInject stSuccess d.tb.stc

/-- INJECT_STOP. -/
def execInjectStop (r : CmdRef) (gens : Byte) (taps units : BitVec 16) (s : State) : Host.Outcome State Fault Refusal :=
  onDev (fun d => doInjectStop d r gens taps units) s

/-! ### CAPTURE_READ (R410) -/

/-- The eight bytes of a capture entry; one whose code word is uncorrectable reads as 0xFF (Tables 8-8, 16-1). -/
def capBytes (e : CapEntry) : List Byte :=
  if e.bad then List.replicate 8 0xFF else le 3 (wrap 24 e.value) ++ le 1 e.flags ++ le 3 (wrap 24 e.inj) ++ [0]

/-- CAPTURE_READ: entries from START or the oldest kept. Where none is copied RESULT0 names no entry and is free. -/
def doCaptureRead (d : Dev) (r : CmdRef) (u : Fin 16) (start : Nat) : Dev :=
  if r.len < 8 ∨ r.len % 8 ≠ 0 then refuse d r opCapture stField
  else if hostClosed d then refuse d r opCapture stNotReady
  else
    let c := d.awl.caps[u]
    let from_ := max start c.first
    let es := (c.entries.drop (from_ - c.first)).take (r.len / 8)
    let r0 := if es = [] then Config.freeNat d.free else from_
    complete (hostWrite d.tick r (es.flatMap capBytes)) r opCapture stSuccess r0 es.length

/-- CAPTURE_READ. -/
def execCaptureRead (r : CmdRef) (u : Fin 16) (start : Nat) (s : State) : Host.Outcome State Fault Refusal :=
  onDev (fun d => doCaptureRead d r u start) s

end Sys2Proof.Machine
end

