-- ==== Sys2Proof/Machine/Shank.lean ====
section
/-!
DEFINITION. The Shank: the grant cycle (R463 to R472), temperature sensors and thermal levels (R474 to R482) and the
non-volatile write window with the writes that wait for it (R473, R483, R484).
-/

namespace Sys2Proof.Machine

/-! ### The grant cycle -/

/-- A rational on the whole grid: exact, or one of its two neighbours as the free bit says. -/
def ratGrid (r : Rat) (up : Bool) : Int := if r.den = 1 then r.num else r.floor + (if up then 1 else 0)

/-- Power of a report in W (R275): Σ v̄ × ī over 32 Fi periods, in units of 2^(-23) of 24 V times 2^(-23) of 10 A. -/
def powerOf (report : Int) : Rat := (report : Rat) * 240 / (32 * 70368744177664)

/-- E in J from its unit 1 / (3,000 × 2^47) J. -/
def bucketJ (e : Int) : Rat := (e : Rat) / (3000 * 140737488355328)

/-- The current cap of a rail in 0.1 A (R469): the lower of the declared and the measured cap, if either exists. -/
def railCap (declared : Nat) (measured : Option Nat) : Option Nat :=
  match measured with
  | none => if declared = 0 then none else some declared
  | some m => some (if declared = 0 then m else min declared m)

/-- Highest throttle level set in a scope. -/
def levelOf (l : List Bool) : Nat := if l.getD 2 false then 3 else if l.getD 1 false then 2 else if l.getD 0 false then 1 else 0

/-- A channel's throttle level: the higher of its tile's and the core's (R479). -/
def levelAt (d : Dev) (c : Ch) : Nat := max (levelOf d.shank.tileL[tileOf c]) (levelOf d.shank.coreL)

/-- A channel's demand in W (R465). -/
def demandW (d : Dev) (c : Ch) : Rat :=
  let p := powerOf d.chs[c].sense.report
  let g : Rat := (d.shank.govern[c] : Rat) / 32768
  if d.chs[c].sense.reportBind = 3 then ratMin 100 (p / (g * g)) else p

/-- Sum over the channels. -/
def sumCh (f : Ch → Rat) : Rat := ((ixs 128).map f).foldl (· + ·) 0

/-- What a grant cycle computes for the part (R466 to R471). -/
structure Cycle where
  e : Int
  sum : Rat
  ap : Rat
  as_ : Option Rat
  a : Rat
  d1 : Rat
  d0 : Rat
  g1 : Rat
  g0 : Rat

/-- Mean rail span V_PVP − V_PVN in V over the outer period just closed. -/
def railSpan (d : Dev) : Rat :=
  let s : Int := (d.power.toList.map fun p => p.sumP - p.sumN).sum
  let n : Nat := (d.power.toList.map (·.cnt)).sum
  if n = 0 then 0 else (s : Rat) / (n : Rat) / 100

/-- Number of released channels. -/
def releasedCount (d : Dev) : Nat := (d.chs.toList.filter fun x => x.prot.released).length

/-- The grant cycle's computation with the rise factor of this cycle. (DEDUCED, log entry 33.) -/
def cycleOf (d : Dev) (fRise : Int) : Cycle :=
  let s := d.shank
  let reports : Int := (d.chs.toList.map fun x => x.sense.report).sum
  let sum := powerOf reports
  let e := clampI 0 ((s.bucket : Int) * 3000 * 2 ^ 47) (s.e + 2 ^ 47 * (s.pCont : Int) - 15 * reports)
  let head : Rat := (s.pPeak : Rat) - s.pCont
  let ap : Rat := s.pCont + ratMin head (ratSqrt (2 * bucketJ e * head * 1000 / 9))
  let caps := match railCap s.capP d.rails.icapP, railCap s.capN d.rails.icapN with
    | some p, some n => some (min p n)
    | some p, none => some p
    | none, some n => some n
    | none, none => none
  let as_ : Option Rat := caps.map fun k => (k : Rat) / 10 * railSpan d * s.eta / 1000 - (s.pIdle : Rat) / 1000 * releasedCount d
  let low : Rat := match as_ with | some x => ratMin ap x | none => ap
  let a := low * fRise / 128
  let cls (k : Bool) : Rat := sumCh fun c => if d.chs[c].cfg.shankClass = k then demandW d c else 0
  let d1 := cls true
  let d0 := cls false
  let (g1, g0) : Rat × Rat :=
    if d0 + d1 ≤ a then (1, 1) else if d1 ≤ a then (1, ratSqrt ((a - d1) / d0)) else (ratSqrt (a / d1), 1 / 64)
  ⟨e, sum, ap, as_, a, d1, d0, g1, g0⟩

/-- Least budget of a cycle (Table 15-9): none while the demand fits. (DEDUCED, log entry 33.) -/
def bindBudget (y : Cycle) (fRise : Int) : Nat :=
  if y.d0 + y.d1 ≤ y.a then 0
  else if fRise < 128 then 3
  else match y.as_ with | some x => if x < y.ap then 2 else 1 | none => 1

/-- Wear added to a channel in 2^(-32) A²·ms (R472). -/
def wearStep (d : Dev) (c : Ch) : Nat :=
  let l := lead d c
  match d.core.image.bind fun i => laneStitch i tyExcur l with
  | none => 0
  | some s =>
    let i2 := (d.core.tiles[etOf l].rd (s.dst + 13) (l.val % 4)).rat / 32
    let r : Rat := (d.chs[c].cfg.iRated : Rat) / 1000
    if r * r < i2 then ((i2 - r * r) / 3 * 4294967296).floor.toNat else 0

/-- A grant in UQ1.15 (R466). (DEDUCED, log entry 33.) -/
def grantOf (d : Dev) (y : Cycle) (c : Ch) (up : Bool) : Nat :=
  let g := if d.chs[c].cfg.shankClass then y.g1 else y.g0
  (ratGrid (ratMax (1 / 64) (g * (1 - (levelAt d c : Rat) / 4)) * 32768) up).toNat

/-- A value of a register field of `w` bits. -/
def fieldSat (w : Nat) (z : Int) : Nat := (clampI 0 (2 ^ w - 1) z).toNat

/-- The grant cycle at an outer boundary (R463 to R472). -/
def grantDev (d : Dev) : Dev :=
  if d.guard.audioReset || !d.tb.started || decide (d.tb.stc % 32 ≠ 0) then d
  else
    let s := d.shank
    let bitAt (k : Nat) : Bool := Config.freeBit (d.free + k)
    let rise := d.rails.reportP || d.rails.reportN
    let f := if rise then max 32 (gridDiv (3 * s.fRise) 4 (bitAt 128)) else min 128 (s.fRise + 1)
    let y := cycleOf d f
    let irail := if railSpan d = 0 then 0 else (y.sum * 1000 / s.eta + (s.pIdle : Rat) / 1000 * releasedCount d) / railSpan d * 10
    let cap (o : Option Nat) : Nat := match o with | some x => x | none => 0xFFFF
    { d with
      free := d.free + 133
      rails := { d.rails with reportP := false, reportN := false }
      power := tab d.power fun _ p => { p with sumP := 0, sumN := 0, cnt := 0 }
      chs := tab d.chs fun c x => { x with wear := (x.wear + wearStep d c) % 2 ^ 96 }
      shank := { s with
        e := y.e
        fRise := f
        bind := bindBudget y f
        allow := fieldSat 12 (ratGrid y.a (bitAt 129))
        out := fieldSat 12 (ratGrid y.sum (bitAt 130))
        irail := fieldSat 16 (ratGrid irail (bitAt 131))
        icapP := cap (railCap s.capP d.rails.icapP)
        icapN := cap (railCap s.capN d.rails.icapN)
        cycles := if rise then satN 0xFFFF (s.cycles + 1) else s.cycles
        govern := s.grants
        grants := Vector.ofFn fun c => grantOf d y c (bitAt c.val)
        demand := Vector.ofFn fun c => fieldSat 10 (ratGrid (demandW d c * 10) (bitAt 132))
        level := Vector.ofFn fun c => levelAt d c
        fresh := true } }

/-! ### Sensors and levels -/

/-- The sensor of an index. -/
def sensorAt (d : Dev) (i : Nat) : Therm := look d.shank.sensors i (Therm.reset false)

/-- What a sensor reads for the Shank: the stand-in while broken (R476). -/
def effective (d : Dev) (x : Therm) : Int := if x.broken then d.shank.thrSet + 10 else x.reading

/-- Whether a sensor counts: in use, not retired, with a reading or a stand-in. -/
def counts (x : Therm) : Bool := x.inUse && !x.retired && (x.read || x.broken)

/-- Sensors of power tile `k`. -/
def tileSensors (k : Nat) : List Nat := [3 * k, 3 * k + 1, 3 * k + 2]

/-- Core sensors. -/
def coreSensors : List Nat := [48, 49, 50, 51, 52, 53]

/-- The readings of a scope. -/
def readings (d : Dev) (l : List Nat) : List Int := (l.map (sensorAt d)).filterMap fun x => if counts x then some (effective d x) else none

/-- The levels 1 to 3 of a scope with its readings (R479). -/
def levelsOf (thr hyst : Int) (old : List Bool) (rs : List Int) : List Bool :=
  [0, 1, 2].map fun k =>
    let set := thr + 50 * (k : Nat)
    rs.any (fun r => decide (set ≤ r)) || (old.getD k false && !(rs.all fun r => decide (r < set - hyst)))

/-- Whether a guard comparator that acts finds its sensor above 125 °C (R481, R482). -/
def guardHot (d : Dev) : Bool :=
  d.shank.sensors.toList.any fun x =>
    !x.retired && x.read && !x.fault && decide (-550 ≤ x.reading ∧ x.reading ≤ 1750) && decide (1250 < x.reading)

/-- Whether the hot-swap gates wait for a start of precharge (R482). (DEDUCED, log entry 59.) -/
def preIdle (d : Dev) : Bool := decide (d.rails.preState = 0 ∨ d.rails.preState = 5)

/-- Re-evaluate warning, levels, throttle and the hold (R478 to R480, R482). -/
def thermEval (d : Dev) : Dev :=
  let s := d.shank
  let tl := tab s.tileL fun k l => levelsOf s.thrSet s.thrHyst l (readings d (tileSensors k.val))
  let cl := levelsOf s.thrSet s.thrHyst s.coreL (readings d coreSensors)
  let all := readings d (List.range 54)
  let warn := all.any (fun r => decide (s.warnSet ≤ r)) || (s.warn && !(all.all fun r => decide (r < s.warnSet - s.warnHyst)))
  let up := decide (levelOf s.coreL < levelOf cl) || (ixs 16).any fun k => decide (levelOf s.tileL[k] < levelOf tl[k])
  let thr := decide (0 < levelOf cl) || (ixs 16).any fun k => decide (0 < levelOf tl[k])
  let d1 := { d with
    guard := { d.guard with hold := guardHot d && preIdle d }
    shank := { s with tileL := tl, coreL := cl, warn := warn, throttle := thr, tjRun := all.foldl max s.tjRun } }
  let d2 := if warn && !s.warn then setThm d1 0 else d1
  let d3 := if thr && !s.throttle then setThm d2 1 else d2
  if up then setThm d3 2 else d3

/-- Whether a sensor is sampled: in use, or an unused spare (R474). -/
def sampled (i : Nat) (x : Therm) : Bool := !x.retired && (x.inUse || decide (i < 48 ∧ i % 3 = 2) || decide (52 ≤ i))

/-- A sample of a sensor in 0.1 °C, with its front-end's fault (R474). -/
def thermalDev (d : Dev) (i : Sensor) (reading : Int) (fault : Bool) : Dev :=
  let x := d.shank.sensors[i]
  if d.guard.audioReset || !sampled i.val x then d
  else
    let y := { x with reading := reading, read := true, fault := fault
                      fast := decide (d.shank.thrSet - 100 ≤ reading) || decide (d.shank.warnSet ≤ reading) }
    thermEval { d with shank := { d.shank with sensors := d.shank.sensors.set i y } }

/-- THERMAL_SAMPLE (R474). -/
def execThermalSample (sn : Sensor) (reading : Int) (fault : Bool) (s : State) : Host.Outcome State Fault Refusal :=
  onDev (fun d => thermalDev d sn reading fault) s

/-- The spare of a sensor (Table 15-3). -/
def spareOf (i : Nat) : Nat := if i < 48 then i / 3 * 3 + 2 else if i < 50 then 52 else if i < 52 then 53 else i

/-- Whether a sensor is itself a spare. -/
def isSpare (i : Nat) : Bool := decide (spareOf i = i)

/-- The other sensors of a sensor's place: its scope's active pair and their spare. -/
def placeOf (i : Nat) : List Nat :=
  if i < 48 then tileSensors (i / 3) else if i = 48 ∨ i = 49 ∨ i = 52 then [48, 49, 52] else [50, 51, 53]

/-- The neighbour of a sensor: the other one of its place that is in use and not broken (R475, R476). (DEDUCED, log entry 34.) -/
def neighbour (d : Dev) (i : Nat) : Option Nat :=
  (placeOf i).find? fun j => decide (j ≠ i) && (sensorAt d j).inUse && !(sensorAt d j).broken && !(sensorAt d j).retired

/-- Whether a sensor's reading is plausible. (DEDUCED, log entry 34.) -/
def plausible (x : Therm) : Bool := x.read && !x.fault && decide (-550 ≤ x.reading ∧ x.reading ≤ 1750)

/-- Whether an unused spare can be swapped in for a sensor. (DEDUCED, log entry 34.) -/
def spareFree (d : Dev) (i : Nat) : Bool :=
  let x := sensorAt d (spareOf i)
  !isSpare i && !x.inUse && !x.retired && !x.broken

/-- Whether a sensor is broken under R475: at once when its front-end or its reading says so, otherwise because it differs from its
neighbour and is the one that does so by its spare, or the lower one. (DEDUCED, log entry 34.) -/
def isBroken (d : Dev) (i : Nat) : Bool :=
  let x := sensorAt d i
  if !plausible x then x.read
  else match neighbour d i with
    | none => false
    | some j =>
      let y := sensorAt d j
      let sp := sensorAt d (spareOf i)
      decide (80 < (x.reading - y.reading).natAbs) &&
        (if spareFree d i && plausible sp then decide ((y.reading - sp.reading).natAbs ≤ (x.reading - sp.reading).natAbs)
         else decide (x.reading ≤ y.reading))

/-- Replace a sensor. -/
def setSensor (d : Dev) (i : Nat) (f : Therm → Therm) : Dev := { d with shank := { d.shank with sensors := updN d.shank.sensors i f } }

/-- The spare of a broken sensor comes into use, which is the Cobbler's work: without its windows the spare waits (R29, R476). -/
def swapSensor (d : Dev) (i : Nat) : Dev :=
  if spareFree d i && cobWorks d then
    let e := setThm (setSensor d (spareOf i) fun y => { y with inUse := true }) 4
    { e with cob := { e.cob with tsenseSpares := e.cob.tsenseSpares - 1 } }
  else d

/-- A sensor in use is declared broken and its spare comes in on the same cycle, or on a later one where the Cobbler had no window (R29,
R475 to R477). -/
def brokenDev (d : Dev) (i : Sensor) : Dev :=
  let x := d.shank.sensors[i]
  if d.guard.audioReset || !x.inUse || x.retired || (!x.broken && !isBroken d i.val) then d
  else if x.broken then thermEval (swapSensor d i.val)
  else
    let d1 := setThm (setSensor d i.val fun y => { y with broken := true }) 3
    thermEval (if spareFree d i.val then swapSensor d1 i.val else setThm d1 5)

/-- SENSOR_BROKEN (R475). -/
def execSensorBroken (sn : Sensor) (s : State) : Host.Outcome State Fault Refusal := onDev (fun d => brokenDev d sn) s

/-- A broken sensor is retired once its spare has read plausibly and within 8 °C of the neighbour (R476). -/
def retireDev (d : Dev) (i : Sensor) : Dev :=
  let x := d.shank.sensors[i]
  let j := spareOf i.val
  let sp := sensorAt d j
  let near := match (placeOf i.val).find? fun k => decide (k ≠ i.val ∧ k ≠ j) with
    | some k => decide ((sp.reading - effective d (sensorAt d k)).natAbs ≤ 80)
    | none => false
  if cobWorks d && x.broken && !x.retired && !isSpare i.val && sp.inUse && !sp.broken && plausible sp && near then
    thermEval (setSensor d i.val fun y => { y with retired := true, inUse := false })
  else d

/-- SENSOR_RETIRE (R476). -/
def execSensorRetire (sn : Sensor) (s : State) : Host.Outcome State Fault Refusal := onDev (fun d => retireDev d sn) s

/-! ### The non-volatile write window -/

/-- Whether the write window is open (R483): the core sensors in use read from 0 °C to 95 °C. -/
def nvOpen (d : Dev) : Bool :=
  let rs := readings d coreSensors
  decide (rs ≠ []) && rs.all (fun r => decide (0 ≤ r ∧ r ≤ 950))

/-- Start a write of the EX128's own, or make it wait for the window (R484). -/
def nvOwn (d : Dev) (j : NvJob) : Dev :=
  if nvOpen d then { d with admin := { d.admin with nv := d.admin.nv ++ [j] } }
  else setThm { d with admin := { d.admin with nvDeferred := d.admin.nvDeferred ++ [j] } } 6

/-- NV_WINDOW_OPEN (R484): the writes that waited are made in order. -/
def nvWindowDev (d : Dev) : Dev :=
  if nvOpen d then { d with admin := { d.admin with nv := d.admin.nv ++ d.admin.nvDeferred, nvDeferred := [] } } else d

def execNvWindowOpen (s : State) : Host.Outcome State Fault Refusal := onDev nvWindowDev s

/-- HEALTH_SAVE (R473): it waits while the part throttles (R480) and while the Cobbler has no window (R29). -/
def healthDev (d : Dev) : Dev := if d.guard.audioReset || d.shank.throttle || !cobWorks d then d else nvOwn d .health

def execHealthSave (s : State) : Host.Outcome State Fault Refusal := onDev healthDev s

end Sys2Proof.Machine
end

