-- ==== Sys2Proof/Machine/Measure.lean ====
section
/-!
DEFINITION. Load measurement (R285 to R310) and the supply measurement after precharge (R311 to R313).

STEP of a measurement is 1 pre-check, 2 DC, 3 CABLE, 4 SWEEP, 5 FIT, 6 STORE or DELETE, 7 ending, 0 while only the result is
still to be written. Its `fi` counts the Fi periods of the present step or tone.
-/

namespace Sys2Proof.Machine

/-! ### Fields of a result -/

/-- A field of `w` bits from its exact value: one of the two neighbours on its grid; a value that the field can't hold, or that
the spec leaves without meaning, is free. (DESIGN CHOICE, log entry 35.) -/
def resField (w : Nat) (r : Option Rat) (k : Nat) : Nat :=
  match r with
  | some x => if 0 ≤ x ∧ x ≤ ((2 ^ w - 1 : Nat) : Rat) then (ratGrid x (Config.freeBit k)).toNat else Config.freeNat k % 2 ^ w
  | none => Config.freeNat k % 2 ^ w

/-- A signed field of `w` bits. (DESIGN CHOICE, log entry 35.) -/
def resSigned (w : Nat) (r : Option Rat) (k : Nat) : Int :=
  match r with
  | some x =>
    if -((2 ^ (w - 1) : Nat) : Rat) ≤ x ∧ x ≤ ((2 ^ (w - 1) - 1 : Nat) : Rat) then ratGrid x (Config.freeBit k)
    else signed w (Config.freeNat k)
  | none => signed w (Config.freeNat k)

/-- Replace the measurement of a channel. -/
def setMeas (d : Dev) (c : Ch) (m : Meas) : Dev := d.ch c fun x => { x with meas := some m }

/-! ### Tones of the sweep (R295 to R297) -/

/-- Increment of point `k`: round(10 Hz × 4,000^(k/63) × 2^32 / Fc). -/
def toneDelta (n k : Nat) : Nat := (roundDiv (fxPow (4000 * fxOne) k 63 * 10 * 2 ^ 32) (n * 96000 * 2 ^ 96)).toNat

/-- Smallest whole number not below `a / b`. -/
def ceilDiv (a b : Nat) : Nat := (a + b - 1) / b

/-- Fi periods a point settles: max(3 cycles, 5 ms). -/
def settleFi (n delta : Nat) : Nat := max 480 (ceilDiv (3 * 2 ^ 32) (delta * n))

/-- Fi periods a point is measured over: the whole number nearest to max(4 cycles, 10 ms) whole cycles. -/
def measureFi (n delta : Nat) : Nat :=
  let cycles := max 4 (ceilDiv (delta * n * 96000) (100 * 2 ^ 32))
  (roundDiv (cycles * 2 ^ 32) (delta * n)).toNat

/-- Amplitude of the tone in Q1.23 of its set-point: 0.2 V, or 0.2 V / RDC on a privileged channel. -/
def toneAmp (x : Chan) (m : Meas) (up : Bool) : Int :=
  if x.cfg.privileged then gridDiv (2 ^ 23 * 20000) (max 1 m.rdc) up else gridDiv (2 ^ 23) 120 up

/-- Whether the tone of a sweep runs. -/
def toneOn (d : Dev) (m : Meas) : Bool := (look d.awl.gens (m.units.getD 0 8) .reset).running

/-- Start the tone of the present point: generator, set-point tap and the three capture units with DEC = N. -/
def startTone (d : Dev) (c : Ch) (m : Meas) : Dev :=
  match m.units with
  | [g, t, u0, u1, u2] =>
    let rec_ : GenRec :=
      { gen := Fin.ofNat 8 g, kind := .sine, rept := false, amp := BitVec.ofInt 24 (toneAmp d.chs[c] m (Config.freeBit d.free))
        delta1 := BitVec.ofNat 32 (toneDelta d.tb.n m.point), delta2 := 0, len := 0, theta0 := 0, order := 0, seed := 0
        period := 0, tones := 0 }
    let unit (p : CapPoint) : Cap := { Cap.reset with
      armed := true, point := p, ch := c.val, cont := true, dec := d.tb.n, ring := 131072, heldBy := some c.val }
    let a := d.awl
    let a1 := { a with
      gens := updN a.gens g fun _ => ⟨some rec_, [], true, 0, 0, 0, 0⟩
      taps := updN a.taps t fun _ => some ⟨g, .setpoint, c.val, unity⟩
      caps := updN (updN (updN a.caps u0 fun _ => unit .voltage) u1 fun _ => unit .current) u2 fun _ => unit .duty }
    setMeas { d.tick with awl := a1 } c { m with fi := 0, tripped := false }
  | _ => d

/-- The Fi boundary's share of a measurement: it counts the periods, and sums the Fi means in the last 10 ms of DC and the last
20 ms of CABLE (R291, R293). -/
def measFi (d : Dev) (c : Ch) : Dev :=
  match d.chs[c].meas with
  | none => d
  | some m =>
    let v := if bridgedB d c then d.chs[c].sense.meanV - d.chs[oddOf c].sense.meanV else d.chs[c].sense.meanV
    let m1 := { m with fi := m.fi + 1 }
    if (m.step = 2 ∨ m.step = 3) ∧ 960 ≤ m.fi then
      setMeas d c { m1 with sumV := m.sumV + v, sumI := m.sumI + d.chs[c].sense.meanI, cnt := m.cnt + 1 }
    else if m.step = 4 ∧ toneOn d m = false ∧ rampOf d c ≤ m1.fi then startTone d c m1
    else if m.step = 4 ∧ toneOn d m = true ∧ m1.fi = settleFi d.tb.n (toneDelta d.tb.n m.point) then
      setMeas d c { m1 with tripped := false }
    else setMeas d c m1

/-! ### Acceptance (R285 to R289) -/

/-- Rules of MEASURE_LOAD that depend on no image. -/
def stepsOk (st : Nat) : Bool :=
  decide (st < 64) && !((bit st 1 || bit st 2 || bit st 3) && !bit st 0) && !(bit st 3 && !bit st 2) && !(bit st 4 && !bit st 3)
    && !(bit st 5 && decide (st ≠ 32))

/-- The lowest generator, tap and three capture units that neither INJECT has armed nor a measurement holds (R287). -/
def freeMeasUnits (d : Dev) : Option (List Nat) :=
  let a := d.awl
  let gs := (ixs 8).filter fun i => !a.gens[i].running && !genHeld d i.val
  let ts := (ixs 16).filter fun i => a.taps[i].isNone && !tapHeld d i.val
  let us := (ixs 16).filter fun i => !a.caps[i].armed && a.caps[i].heldBy.isNone
  match gs, ts, us with
  | g :: _, t :: _, u :: v :: w :: _ => some [g.val, t.val, u.val, v.val, w.val]
  | _, _, _ => none

/-- A measurement at its start. -/
def Meas.start (r : CmdRef) (st stc : Nat) (units : List Nat) : Meas where
  ref := r
  steps := st
  step := 1
  done := 0
  cls := 4
  driven := false
  tripped := false
  point := 0
  fi := 0
  sumV := 0
  sumI := 0
  sumSw := 0
  cnt := 0
  cntSw := 0
  rdc := 0
  idc := 0
  rcable := 0
  length := 0
  cableValid := false
  points := []
  fit := []
  fitPoor := false
  mechValid := false
  lf := 0
  fres := 0
  notchDev := 0
  stored := false
  mismatch := false
  status := 0
  stc := stc
  writing := false
  units := units

/-- RESULT0 of a measurement that ran nothing: no step done, not classified. (DEDUCED, log entry 36.) -/
def measNone : Nat := 0x400

/-- The units a measurement takes: those of a sweep. -/
def measUnits (d : Dev) (st : Nat) : Option (List Nat) := if bit st 2 then freeMeasUnits d else some []

/-- MEASURE_LOAD. (DEDUCED, log entry 36.) -/
def doMeasure (d : Dev) (r : CmdRef) (c : Ch) (st : Nat) : Dev :=
  let fin (s : Nat) : Dev := complete d r opMeasure s measNone 0
  if !stepsOk st || decide (r.len < 1152) then fin stField
  else if hostClosed d then fin stNotReady
  else match d.core.image with
    | none => fin stNotReady
    | some img =>
      let hs := halves d c
      if oddHalf d c || (bit st 1 && !d.power[tileOf c].senseRemote) || (bit st 2 && !innerAwl img c) then fin stField
      else if hs.any fun h => d.chs[h].prot.latched then fin stLatched
      else if (hs.any fun h => d.chs[h].prot.released || d.chs[h].mod.halted || inStop d.chs[h] || decide (d.chs[h].prot.drive ≠ .off))
          || d.chs[c].meas.isSome || clearRefused d c then fin stNotReady
      else match measUnits d st with
        | none => fin stNotReady
        | some us =>
          let hold (a : Awl) : Awl := { a with caps := tab a.caps fun i u => if (us.drop 2).contains i.val then { u with heldBy := some c.val } else u }
          setMeas { d with awl := hold d.awl } c (Meas.start r st d.tb.stc us)

/-- MEASURE_LOAD (R285). -/
def execMeasureLoad (r : CmdRef) (c : Ch) (steps : Byte) (s : State) : Host.Outcome State Fault Refusal :=
  onDev (fun d => doMeasure d r c steps.toNat) s

/-! ### Steps -/

/-- Start a step with its sums at zero. -/
def Meas.toStep (m : Meas) (k : Nat) : Meas :=
  { m with step := k, fi := 0, sumV := 0, sumI := 0, sumSw := 0, cnt := 0, cntSw := 0, tripped := false }

/-- Switching ends: 16 periods at half duty follow (R289). -/
def measEnding (d : Dev) (c : Ch) (m : Meas) : Dev :=
  setMeas (forCh (halves d c) (fun e h => e.ch h fun x => { x with prot := { x.prot with ssCount := 0, sweep := false } }) d) c
    { m with step := 7 }

/-- Only the result is still to be written. -/
def Meas.toResult (m : Meas) (status : Nat) : Meas := { m with step := 0, writing := true, status := status }

/-- Start the sweep's closed loop (R296). -/
def startSweep (d : Dev) (c : Ch) (m : Meas) : Dev :=
  setMeas (forCh (halves d c) (fun e h => e.ch h fun x => { x with prot := { x.prot with sweep := true } }) d) c
    { m.toStep 4 with point := 0 }

/-- MEASURE_PRECHECK_END (R290). (DEDUCED, log entry 36.) -/
def precheckEnd (d : Dev) (c : Ch) : Dev :=
  match d.chs[c].meas with
  | none => d
  | some m =>
    if m.step ≠ 1 ∨ m.fi < 960 then d
    else if m.driven then setMeas d c ({ m with cls := 3 }.toResult stSuccess)
    else if bit m.steps 0 then
      setMeas (forCh (halves d c) (fun e h => e.ch h fun x => { x with prot := { x.prot with drive := .measure, ssCount := 0 } }) d) c
        (m.toStep 2)
    else if bit m.steps 5 then setMeas d c (m.toStep 6)
    else setMeas d c (m.toResult stSuccess)

def execMeasurePrecheckEnd (c : Ch) (s : State) : Host.Outcome State Fault Refusal := onDev (fun d => precheckEnd d c) s

/-- V/I of summed sense values in Ω. -/
def ohms (v i : Int) : Option Rat := quot ((v : Rat) * 24) ((i : Rat) * 10)

/-- Mean of a sum in A. -/
def meanA (s : Int) (n : Nat) : Rat := if n = 0 then 0 else (s : Rat) * 10 / (8388608 * n)

/-- CLASS of the DC step (R292). -/
def classOf (rdc : Option Rat) (i : Rat) (trip : Bool) : Nat :=
  let below := match rdc with | some r => decide (r < 1) | none => false
  let above := match rdc with | some r => decide (200 < r) | none => false
  if trip || below then 1 else if above || decide (ratAbs i < 1 / 2000) then 2 else 0

/-- Whether RDC lies outside the bounds of the bound record (R307). -/
def mismatched (d : Dev) (c : Ch) (rdc : Rat) : Bool :=
  match boundRec d c with
  | none => false
  | some r =>
    let x := d.chs[c].cfg
    let re0 := recRat r 16 1000000
    let t0 : Rat := (signed 16 (leAt r 22 2) : Rat) / 10
    let al : Rat := (x.alpha : Rat) / 1000000
    let v := if remoteB d c then rdc else rdc - recRat r 8 1000000
    let lo := re0 * (1 + al * ((x.tAmb : Rat) / 10 - 20 - t0)) * 97 / 100
    let hi := re0 * (1 + al * ((x.tLim : Rat) / 10 - t0)) * 103 / 100
    !(decide (lo ≤ v) && decide (v ≤ hi))

/-- Set MISMATCH in the record bound to a channel (R307): the slot changes when its write completes (R446), and while the window is closed
the copy in shared SRAM governs at once (R484). -/
def setMismatch (d : Dev) (c : Ch) : Dev :=
  match d.chs[c].bound with
  | none => d
  | some k =>
    match Mem.find d.admin.records k with
    | none => d
    | some r =>
      let body := fit 252 (r.set 21 (BitVec.ofNat 8 (recFlags r ||| 32)))
      let r1 := body ++ le 4 (crc32 body)
      let d1 := if nvOpen d then d else { d with admin := { d.admin with records := Mem.put d.admin.records k r1 } }
      nvOwn d1 (.record k r r1)

/-- MEASURE_DC_END (R291, R292, R307). -/
def dcEnd (d : Dev) (c : Ch) : Dev :=
  match d.chs[c].meas with
  | none => d
  | some m =>
    if m.step ≠ 2 ∨ m.fi < 1920 then d
    else
      let r := ohms m.sumV m.sumI
      let i := meanA m.sumI m.cnt
      let cls := classOf r i m.tripped
      let mis := match r with | some x => mismatched d c x | none => false
      let d1 := (if mis then setMismatch d c else d).ticks 2
      let m1 := { m with
        done := m.done ||| 1
        cls := cls
        mismatch := mis
        rdc := resField 32 (r.map (· * 1000000)) d.free
        idc := resField 32 (some (i * 1000000)) (d.free + 1) }
      let d2 := d1.ch c fun x => { x with measClass := cls }
      if cls ≠ 0 then measEnding d2 c m1
      else if bit m.steps 1 then setMeas d2 c (m1.toStep 3)
      else if bit m.steps 2 then startSweep d2 c m1
      else measEnding d2 c m1

def execMeasureDcEnd (c : Ch) (s : State) : Host.Outcome State Fault Refusal := onDev (fun d => dcEnd d c) s

/-- Duty-weighted mean of a channel's two on-resistances in Ω (R293). -/
def rOn (x : Chan) : Rat :=
  let p : Rat := (x.mod.duty.toNat : Rat) / 8388608
  (p * (x.ron.getD 0 0 : Nat) + (1 - p) * (x.ron.getD 1 0 : Nat)) / 1000000

/-- RCABLE in Ω (R293), none where the current is 0. An inverted channel's V_sw is taken in its acoustic polarity, as its
samples are (R152, DEDUCED: log entry 25). -/
def cableOhms (d : Dev) (c : Ch) (m : Meas) : Option Rat :=
  let hs := halves d c
  let vsw : Rat := if m.cntSw = 0 then 0 else (m.sumSw : Rat) / (4194304 * m.cntSw) / 1000
  let vs := if negates d c then -vsw else vsw
  let v : Rat := if m.cnt = 0 then 0 else (m.sumV : Rat) * 24 / (8388608 * m.cnt)
  let rs := (hs.map fun h => rOn d.chs[h] + (d.chs[h].cfg.lfDcr : Rat) / 10000).sum
  (quot (vs - v) (meanA m.sumI m.cnt)).map (· - rs)

/-- MEASURE_CABLE_END (R293, R294). -/
def cableEnd (d : Dev) (c : Ch) : Dev :=
  match d.chs[c].meas with
  | none => d
  | some m =>
    if m.step ≠ 3 ∨ m.fi < 2880 then d
    else
      let r := (cableOhms d c m).map (ratMax 0)
      let x := d.chs[c].cfg
      let bad := decide (1 / 10 < ratAbs (meanA m.sumI m.cnt)) || decide (x.cableR = 0)
      let m1 := { m with
        done := m.done ||| 2
        rcable := resField 32 (r.map (· * 1000000)) d.free
        length := if bad then 0xFFFFFFFF else resField 32 (r.bind fun y => quot (y * 1000000000) x.cableR) (d.free + 1)
        cableValid := !bad }
      if bit m.steps 2 then startSweep (d.ticks 2) c m1 else measEnding (d.ticks 2) c m1

def execMeasureCableEnd (c : Ch) (s : State) : Host.Outcome State Fault Refusal := onDev (fun d => cableEnd d c) s

/-! ### Sweep points (R297, R298) -/

/-- The newest entries that span `n` evaluations, newest first, each with its age; an entry with DEC2 stands for two. -/
def backEntries (n : Nat) : Nat → List CapEntry → List (CapEntry × Nat)
  | _, [] => []
  | t, e :: es => if n ≤ t then [] else (e, t) :: backEntries n (t + (if bit e.flags 4 then 2 else 1)) es

/-- Correlation of entries with a tone whose phase advances `step` / 2^32 turns per evaluation. -/
def correlate (es : List (CapEntry × Nat)) (step : Nat) : Int × Int :=
  es.foldl (fun a p =>
    let turn : Int := (p.2 * step % 2 ^ 32 : Nat) * 2 ^ 64
    (a.1 + p.1.value * cosTurn turn, a.2 + p.1.value * sinTurn turn)) (0, 0)

/-- Quotient of two complex values. -/
def cdiv (a b : Int × Int) : Option (Rat × Rat) :=
  let n := b.1 * b.1 + b.2 * b.2
  if n = 0 then none
  else some (((a.1 * b.1 + a.2 * b.2 : Int) : Rat) / n, ((a.2 * b.1 - a.1 * b.2 : Int) : Rat) / n)

/-- The point that the captures of the present tone give. -/
def sweepPoint (d : Dev) (c : Ch) (m : Meas) : SweepPoint :=
  let n := d.tb.n
  let delta := toneDelta n m.point
  let span := measureFi n delta
  let es (k : Nat) : List (CapEntry × Nat) := backEntries span 0 (capWrite (look d.awl.caps (m.units.getD k 16) .reset)).entries.reverse
  let x (k : Nat) : Int × Int := correlate (es k) (delta * n)
  let z := cdiv (x 2) (x 3)
  let h := cdiv (x 4) (x 3)
  let r := d.power[tileOf c].rail
  let vs : Rat := (r.pvp - r.pvn : Int) * 1000
  let sgn : Rat := if negates d c then -1 else 1
  let freq : Rat := (delta * n * 96000 : Nat) / 4294967296
  let thr := decide (20000 < freq) && (es 2 ++ es 3 ++ es 4).any fun e => bit e.1.flags 4
  { freq := resField 24 (some (freq * 100)) d.free
    valid := !thr && !m.tripped
    throttled := thr
    tripped := m.tripped
    zRe := resSigned 32 (z.map fun y => y.1 * 2400000) (d.free + 1)
    zIm := resSigned 32 (z.map fun y => y.2 * 2400000) (d.free + 2)
    dRe := resSigned 32 (h.map fun y => sgn * y.1 * vs) (d.free + 3)
    dIm := resSigned 32 (h.map fun y => sgn * y.2 * vs) (d.free + 4) }

/-- Stop the units of a sweep; they stay held until the measurement completes. -/
def sweepUnitsOff (d : Dev) (c : Ch) (m : Meas) : Dev :=
  let a := d.awl
  { d with awl := { a with
    gens := updN a.gens (m.units.getD 0 8) fun g => { g with running := false, value := 0 }
    taps := updN a.taps (m.units.getD 1 16) fun _ => none
    caps := tab a.caps fun _ u => if u.heldBy = some c.val then { u with armed := false } else u } }

/-- SWEEP_POINT_END (R297). -/
def pointEnd (d : Dev) (c : Ch) : Dev :=
  match d.chs[c].meas with
  | none => d
  | some m =>
    let delta := toneDelta d.tb.n m.point
    if m.step ≠ 4 ∨ toneOn d m = false ∨ m.fi < settleFi d.tb.n delta + measureFi d.tb.n delta then d
    else
      let m1 := { m with points := m.points ++ [sweepPoint d c m] }
      let d1 := d.ticks 5
      if m.point < 63 then startTone d1 c { m1 with point := m.point + 1 }
      else measEnding (sweepUnitsOff d1 c m1) c { m1 with done := m1.done ||| 4 }

def execSweepPointEnd (c : Ch) (s : State) : Host.Outcome State Fault Refusal := onDev (fun d => pointEnd d c) s

/-- MEASURE_SWITCHING_END (R289): after 16 periods at half duty both switches turn off; FIT follows a sweep, otherwise the
result. -/
def switchingEnd (d : Dev) (c : Ch) : Dev :=
  match d.chs[c].meas with
  | none => d
  | some m =>
    if m.step ≠ 7 ∨ !(halves d c).all fun h => decide (16 ≤ d.chs[h].prot.ssCount) then d
    else
      let d1 := forCh (halves d c) (fun e h => e.ch h chanOff) d
      if m.status ≠ stSuccess then measComplete d1 c m m.status
      else if bit m.steps 3 ∧ m.cls = 0 then setMeas d1 c (m.toStep 5)
      else setMeas d1 c (m.toResult stSuccess)

def execMeasureSwitchingEnd (c : Ch) (s : State) : Host.Outcome State Fault Refusal := onDev (fun d => switchingEnd d c) s

/-! ### FIT (R300 to R302) -/

/-- Turns `x` in 0 to 1/2 with cos 2πx = `v`, by bisection on the grid: `lo` to `hi` brackets it. -/
def acosTurn : Nat → Int → Int → Int → Int
  | 0, _, lo, _ => lo
  | f + 1, v, lo, hi =>
    let mid := (lo + hi) / 2
    if v ≤ cosTurn mid then acosTurn f v mid hi else acosTurn f v lo mid

/-- The notch frequency of region 0 in Hz, none where the channel has no notch; free (inner none) where its zeros have no angle. -/
def notchHz (d : Dev) (c : Ch) : Option (Option Rat) :=
  let x := d.chs[c]
  if (linkAt x lkNotch).isNone || (linkAt x lkCoef).isNone then none
  else
    let w (j : Nat) : Rat := (cOf ((x.region.tables.getD 0 []).getD j 0).toNat).rat
    some (match quot (-(w 3)) (2 * w 2) with
      | none => none
      | some v => if ratAbs v ≤ 1 then some (fxRat (acosTurn 94 (ratFx v) 0 (2 ^ 95)) * (d.tb.n * 96000 : Nat)) else none)

/-- The cable resistance in Ω between the sense point and CF: RCABLE in remote sense, 0 in local sense (chapter 10, Fitting). -/
def fitCable (d : Dev) (c : Ch) (m : Meas) : Rat := if remoteB d c then (m.rcable : Rat) / 1000000 else 0

/-- The start of Re in Ω: RDC, less RCABLE in local sense when CABLE is valid (R300). -/
def fitRe (d : Dev) (c : Ch) (m : Meas) : Rat :=
  ((m.rdc : Rat) - (if !remoteB d c && m.cableValid then (m.rcable : Rat) else 0)) / 1000000

/-- The points FIT uses: the valid ones, in Hz and Ω. -/
def fitPoints (m : Meas) : List FitPoint :=
  (m.points.filter (·.valid)).map fun p => ⟨(p.freq : Rat) / 100, ⟨(p.zRe : Rat) / 1000000, (p.zIm : Rat) / 1000000⟩⟩

/-- Im((V_sw − V_CF) / I) / ω of a point in H, with V_CF = V + I_spk × RCABLE and I_spk = V / Z_spk(ω) of the fitted model. (DEDUCED, log
entry 37.) -/
def pointLf (p : FitPar) (rc : Rat) (x : SweepPoint) : Rat :=
  let f : Rat := (x.freq : Rat) / 100
  let z : Cx := ⟨(x.zRe : Rat) / 1000000, (x.zIm : Rat) / 1000000⟩
  let cf := Cx.add z (Cx.scale rc (Cx.mul z (p.spk f).inv))
  ((x.dIm : Rat) / 1000000 - cf.im) / omega f

/-- LF in H: the mean over the valid points from 1 kHz to 10 kHz (R302), none where there is no such point. -/
def fitLf (p : FitPar) (rc : Rat) (ps : List SweepPoint) : Option Rat :=
  let l := (ps.filter fun x => x.valid && decide (100000 ≤ x.freq ∧ x.freq ≤ 1000000)).map (pointLf p rc)
  quot l.sum l.length

/-- f_res in Hz of LF in H and CF in F (R302). -/
def resonance (lf cf : Rat) : Option Rat := if lf * cf ≤ 0 then none else (quot 1 (lf * cf)).map fun y => ratSqrt y / (2 * ratPi)

/-- The results of FIT (R300 to R302). Where the start values or a result have no value, the field is free. (DESIGN CHOICE, log entry 37.) -/
def fitResult (d : Dev) (c : Ch) (m : Meas) : Meas :=
  let xs := fitPoints m
  let rc := fitCable d c m
  let q := fitSpeaker (fitRe d c m) rc xs
  let fld (k : Nat) (u : Nat) (f : FitPar → Option Rat) : Nat := resField 32 ((q.bind f).map (· * u)) (d.free + k)
  let ms := q.bind fun p => quot (p.cost rc xs) xs.length
  let poor := decide (xs.length < 48) || (match ms with | some e => decide (1 / 400 < e) | none => Config.freeBit d.free)
  let mech := decide (d.chs[c].cfg.mms ≠ 0) && !poor
  let kg : Rat := (d.chs[c].cfg.mms : Rat) / 1000000
  let mfld (k u : Nat) (f : FitPar → Option Rat) : Nat := if mech then fld k u f else 0
  let lf := q.bind fun p => fitLf p rc m.points
  let fres := q.bind fun p => lf.bind fun l => resonance l p.cf
  let dev : Nat := match notchHz d c with
    | none => 0x7FFF
    | some fn => wrap 16 (resSigned 16 (fn.bind fun a => fres.bind fun b => (quot (a - b) b).map (· * 10000)) (d.free + 1))
  { m with
    done := m.done ||| 8
    fit := [
      fld 2 1000000 fun p => some p.re,
      fld 3 1000000000 fun p => some p.le,
      fld 4 1000 fun p => some p.fs,
      fld 5 10000 fun p => some p.qms,
      fld 6 10000 fun p => some p.qes,
      mfld 7 1000000 fun p => (quot (omega p.fs * kg * p.re) p.qes).map ratSqrt,
      mfld 8 1000 fun p => some (kg * omega p.fs * omega p.fs),
      mfld 9 1000 fun p => quot (omega p.fs * kg) p.qms,
      fld 10 1000000000000 fun p => some p.cf,
      resField 16 (ms.map fun e => ratSqrt e * 10000) (d.free + 11)]
    fitPoor := poor
    mechValid := mech
    lf := fld 12 1000000000 fun _ => lf
    fres := fld 13 1 fun _ => fres
    notchDev := dev }

/-- FIT_COMPLETE (R300 to R302); FIT, STORE and DELETE wait while the stewards restart (R447, R449). (DESIGN CHOICE, log entry 37.) -/
def fitEnd (d : Dev) (c : Ch) : Dev :=
  match d.chs[c].meas with
  | none => d
  | some m =>
    if m.step ≠ 5 ∨ stewardsDown d = true then d
    else
      let m1 := fitResult d c m
      setMeas (d.ticks 14) c (if bit m.steps 4 then m1.toStep 6 else m1.toResult stSuccess)

def execFitComplete (c : Ch) (s : State) : Host.Outcome State Fault Refusal := onDev (fun d => fitEnd d c) s

/-! ### STORE, DELETE and the result (R303, R304, R309) -/

/-- The slot STORE writes: the one with the identity, else an empty one, else the one longest unbound. -/
def storeSlot (d : Dev) (id : Nat) : Nat :=
  match d.admin.records.find? fun p => decide (recIdent p.2 = id) with
  | some p => p.1
  | none =>
    match (List.range 512).find? fun k => (Mem.find d.admin.records k).isNone with
    | some k => k
    | none => d.admin.recFree.headD 0

/-- STORE_COMPLETE (R303). -/
def storeEnd (d : Dev) (c : Ch) : Dev :=
  match d.chs[c].meas with
  | none => d
  | some m =>
    if m.step ≠ 6 ∨ bit m.steps 4 = false ∨ stewardsDown d = true then d
    else if d.chs[c].cfg.loadId.all (· == 0) then setMeas d c (m.toResult stField)
    else if !nvOpen d then setMeas (setThm d 6) c (m.toResult stTemp)
    else
      let m1 := { m with stored := true, done := m.done ||| 16 }
      let k := storeSlot d (identOf d.chs[c])
      let d1 := trackUnbound { d with admin := { d.admin with
        records := Mem.put d.admin.records k (measRecord d c m1), recFree := d.admin.recFree.filter (· != k) } }
      setMeas d1 c (m1.toResult stSuccess)

def execStoreComplete (c : Ch) (s : State) : Host.Outcome State Fault Refusal := onDev (fun d => storeEnd d c) s

/-- DELETE_COMPLETE (R304). -/
def deleteEnd (d : Dev) (c : Ch) : Dev :=
  match d.chs[c].meas with
  | none => d
  | some m =>
    if m.step ≠ 6 ∨ bit m.steps 5 = false ∨ stewardsDown d = true then d
    else if !nvOpen d then setMeas (setThm d 6) c (m.toResult stTemp)
    else match d.admin.records.find? fun p => decide (recIdent p.2 = identOf d.chs[c]) with
      | none => setMeas d c (m.toResult stNotFound)
      | some p =>
        setMeas (trackUnbound { d with admin := { d.admin with records := Mem.erase d.admin.records p.1 } }) c
          ({ m with done := m.done ||| 32 }.toResult stSuccess)

def execDeleteComplete (c : Ch) (s : State) : Host.Outcome State Fault Refusal := onDev (fun d => deleteEnd d c) s

/-- MEASURE_RESULT_WRITE (R309): the result reaches the buffer and the command completes. -/
def resultWrite (d : Dev) (c : Ch) : Dev :=
  match d.chs[c].meas with
  | none => d
  | some m => if m.writing then measComplete d c m m.status else d

def execMeasureResultWrite (c : Ch) (s : State) : Host.Outcome State Fault Refusal := onDev (fun d => resultWrite d c) s

/-! ### Supply (R311 to R313) -/

/-- I_CAP in 0.1 A from |V_RAIL| in 10 mV and R_SRC in 0.1 mΩ (R311), none where it isn't measured. -/
def iCap (vrail rsrc : Nat) (up : Bool) : Option Nat :=
  if rsrc = 0xFFFF ∨ vrail ≤ 1000 ∨ rsrc = 0 then none
  else some (fieldSat 16 (gridDiv (((vrail : Int) - 1000) * 1000) rsrc up))

/-- Crossings of the mean `sum` / `cnt` on tile `t` among the steps counted: those of the level below it. -/
def meanCrossings (m : Mem Nat) (t : Nat) (sum : Int) (cnt : Nat) : Nat :=
  Mem.get m 0 (t * 2 ^ 17 + (-(Int.fdiv (-sum) cnt) - 1 + 65536).toNat)

/-- SUPPLY_MEASURE_END (R312): 100 ms after precharge, once per precharge. The ripple frequency is that of the rail with the larger ripple,
from the zero crossings of one tile's samples of it: two crossings in 0.1 s for each 10 Hz. Which tile stands for each rail the rule does not
say, and `tileP` and `tileN` name it. (DESIGN CHOICE, log entry 38.) -/
def supplyEnd (d : Dev) (tileP tileN : PTile) : Dev :=
  let r := d.rails
  if r.preState ≠ 4 ∨ r.sinceDone < 9600 ∨ r.sumCnt = 0 then d
  else
    let up (k : Nat) : Bool := Config.freeBit (d.free + k)
    let vp := fieldSat 16 (gridDiv r.sumP r.sumCnt (up 0))
    let vn := fieldSat 16 (gridDiv (-r.sumN) r.sumCnt (up 1))
    let pp := fieldSat 8 (r.maxP - r.minP)
    let pn := fieldSat 8 (r.maxN - r.minN)
    let f := if r.maxN - r.minN ≤ r.maxP - r.minP then meanCrossings r.crossP tileP.val r.sumP r.sumCnt else meanCrossings r.crossN tileN.val r.sumN r.sumCnt
    { d.ticks 5 with rails := { r with
      supVrailP := vp
      supVrailN := vn
      ppP := pp
      ppN := pn
      rippleFreq := fieldSat 16 (gridDiv f 2 (up 2))
      icapP := iCap vp r.supRsrcP (up 3)
      icapN := iCap vn r.supRsrcN (up 4)
      sumCnt := 0 } }

def execSupplyMeasureEnd (tileP tileN : PTile) (s : State) : Host.Outcome State Fault Refusal := onDev (fun d => supplyEnd d tileP tileN) s

end Sys2Proof.Machine
end

