-- ==== Sys2Proof/Machine/Protect.lean ====
section
/-!
DEFINITION. The commands of release, stop and protection (chapters 5, 6 and 17's live removal).
-/

namespace Sys2Proof.Machine

/-! ### CHANNEL_CONTROL -/

/-- RELEASE_GROUP (R161, R196). -/
def execReleaseGroup (r : CmdRef) (g : RGroup) (s : State) : Host.Outcome State Fault Refusal :=
  onDev (fun d => doRelease d r g) s

/-- STOP_GROUP (R166, R581). -/
def execStopGroup (r : CmdRef) (g : RGroup) (s : State) : Host.Outcome State Fault Refusal :=
  onDev (fun d => doStopGroup d r g) s

/-- CHANNEL_CONTROL stop of a channel: refused without an image in force (R396). -/
def doStopChannel (d : Dev) (r : CmdRef) (c : Ch) : Dev :=
  if imageOn d then doStop d r [c] else refuse d r opChannel stNotReady

/-- CHANNEL_CONTROL clear of a channel's latch: refused without an image in force (R396), which for a latched channel is a refusal
under R193 with its record (R191). -/
def doClearLatch (d : Dev) (r : CmdRef) (c : Ch) : Dev :=
  if imageOn d then doClear d (some r) c
  else refuse (if latchedPair d c then hist d c.val 0x0E 0 false else d) r opChannel stNotReady

/-- STOP_CHANNEL (R166). -/
def execStopChannel (r : CmdRef) (c : Ch) (s : State) : Host.Outcome State Fault Refusal :=
  onDev (fun d => doStopChannel d r c) s

/-- CLEAR_LATCH (R192). -/
def execClearLatch (r : CmdRef) (c : Ch) (s : State) : Host.Outcome State Fault Refusal :=
  onDev (fun d => doClearLatch d r c) s

/-- A write to `GRD_CLEARm` (R192): the same procedure for each named channel. -/
def grdClearDev (d : Dev) (m : Fin 4) (mask : W32) : Dev :=
  forCh ((ixs 128).filter fun c => decide (c.val / 32 = m.val) && mask.getLsbD (c.val % 32)) (fun e c => doClear e none c) d

/-- GRD_CLEAR_WRITE (R192). -/
def execGrdClearWrite (m : Fin 4) (mask : W32) (s : State) : Host.Outcome State Fault Refusal :=
  onDev (fun d => grdClearDev d m mask) s

/-- RAMP_COMPLETE (R163): a ramp that has run its K Fi periods ends. -/
def execRampComplete (g : RGroup) (s : State) : Host.Outcome State Fault Refusal :=
  onDev (fun d =>
    match d.groupRamp[g] with
    | some k => if d.rampLen[g] ≤ k then { d with groupRamp := d.groupRamp.set g none } else d
    | none => d) s

/-- The end of a safe stop's 16 half-duty periods (R164). (DESIGN CHOICE, log entry 4.) -/
def safeStopEndDev (d : Dev) (c : Ch) : Dev :=
  let p := d.chs[c].prot
  if p.drive = .safeStop ∧ 16 ≤ p.ssCount then settleStops (d.ch c chanOff) else d

/-- SAFE_STOP_END (R164). -/
def execSafeStopEnd (c : Ch) (s : State) : Host.Outcome State Fault Refusal := onDev (fun d => safeStopEndDev d c) s

/-- CLAMP_RELEASE (R156): the clamp of a rail is deasserted at an Fi boundary after it has been asserted for a whole Fi
period in which every sample stayed below the threshold less its hysteresis. -/
def execClampRelease (neg : Bool) (s : State) : Host.Outcome State Fault Refusal :=
  onDev (fun d =>
    let r := d.rails
    if neg then (if r.clampN && r.belowN && r.clampFiN then { d with rails := { r with clampN := false, clampFiN := false } } else d)
    else if r.clampP && r.belowP && r.clampFiP then { d with rails := { r with clampP := false, clampFiP := false } } else d) s

/-! ### Class 1, class 2 and the guard domain -/

/-- CLASS1_TRIP (R172, R174). -/
def execClass1Trip (c : Ch) (low : Bool) (at_ : TripPoint) (s : State) : Host.Outcome State Fault Refusal :=
  onDev (fun d => class1 d c low at_.fine at_.ma) s

/-- A TRIP pin is taken as asserted (R178 to R180): its mask's channels enter safe stop from the next carrier boundary. -/
def tripPinDev (d : Dev) (p : Pin) : Dev :=
  if d.guard.trip.getLsbD p.val then d
  else
    let d1 := { d with guard := { d.guard with trip := d.guard.trip ||| (1#8 <<< p.val) } }
    stopFrom (setGrd (hist d1 0xFF 4 p.val false) (8 + p.val)) (maskChans d p)

/-- TRIP_PIN_ASSERT (R178). -/
def execTripPinAssert (p : Pin) (s : State) : Host.Outcome State Fault Refusal := onDev (fun d => tripPinDev d p) s

/-- TRIP_PIN_DEASSERT (R179). -/
def execTripPinDeassert (p : Pin) (s : State) : Host.Outcome State Fault Refusal :=
  onDev (fun d => { d with guard := { d.guard with trip := d.guard.trip &&& ~~~(1#8 <<< p.val) } }) s

/-- DC_THRESHOLD_CROSS (R187): the timer starts; a change of sign restarts it. -/
def execDcThresholdCross (c : Ch) (neg : Bool) (s : State) : Host.Outcome State Fault Refusal :=
  onDev (fun d => d.ch c fun x => { x with prot := { x.prot with dcNeg := some neg } }) s

/-- DC_TIMER_RESTART (R187). -/
def execDcTimerRestart (c : Ch) (s : State) : Host.Outcome State Fault Refusal :=
  onDev (fun d => d.ch c fun x => { x with prot := { x.prot with dcNeg := none } }) s

/-- A DC timer reaches DC_TIME: the guard releases and latches the channel (R188); the timer is at zero afterwards. -/
def dcTripDev (d : Dev) (c : Ch) : Dev :=
  if d.chs[c].prot.dcNeg.isSome then
    (guardLatch d c 2 6).ch c fun x => { x with prot := { x.prot with dcNeg := none } }
  else d

/-- DC_TRIP (R188). -/
def execDcTrip (c : Ch) (s : State) : Host.Outcome State Fault Refusal := onDev (fun d => dcTripDev d c) s

/-- No beacon for 12 guard ticks from a switching, unhalted channel (R184, R580). -/
def carrierLossDev (d : Dev) (c : Ch) : Dev :=
  if switching d.chs[c] && !d.chs[c].mod.halted then
    forCh (halves d c) (fun e h => e.ch h fun x => { x with lost := true }) (guardLatch d c 3 4)
  else d

/-- CARRIER_LOSS (R184). -/
def execCarrierLoss (c : Ch) (s : State) : Host.Outcome State Fault Refusal := onDev (fun d => carrierLossDev d c) s

/-- SAFE# has been low for 2 guard ticks (R184): safe stop of every channel, with the backstop to come. -/
def safeDev (d : Dev) : Dev :=
  if d.guard.safe then d
  else
    let d1 := { d with guard := { d.guard with safe := true, backstops := d.guard.backstops ++ [false] } }
    stopFrom (setGrd (hist d1 0xFF 5 0 false) 0) (ixs 128)

/-- SAFE_ASSERT (R184). -/
def execSafeAssert (s : State) : Host.Outcome State Fault Refusal := onDev safeDev s

/-- SAFE_DEASSERT (R161). -/
def execSafeDeassert (s : State) : Host.Outcome State Fault Refusal :=
  onDev (fun d => { d with guard := { d.guard with safe := false } }) s

/-- The backstop's guard release of every channel still switching, one record each (R184, R191, R580).
(DEDUCED, log entry 55; DEDUCED, log entry 65.) -/
def backstopRelease (d : Dev) (cause : Nat) : Dev :=
  settleStops (forCh (ixs 128) (fun e c => if switching e.chs[c] then hist (guardOff (dropWork e c) c) c.val cause 0 false else e) d)

/-- The oldest backstop decision (R184): PRSNT_EARLY's also turns the hot-swap gates off (R540). -/
def backstopDev (d : Dev) : Dev :=
  match d.guard.backstops with
  | [] => d
  | prsnt :: rest =>
    let d1 := backstopRelease { d with guard := { d.guard with backstops := rest } } (if prsnt then 6 else 5)
    if prsnt then hsgOff d1 else d1

/-- GUARD_BACKSTOP (R184). -/
def execGuardBackstop (s : State) : Host.Outcome State Fault Refusal := onDev backstopDev s

/-- PRSNT_EARLY has been deasserted for 2 guard ticks (R540). -/
def prsntOffDev (d : Dev) : Dev :=
  if !d.guard.prsnt then d
  else
    let idle := !anyB d.chs fun _ x => switching x
    let d1 := { d with
      guard := { d.guard with prsnt := false, backstops := d.guard.backstops ++ [true] }
      rails := { d.rails with prsntMs := 0 } }
    let d2 := stopFrom (setGrd (hist d1 0xFF 6 0 false) 1) (ixs 128)
    if idle then hsgOff d2 else d2

/-- PRSNT_DEASSERT (R540). -/
def execPrsntDeassert (s : State) : Host.Outcome State Fault Refusal := onDev prsntOffDev s

/-- PRSNT_ASSERT (R530): starts the 100 ms count. -/
def execPrsntAssert (s : State) : Host.Outcome State Fault Refusal :=
  onDev (fun d => if d.guard.prsnt then d else
    { d with guard := { d.guard with prsnt := true }, rails := { d.rails with prsntMs := 0 } }) s

/-- Whether Tj, as the sensors read it, lies within the recommended operating conditions (R559). -/
def tjRecommended (d : Dev) : Bool := (readings d (List.range 54)).all fun r => decide (-200 ≤ r ∧ r ≤ 1250)

/-- A guard thermal comparator at or above 140 °C (R184, R186, R533); within the recommended conditions the channels count as
unavailable (R515). -/
def thermShutDev (d : Dev) : Dev :=
  let d0 := if tjRecommended d then d.chAll fun _ x => { x with lost := true } else d
  hsgOff (releaseAll { d0 with guard := { d.guard with thermLatch := true } } 7)

/-- THERMAL_SHUTDOWN (R186): any of the guard's comparators. -/
def execThermalShutdown (_sn : Sensor) (s : State) : Host.Outcome State Fault Refusal := onDev thermShutDev s

/-- RAIL_OV_RELEASE (R184, R185): no latch; the hot-swap FETs stay on (R533). -/
def execRailOvRelease (neg : Bool) (s : State) : Host.Outcome State Fault Refusal :=
  onDev (fun d =>
    let g := if neg then { d.guard with ovN := true } else { d.guard with ovP := true }
    setGrd (releaseAll { d with guard := g } 8) 2) s

/-- RAIL_UV_RELEASE (R184, R533): only after precharge has completed. -/
def railUvDev (d : Dev) (neg : Bool) : Dev :=
  if preDone d then
    let g := if neg then { d.guard with uvN := true } else { d.guard with uvP := true }
    hsgOff (setGrd (releaseAll { d with guard := g } 9) 3)
  else d

/-- RAIL_UV_RELEASE (R184). -/
def execRailUvRelease (neg : Bool) (s : State) : Host.Outcome State Fault Refusal := onDev (fun d => railUvDev d neg) s

/-! ### The short check -/

/-- SHORT_CHECK_OBSERVE_END (R194). -/
def execShortCheckObserveEnd (c : Ch) (s : State) : Host.Outcome State Fault Refusal := onDev (fun d => checkObserved d c) s

/-- SHORT_CHECK_DRIVE_END (R194). -/
def execShortCheckDriveEnd (c : Ch) (s : State) : Host.Outcome State Fault Refusal := onDev (fun d => checkDriven d c) s

/-- SHORT_CHECK_END (R195). -/
def execShortCheckEnd (c : Ch) (s : State) : Host.Outcome State Fault Refusal := onDev (fun d => checkEnded d c) s

/-! ### The guard's millisecond -/

/-- The guard's 1 ms poll (R585) with the counts the guard keeps by it: guard time, PRSNT_EARLY and the supply sides for
PRSNT_OK and SUPPLY_OK (R530, Table 17-10), the levels of GPIO2 to GPIO7 (R565) and of its rail comparators (Table 6-10), which it
watches whether or not carrier boundaries pass. (DEDUCED, log entry 67.) -/
def pollDev (d : Dev) (answered : Bool) (hsvP hsvN : Nat) (levels : PollLevels) : Dev :=
  if !d.guard.ready then d
  else
    let ok := decide (1000 ≤ hsvP ∧ hsvP ≤ 2000 ∧ 1000 ≤ hsvN ∧ hsvN ≤ 2000)
    copyHist { d with
      guard := { railLevels d [levels.rail] with
        missedPolls := if answered then 0 else d.guard.missedPolls + 1
        timeUs := d.guard.timeUs + 1000
        powerOnMs := d.guard.powerOnMs + 1
        gpioIn := levels.gpio }
      rails := { d.rails with
        hsvP := hsvP
        hsvN := hsvN
        prsntMs := if d.guard.prsnt then min 100 (d.rails.prsntMs + 1) else 0
        supplyMs := if ok then min 100 (d.rails.supplyMs + 1) else 0 } }

/-- STEWARD_POLL (R585). -/
def execStewardPoll (answered : Bool) (hsvP hsvN : Nat) (levels : PollLevels) (s : State) : Host.Outcome State Fault Refusal :=
  onDev (fun d => pollDev d answered hsvP hsvN levels) s

end Sys2Proof.Machine
end

