-- ==== Sys2Proof/Machine/Time.lean ====
section
/-!
DEFINITION. The timebase: references, lock and holdover, frame marks and snapshots (chapter 2), and the Zaith link
(R568 to R570).
-/

namespace Sys2Proof.Machine

/-- TB_EVENT bits (Table 2-8). -/
def evRefLoss : Nat := 0
def evRefSwitch : Nat := 1
def evHoldExpired : Nat := 2
def evFrameJump : Nat := 3
def evFrameLost : Nat := 4

/-! ### The priority list -/

/-- Source code of a priority entry; 0 where the entry is past the list's end or repeats a higher one (R47). -/
def entrySrc (t : Timebase) (e : Nat) : BitVec 2 :=
  let before := t.src.take e
  let x := t.src.getD e 0
  if before.contains 0 ∨ before.contains x then 0 else x

/-- Whether the source of a priority entry is qualified. -/
def entryQual (t : Timebase) (e : Nat) : Bool := decide (entrySrc t e ≠ 0) && t.qual.getLsbD e

/-- The highest-priority qualified source, 0 if none. -/
def bestSrc (t : Timebase) : BitVec 2 :=
  if entryQual t 0 then entrySrc t 0 else if entryQual t 1 then entrySrc t 1 else if entryQual t 2 then entrySrc t 2 else 0

/-- Whether a source is listed and qualified. -/
def srcQual (t : Timebase) (x : BitVec 2) : Bool :=
  decide (x ≠ 0) && [0, 1, 2].any fun e => entryQual t e && decide (entrySrc t e = x)

/-- Place of a source in the list, 3 if it isn't listed. -/
def srcRank (t : Timebase) (x : BitVec 2) : Nat :=
  if entrySrc t 0 = x then 0 else if entrySrc t 1 = x then 1 else if entrySrc t 2 = x then 2 else 3

/-- Set or clear the qualification of an entry. -/
def setQual (t : Timebase) (e : Nat) (on : Bool) : Timebase :=
  { t with qual := if on then t.qual ||| (1#3 <<< e) else t.qual &&& ~~~(1#3 <<< e) }

/-- New `TB_REF_CFG` fields; a source keeps its qualification where it stands in the new list (Table 2-6, R443). A list that no longer
names the active source, or names it with another port or mode, is no loss: the part stays LOCKED on it without REF_LOSS until
REF_SELECT finds a listed source. (DESIGN CHOICE, log entry 12.) -/
def setRefCfg (t : Timebase) (v : Nat) : Timebase :=
  let t1 := { t with
    src := [BitVec.ofNat 2 (bits v 0 2), BitVec.ofNat 2 (bits v 2 2), BitVec.ofNat 2 (bits v 4 2)]
    sapSel := bits v 6 3
    refinMode := bit v 9
    autoFallback := bit v 10
    revert := bit v 11
    qual := 0 }
  let same (x : BitVec 2) : Bool := srcQual t x && decide (x ≠ 3 ∨ t.sapSel = bits v 6 3) && decide (x ≠ 2 ∨ t.refinMode = bit v 9)
  [0, 1, 2].foldl (fun u e => if same (entrySrc t1 e) then setQual u e true else u) t1

/-- The fields of `TB_REF_CFG` as a number. -/
def refCfgNum (t : Timebase) : Nat :=
  (t.src.getD 0 0).toNat + 4 * (t.src.getD 1 0).toNat + 16 * (t.src.getD 2 0).toNat + 64 * t.sapSel + 512 * b2n t.refinMode
    + 1024 * b2n t.autoFallback + 2048 * b2n t.revert

/-! ### Qualification and selection -/

/-- Whether some release group is released (R581). -/
def anyGroup (d : Dev) : Bool := anyB d.groupRel fun _ b => b

/-- Whether the port that source 0b11 names can give a qualified bit clock: configured as slave (R44) and enabled. The spec does
not speak of a port with EN 0. (DESIGN CHOICE, log entry 12.) -/
def sapRefOk (d : Dev) : Bool :=
  let f := (look d.ports.sap d.tb.sapSel Sap.reset).fmt
  f.en && !f.master

/-- A listed source has stayed within ±100 ppm for 1 s (R44, R45). (DESIGN CHOICE, log entry 12.) -/
def refQualDev (d : Dev) (e : Fin 3) (rate : Fin 8) : Dev :=
  let t := d.tb
  let x := entrySrc t e.val
  if d.guard.audioReset ∨ x = 0 ∨ (x = 3 ∧ sapRefOk d = false) then d
  else
    let since := if entryQual t e.val then t.qualAt else t.qualAt.set x.toNat (hereStc d)
    let t1 := { setQual t e.val true with qualAt := since }
    { d with tb := if x = 2 then { t1 with refinRate := if t.refinMode then 0 else rate.val } else t1 }

/-- REF_QUALIFIED (R45). -/
def execRefQualified (e : Fin 3) (rate : Fin 8) (s : State) : Host.Outcome State Fault Refusal :=
  onDev (fun d => refQualDev d e rate) s

/-- Marks become absent; FRAME_LOST once per absence, and only after a mark has been received (R64). -/
def marksAbsent (d : Dev) : Dev :=
  if d.tb.marksPresent then
    setTb { d with tb := { d.tb with marksPresent := false, period := 0, marks := [] } } evFrameLost
  else d

/-- The timebase after a loss: HOLDOVER is entered when the active source is disqualified and no other listed source is qualified,
or AUTO_FALLBACK is 0 (Table 2-2); a step under way goes on only while its target is qualified. (DEDUCED, log entry 12.) -/
def settleLoss (t : Timebase) : Timebase :=
  let t1 := if t.stepping = true ∧ srcQual t t.target = false then { t with stepping := false, target := 0 } else t
  if t.state = .locked ∧ srcQual t t.active = false ∧ (t.autoFallback = false ∨ bestSrc t = 0) then
    { t1 with state := .holdover, active := 0, lost := t.active, slewing := false }
  else t1

/-- A qualified source is lost (R46, R48, R53, R64). (DEDUCED, log entry 12.) -/
def refLostDev (d : Dev) (e : Fin 3) : Dev :=
  let t := d.tb
  let x := entrySrc t e.val
  if entryQual t e.val then
    let t1 := setQual t e.val false
    let d1 := { d with tb := if x = 2 then { t1 with refinRate := 0 } else t1 }
    let d2 := if x = 1 then marksAbsent d1 else d1
    let d3 := if t.state = .locked ∧ t.active = x then setTb { d2 with tb := { d2.tb with lost := x } } evRefLoss else d2
    { d3 with tb := settleLoss d3.tb }
  else d

/-- A port that has become master, or is no longer enabled, is no reference: its qualification is lost (R44). (DESIGN CHOICE, log
entry 12.) -/
def dropSapRef (d : Dev) : Dev :=
  match [(0 : Fin 3), 1, 2].find? fun e => decide (entrySrc d.tb e.val = 3) with
  | some e => if sapRefOk d then d else refLostDev d e
  | none => d

/-- REF_DISQUALIFIED (R46). -/
def execRefDisqualified (e : Fin 3) (s : State) : Host.Outcome State Fault Refusal := onDev (fun d => refLostDev d e) s

/-- Select a source (R50 to R52): while a release group is released Fi slews to it, otherwise it may step. (DEDUCED, log entry 12.) -/
def selectSrc (d : Dev) (x : BitVec 2) : Dev :=
  let d1 := if x = d.tb.active then d else setTb d evRefSwitch
  if anyGroup d then
    { d1 with tb := { d1.tb with state := .locked, active := x, slewing := true, stepping := false, target := 0 } }
  else { d1 with tb := { d1.tb with stepping := true, target := x } }

/-- What REF_SELECT selects, 0 for nothing (R48, R50). -/
def wanted (t : Timebase) : BitVec 2 :=
  match t.state with
  | .freerun => bestSrc t
  | .holdover => if t.autoFallback then bestSrc t else if srcQual t t.lost then t.lost else 0
  | .locked => if srcQual t t.active then 0 else if t.autoFallback then bestSrc t else 0

/-- REF_SELECT (R48, R50): at the Fi boundary after a qualification or a loss. (DEDUCED, log entry 12.) -/
def refSelectDev (d : Dev) : Dev :=
  let x := wanted d.tb
  if d.guard.audioReset ∨ d.tb.stepping = true ∨ x = 0 then d else selectSrc d x

/-- Whether the source of an entry has higher priority than the active one and has stayed qualified for 10 s (R49), which the part counts
as 960,000 Fi periods (DEDUCED, log entry 12). -/
def stayed (t : Timebase) (e : Nat) : Bool :=
  entryQual t e && decide (srcRank t (entrySrc t e) < srcRank t t.active ∧ t.qualAt.getD (entrySrc t e).toNat 0 + 960000 ≤ t.stc)

/-- REF_REVERT (R49): the source of highest priority that has stayed qualified for 10 s. (DEDUCED, log entry 12.) -/
def refRevertDev (d : Dev) : Dev :=
  if d.tb.revert = true ∧ d.tb.state = .locked then
    match [0, 1, 2].find? (stayed d.tb) with
    | some e => selectSrc d (entrySrc d.tb e)
    | none => d
  else d

def execRefRevert (s : State) : Host.Outcome State Fault Refusal := onDev refRevertDev s

/-- SLEW_END (R51). -/
def execSlewEnd (s : State) : Host.Outcome State Fault Refusal :=
  onDev (fun d => if d.tb.slewing then { d with tb := { d.tb with slewing := false, state := .locked } } else d) s

/-- LOCK_ACQUIRED (R52). -/
def execLockAcquired (s : State) : Host.Outcome State Fault Refusal :=
  onDev (fun d => if d.tb.stepping then
    { d with tb := { d.tb with stepping := false, state := .locked, active := d.tb.target, target := 0 } }
    else d) s

/-- HOLD_EXPIRED (R54). -/
def execHoldExpired (s : State) : Host.Outcome State Fault Refusal :=
  onDev (fun d => if d.tb.state = .holdover then setTb d evHoldExpired else d) s

/-- FRAME_LOST (R64). -/
def execFrameLost (s : State) : Host.Outcome State Fault Refusal := onDev marksAbsent s

/-! ### Snapshots (R67) -/

/-- SNAP_REQ (R67, R418): a request while one is pending joins it. -/
def execSnapReq (s : State) : Host.Outcome State Fault Refusal :=
  onDev (fun d => if d.guard.audioReset then d else { d with tb := { d.tb with snapPend := true, snapReady := false } }) s

/-- SNAP_CAPTURE (R67): the data fields load from the boundary. -/
def snapCaptureDev (d : Dev) : Dev :=
  let t := d.tb
  if t.snapPend then
    { d with tb := { t with
      snapPend := false
      snapReady := true
      snapSeq := (t.snapSeq + 1) % 256
      snapStc := t.stc
      snapFrame := t.markFrame
      snapPhase := t.markPhase
      snapValid := t.markValid
      snapMstc := t.markStc } }
  else d

/-! ### Frame-named cues (R61 to R63) -/

/-- Drop the staged image of a command. -/
def dropAct (d : Dev) (r : CmdRef) : Dev :=
  match d.core.act with
  | some a => if a.ref = some r then { d with core := { d.core with act := none } } else d
  | none => d

/-- Opcode of IMAGE_ACTIVATE. -/
def opImageActivate : Nat := 0x0D

/-- The first boundary a command may name: an IMAGE_ACTIVATE needs 4,800 Fi periods after its fetch (R92). (DEDUCED, log entry 27.) -/
def earliest (d : Dev) (f : Flight) : Nat :=
  if f.opcode = opImageActivate then max (nextStc d) (f.fetched + 4800) else nextStc d

/-- The time that a command names itself: an IMAGE_ACTIVATE keeps it until the stewards start it. -/
def cmdTime : Instr → When
  | .imageActivate _ _ w _ => w
  | .imageActivateMark _ _ w _ => w
  | _ => .untimed

/-- An IMAGE_ACTIVATE with another time. -/
def setTime (w : When) : Instr → Instr
  | .imageActivate r k _ l => .imageActivate r k w l
  | .imageActivateMark r k _ l => .imageActivateMark r k w l
  | c => c

/-- The Zaith frame that a pending entry of the journal is named by, in the cue store or, for an IMAGE_ACTIVATE, before the stewards
start it (R61). -/
def frameOf (f : Flight) : Option Nat :=
  if f.prog = .framed then some f.frame
  else if f.prog = .waiting then (match cmdTime f.cmd with | .frame n _ => some n | _ => none)
  else none

/-- Change the entry of one place in fetch order. -/
def setFlight (d : Dev) (o : Nat) (u : Flight → Flight) : Dev :=
  { d with qif := { d.qif with flights := d.qif.flights.map fun g => if g.order = o then u g else g } }

/-- A cue treated as fetched after its time: LATE, or applied at the next Fi boundary (R404). -/
def lateFlight (d : Dev) (f : Flight) : Dev :=
  if f.lateApply then
    if f.prog = .waiting then setFlight d f.order fun g => { g with cmd := setTime .untimed g.cmd, timed := false }
    else
      let b := nextStc d
      let p : Prog := if f.opcode = opImageActivate then .started else .due
      streamAt (setFlight d f.order fun g => { g with prog := p, at_ := b, timed := false }) f.ref b
  else
    let d1 := streamUnstart (dropAct d f.ref) f.ref
    refuse { d1 with qif := { d1.qif with swaits := d1.qif.swaits.filter fun w => !sameRef w.ref f.ref } } f.ref f.opcode stLate

/-- A frame whose mark is the last one received stands for its STC already (R61). (DEDUCED, log entry 45.) -/
def resolveWhen (d : Dev) (w : When) : When :=
  match w with
  | .frame f o => if d.tb.markValid = true ∧ d.tb.markFrame = f then .stc (d.tb.markStc + o) else w
  | _ => w

/-- Resolve the cues of frame `n` to STC_mark plus their offset (R61, R62). (DEDUCED, log entry 45.) -/
def resolveFrame (d : Dev) (n mark : Nat) : Dev :=
  (d.qif.flights.filter fun f => decide (frameOf f = some n)).foldl (fun e f =>
    let b := mark + f.offset
    if b < earliest e f then lateFlight e f
    else if f.prog = .waiting then setFlight e f.order fun g => { g with cmd := setTime (.stc b) g.cmd, at_ := b }
    else
      let p : Prog := if b ≤ nextStc e then .committed else .cue
      streamAt (setFlight e f.order fun g => { g with prog := p, at_ := b }) f.ref b) d

/-- Cues of the frames between two counts are treated as fetched late (R63). -/
def skipFrames (d : Dev) (lo hi : Nat) : Dev :=
  (d.qif.flights.filter fun f => match frameOf f with | some n => decide (lo < n ∧ n < hi) | none => false).foldl lateFlight d

/-! ### The Zaith word -/

/-- One bit of the CRC-8 with polynomial 0x07. -/
def crc8Bit (c : Nat) (b : Bool) : Nat :=
  let x := (c / 128 + b2n b) % 2
  let s := c * 2 % 256
  if x = 1 then s ^^^ 0x07 else s

/-- CRC-8 of bits [55:4] of a Zaith word, bit 55 first (Table 19-6). (DEDUCED, log entry 11.) -/
def zaithCrc (w : Nat) : Nat := (List.range 52).foldl (fun c i => crc8Bit c (bit w (55 - i))) 0

/-- A Zaith word from its index and payload, MARK 0. -/
def zaithWord (idx payload : Nat) : W64 :=
  let body := idx % 8 * 32 + payload % 2 ^ 32 * 256
  BitVec.ofNat 64 (body + zaithCrc body * 2 ^ 56)

/-- Value of `ID_DEVICE` (Table 17-9). -/
def idDevice : Nat := 0xE1281F7A

/-- The word ZTX answers with (R570). (DEDUCED, log entry 11.) -/
def ztxWord (t : Timebase) : W64 :=
  let p := match t.ztxIdx with
    | 0 => t.frameCount % 2 ^ 32
    | 1 => t.frameCount / 2 ^ 32 % 2 ^ 16 + 2 ^ 16 * b2n t.zaithRate
    | 2 => idDevice
    | 3 => b2n (decide (t.state = .locked) && decide (t.active = 1))
    | _ => 0
  zaithWord t.ztxIdx p

/-- The instant of a mark in Fi periods: `phase` Fk ticks before boundary `stc`, at carrier multiple `n` (R59). -/
def markTime (m : Nat × Nat × Nat) : Rat := (m.1 : Rat) - (m.2.1 : Rat) / (256 * m.2.2 : Nat)

/-- Mean mark interval in Fi periods over the last 16 marks, newest first, UQ16.16 (R315), with a free last bit where it isn't on the
grid. -/
def meanMark (l : List (Nat × Nat × Nat)) (up : Bool) : Nat :=
  match l.head?, l.getLast? with
  | some a, some b => if l.length < 2 then 0 else (ratGrid ((markTime a - markTime b) * 65536 / (l.length - 1 : Nat)) up).toNat
  | _, _ => 0

/-- A mark counts as received (R59, R61, R64, R569). -/
def markReceived (d : Dev) (frame stc phase : Nat) : Dev :=
  let t := d.tb
  let l := ((stc, phase, t.n) :: t.marks).take 16
  let d1 := { d with
    free := d.free + 1
    tb := { t with markFrame := frame, markPhase := phase, markValid := true, markStc := stc, marksPresent := true
                   markWait := none, markCycle := false, marks := l
                   period := meanMark l (Config.freeBit d.free) % 2 ^ 32 } }
  resolveFrame d1 frame stc

/-- The frame count of a cycle is complete (R63). -/
def frameDelivered (d : Dev) (n : Nat) : Dev :=
  let t := d.tb
  let d1 := { d with tb := { t with frameCount := n, frameSeen := true } }
  if t.frameSeen = true ∧ t.frameCount + 1 < n then skipFrames (setTb d1 evFrameJump) t.frameCount n else d1

/-- Where a mark that arrives now stands: the STC of the first Fi boundary at or after its instant, and its phase below 256 × N (R59),
which is 0 while the Zaith link is the active source (R60). A mark of phase 0 stands at the present Fi boundary whether its word is
given before that boundary's FI_BOUNDARY or after it. (DEDUCED, log entry 5.) -/
def markPlace (d : Dev) (phase : Nat) : Nat × Nat :=
  let p := if d.tb.state = .locked ∧ d.tb.active = 1 then 0 else phase % (256 * d.tb.n)
  (if p = 0 then hereStc d else nextStc d, p)

/-- A Zaith word is taken in (R59 to R61, R63, R568 to R570). (DEDUCED, log entry 11.) -/
def zaithDev (d : Dev) (w : W64) (phase : Nat) : Dev :=
  if d.guard.audioReset then d
  else
    let n := w.toNat
    let idx := bits n 5 3
    let pay := bits n 8 32
    let d1 := if zaithCrc n ≠ bits n 56 8 then d
      else
        let e := if bit n 4 then { d with tb := { d.tb with markWait := some (markPlace d phase), markCycle := false } } else d
        match idx with
        | 0 => { e with tb := { e.tb with frameLow := pay, lowSeen := true, markCycle := e.tb.markWait.isSome } }
        | 1 =>
          let e1 := { e with tb := { e.tb with zaithRate := bit pay 16, lowSeen := false } }
          if e.tb.lowSeen then
            let f := e.tb.frameLow + 2 ^ 32 * (pay % 2 ^ 16)
            let e2 := frameDelivered e1 f
            match e2.tb.markWait, e2.tb.markCycle with
            | some (stc, ph), true => markReceived e2 f stc ph
            | _, _ => e2
          else e1
        | 2 => { e with tb := { e.tb with partner := pay } }
        | _ => e
    { d1 with tb := { d1.tb with ztx := ztxWord d1.tb, ztxIdx := (d1.tb.ztxIdx + 1) % 8 } }

/-- ZAITH_WORD (R568). -/
def execZaithWord (w : W64) (phase : Nat) (s : State) : Host.Outcome State Fault Refusal :=
  onDev (fun d => zaithDev d w phase) s

end Sys2Proof.Machine
end

