-- ==== Sys2Proof/Machine/Journal.lean ====
section
/-!
DEFINITION. The command journal: entries, cues and their commitment (R403 to R407, R447, R513), and the opcodes of the admin
commands (Table 14-2).
-/

namespace Sys2Proof.Machine

/-- Opcodes of Table 14-2. -/
def opIdentify : Nat := 0x01
def opGetLog : Nat := 0x02
def opGetFeature : Nat := 0x03
def opSetFeature : Nat := 0x04
def opCreateQueue : Nat := 0x05
def opDeleteQueue : Nat := 0x06
def opAbort : Nat := 0x07
def opFlush : Nat := 0x08
def opFwDownload : Nat := 0x09
def opFwCommit : Nat := 0x0A
def opFwActivate : Nat := 0x0B
def opImageLoad : Nat := 0x0C
def opQueueReset : Nat := 0x0E

/-- Q0 alone serves admin opcodes (R393). -/
def onQ0 (d : Dev) (r : CmdRef) (op : Nat) (f : Dev) : Dev := if r.q.val = 0 then f else refuse d r op stOpcode

/-- Whether a journal entry is that of a command. -/
def Flight.of (f : Flight) (r : CmdRef) : Bool := sameRef f.ref r

/-- Change the journal. -/
def Dev.flights (d : Dev) (f : List Flight → List Flight) : Dev := { d with qif := { d.qif with flights := f d.qif.flights } }

/-- Change one entry. -/
def Dev.flight (d : Dev) (r : CmdRef) (f : Flight → Flight) : Dev := d.flights fun l => l.map fun x => if x.of r then f x else x

/-- Take an entry out of the journal. -/
def dropFlight (d : Dev) (r : CmdRef) : Dev := d.flights fun l => l.filter fun x => !x.of r

/-- Enter a command, unless its fetch has entered it already. (DEDUCED, log entry 44.) -/
def addFlight (d : Dev) (f : Flight) : Dev :=
  if (flightOf d f.ref).isSome then d
  else { d with qif := { d.qif with
    flights := d.qif.flights ++ [{ f with order := d.qif.order, fetched := nextStc d }], order := d.qif.order + 1 } }

/-- Whether an entry stands in the cue store; a timed IMAGE_ACTIVATE enters it at its fetch (R403), before the stewards start it. -/
def Flight.inStore (f : Flight) : Bool :=
  f.timed && decide (f.prog = .cue ∨ f.prog = .framed ∨ f.prog = .committed ∨ f.prog = .waiting)

/-- Cues held (R406). (DEDUCED, log entry 51.) -/
def cuesUsed (d : Dev) : Nat := (d.qif.flights.filter Flight.inStore).length

/-- Whether a cue is past its commitment (R405): from the boundary one Fi period before its own. -/
def isCommitted (d : Dev) (f : Flight) : Bool := decide (f.prog = .committed) || (decide (f.prog = .cue) && decide (f.at_ ≤ nextStc d))

/-- Commit a cue (R405). -/
def commitDev (d : Dev) (q : QId) (cid : BitVec 16) : Dev :=
  d.flights fun l => l.map fun f =>
    if f.ref.q = q ∧ f.ref.cid = cid ∧ isCommitted d f = true then { f with prog := .committed } else f

/-- CUE_COMMIT (R405). -/
def execCueCommit (q : QId) (cid : BitVec 16) (s : State) : Host.Outcome State Fault Refusal := onDev (fun d => commitDev d q cid) s

end Sys2Proof.Machine
end

