-- ==== Sys2Proof/Machine/Activation.lean ====
section
/-!
DEFINITION. Putting an image in force (R86, R92 to R101, R233, R381, R443, R487, R555, R581): staging, the welt period, the
carry of state blocks, and every parameter an image gives.
-/

namespace Sys2Proof.Machine

/-! ### The carry (R93) -/

/-- Whether a block carries its state from another. -/
def sameBlock (a b : BlockRec) : Bool :=
  decide (a.ident = b.ident ∧ a.shape = b.shape ∧ a.kind = b.kind ∧ a.size = b.size ∧ (a.kind = 0 ∨ a.base = b.base))

/-- The record of the image before whose state record `b` of tile `t` takes ended. -/
def carriedFrom (old : Option Image) (t : Nat) (b : BlockRec) : Option BlockRec := old.bind fun o => (o.blk t).find? (sameBlock b)

/-- The old address of a new kind-0 address, none where its block starts at zero. -/
def carriedAddr (old : Option Image) (new : Image) (t a : Nat) : Option Nat :=
  (findBlk (new.blk t) a).bind fun b => (carriedFrom old t b).map fun o => a - b.base + o.base

/-- Copy a carried block of a tile's data half. -/
def carryBlock (old data : Mem Block) (o b : BlockRec) : Mem Block :=
  (old.filter fun p => decide (o.base ≤ p.1 ∧ p.1 < o.base + o.size)).foldl
    (fun m p => Mem.put m (p.1 - o.base + b.base) p.2) data

/-- The data half of a tile under the new image (R93, R94). (DEDUCED, log entry 26.) -/
def carryData (old : Option Image) (new : Image) (t : Nat) (m : Mem Block) : Mem Block :=
  ((new.blk t).filter fun b => decide (b.kind = 0)).foldl (fun acc b =>
    match carriedFrom old t b with | some o => carryBlock m acc o b | none => acc) []

/-- Outer results that wait, at their new addresses. (DEDUCED, log entry 26.) -/
def carryOuter (old : Option Image) (new : Image) (t : Nat) (l : List (Nat × Nat × Nat × Slot)) : List (Nat × Nat × Nat × Slot) :=
  l.filterMap fun p => (((new.blk t).flatMap fun b => match carriedFrom old t b with
    | some o => if b.kind = 0 ∧ o.base ≤ p.2.1 ∧ p.2.1 < o.base + o.size then [p.2.1 - o.base + b.base] else []
    | none => []).head?).map fun a => (p.1, a, p.2.2)

/-- A tile under the new image. -/
def carryTile (old : Option Image) (new : Image) (t : Nat) (x : TileState) : TileState :=
  let data := carryData old new t x.data
  { x with
    data := data
    copy := data
    before := none
    copyPrev := data
    copyBad := false
    shadow := []
    outerShadow := carryOuter old new t x.outerShadow }

/-- Shared SRAM under the new image: the blocks of kinds 1 and 2 that carry stay in place. -/
def carryShared (old : Option Image) (new : Image) (m : Mem Block) : Mem Block :=
  let keep := allTiles.flatMap fun t => (new.blk t).filter fun b => decide (b.kind ≠ 0) && (carriedFrom old t b).isSome
  m.filter fun p => keep.any fun b => decide (b.base ≤ p.1 ∧ p.1 < b.base + b.size)

/-! ### Channels -/

/-- Regions of a channel (Tables 8-3, 8-10). -/
def regionSet (ps : List Param) (c : Nat) : RegionSet :=
  let th := pdef ps 0x0802 c (zeros 64)
  let lk := pdef ps 0x0803 c (List.replicate 20 0xFF)
  { tables := (List.range 8).map fun q => (words (regionP ps c q) 12).map fun w => BitVec.ofNat 64 w
    conds := ((words th 8).take 7).map fun w => BitVec.ofNat 64 w
    rho := BitVec.ofNat 64 ((words th 8).getD 7 0)
    link := (List.range 10).map fun j => leAt lk (2 * j) 2 }

/-- Whether the block of a link field of a channel is carried. -/
def linkCarried (old : Option Image) (new : Image) (x : Chan) (c : Ch) (j : Nat) : Bool :=
  match linkAt x j with
  | some a => (carriedAddr old new (c.val / 8) a).isSome
  | none => true

/-- Zero the lane of a channel in the block of a link field. -/
def zeroLink (new : Image) (x : Chan) (c : Ch) (t : TileState) (j : Nat) : TileState :=
  match (linkAt x j).bind (findBlk (new.blk (c.val / 8))) with
  | some b => (List.range b.size).foldl (fun u k => u.wr (b.base + k) (laneOf c) .zero) t
  | none => t

/-- The welt ramp (R97): where the PI or the set-point block of a released channel starts at zero, both do. -/
def weltRamp (old : Option Image) (new : Image) (d : Dev) (c : Ch) : Dev :=
  let x := d.chs[c]
  if x.prot.released && !(linkCarried old new x c lkPi && linkCarried old new x c lkSet) then
    (rampAgain d c).tile (etOf c) fun t => zeroLink new x c (zeroLink new x c t lkPi) lkSet
  else d

/-- The tables of the carried region index come into force without rescale, and a region that the new image leaves disabled
gives way to region 0 (R233); the region registers follow (R254). -/
def loadRegions (d : Dev) (c : Ch) : Dev :=
  let x := d.chs[c]
  let l := laneOf c
  let w := match linkAt x lkState with | some a => (d.core.tiles[etOf c].rd a l).num | none => 0
  let q := bits w 0 3
  let slot (k j : Nat) : Slot := cOf ((x.region.tables.getD k []).getD j 0).toNat
  let off := decide (q ≠ 0) && !bit ((x.region.conds.getD (q - 1) 0).toNat) 7
  let d1 := d.tile (etOf c) fun t0 =>
    let t1 := match linkAt x lkTable with
      | some b => (List.range 8).foldl (fun t k => (List.range 12).foldl (fun t j => t.wr (b + 8 * j + k) l (slot k j)) t) t0
      | none => t0
    let t2 := (List.range 12).foldl (fun t j => match wordBlock x j with | some a => t.wr a l (slot q j) | none => t) t1
    match linkAt x lkState with
    | some a => if off then t2.wr a l (.i (w - q)) else t2
    | none => t2
  let r := if off then 0 else q
  d1.stat c fun y => { y with
    region := r
    cond := y.condRun
    switched := decide (r ≠ y.region)
    switches := if r = y.region then y.switches else satN 0xFFFF (y.switches + 1) }

/-- Whether the outer-result stage, and the outer input stage, of a channel are carried. -/
def outerCarried (old : Option Image) (new : Image) (c : Ch) : Bool × Bool :=
  match laneStitch new tyExcur c with
  | some s => ((carriedAddr old new (c.val / 8) s.dst).isSome, (carriedAddr old new (c.val / 8) s.srcA).isSome)
  | none => (true, true)

/-- The lane of a released channel whose outer-result or input stage starts at zero: both start as at first use (Table 9-5). -/
def zeroOuter (old : Option Image) (new : Image) (d : Dev) (c : Ch) : Dev :=
  let (a, b) := outerCarried old new c
  match laneStitch new tyExcur c with
  | some s =>
    if d.chs[c].prot.released && !(a && b) then
      d.tile (etOf c) fun t =>
        let u := (List.range 24).foldl (fun v j => v.wr (s.dst + j) (c.val % 4) .zero) t
        (List.range 7).foldl (fun v j => v.wr (s.srcA + 1 + j) (c.val % 4) .zero)
          { u with outerShadow := u.outerShadow.filter fun e => !decide (s.srcA ≤ e.2.1 ∧ e.2.1 < s.srcA + 8 ∧ e.2.2.1 = c.val % 4) }
    else d
  | none => d

/-- A channel's parameters; where an outer stage of it starts at zero its windows do, and their origin falls after B + 1 (Tables 9-5,
9-7). The power report of the outer period goes on (R275). -/
def installChan (old : Option Image) (new : Image) (stc : Nat) (c : Ch) (x : Chan) : Chan :=
  let cfg := { chanCfg new.params c.val with inUse := loopUse new c.val }
  let s := x.sense
  let (a, b) := outerCarried old new c
  { x with
    cfg := cfg
    kv := kvWord cfg.ffRef
    region := regionSet new.params c.val
    sense := if a && b then s
      else { s with
        xpkRun := 0
        winCnt := none
        winClosed := false
        reNext := none
        originAt := stc + 1
        seenLoop := s.seenLoop && b && !x.prot.released } }

/-! ### Mixes, streams, ports -/

/-- Terms of a mix. -/
def termList (bs : List Byte) : List Term := (List.range (bs.length / 8)).map fun t => ⟨leAt bs (8 * t) 2, gainAt bs (8 * t + 2)⟩

/-- The channel whose delay line a carried record held. -/
def oldLineOf (old : Option Image) (c : Nat) (b : BlockRec) : Option Nat :=
  old.bind fun o => (List.range 128).find? fun k => decide (k / 32 = c / 32) && (match lineOf o k with
    | some r => sameBlock b r
    | none => false)

/-- The channel whose limiter state a carried LIMIT block held. -/
def oldLimitOf (old : Option Image) (new : Image) (c : Nat) : Option Nat :=
  let t := 16 + c / 32
  ((new.fi t).find? fun s => decide (s.type = tyLimit ∧ s.dst / 0x340 = c % 32 / 4) && s.lane (c % 4)).bind fun s =>
    (carriedAddr old new t s.dst).map fun a => mtCh (c / 32) a (c % 4)

/-- One mix under the new image: the delay line and the limiter carry with their blocks, every parameter is the image's. (DEDUCED, log entry 26.) -/
def installMix (old : Option Image) (new : Image) (chs : Bank MixCh 128) (c : Ch) (x : MixCh) : MixCh :=
  let ps := new.params
  let tb := termsP ps c.val
  let ln := if tb = [] then none else lineOf new c.val
  let dl := pdef ps 0x0B05 c.val (zeros 4)
  let lm := pdef ps 0x0B06 c.val (le 2 10 ++ le 2 30)
  let from_ : Option MixCh := ln.bind fun b => (oldLineOf old c.val b).map fun k => look chs k .reset
  let lim : Option MixCh := (oldLimitOf old new c.val).map fun k => look chs k .reset
  let tau := leAt dl 0 3
  { x with
    terms := termList tb
    outGain := gainAt (pdef ps 0x0B03 c.val (le 4 0x100000)) 0
    group := gainGroupP ps c.val
    tau := tau
    slew := leAt dl 3 1
    tauNow := match from_ with | some y => y.tauNow | none => if tb = [] then 0 else tau
    thr := leAt lm 0 2
    rel := leAt lm 2 2
    gLim := match lim with | some y => y.gLim | none => MixCh.reset.gLim
    win := match lim with | some y => y.win | none => []
    line := match from_ with | some y => y.line | none => []
    lineSize := match ln with | some b => 8 * b.size | none => 0
    lastDelay := match from_ with | some y => y.lastDelay | none => 0
    delayWord := match from_ with | some y => y.delayWord | none => 0
    out := if tb = [] then 0 else x.out
    delayHold := false }

/-- A host stream under the new image: one that it doesn't enable loses its FIFO, and its timed writes wait for their boundary
(R99). (DEDUCED, log entry 26.) -/
def installStream (ps : List Param) (h : Nat) (s : Stream) : Stream :=
  let b := pdef ps 0x0B07 h [0, 0]
  let en := bit (leAt b 0 1) 0
  let t := { s with en := en, rate := leAt b 1 1 }
  if en then t
  else { t with fifo := [], running := false, acc := 0, last := 0, hist := [], discardNext := 0
                starts := s.starts.map fun x => { x with ahead := 0, count := 0 } }

/-- A port under the new image (R381). -/
def installSap (ps : List Param) (p : Nat) (s : Sap) : Sap :=
  let f := sapFmt ps p
  let m := BitVec.ofNat 32 (leNat (pdef ps 0x0C02 p (le 4 0xFFFFFFFF)))
  if s.fmt = f then { s with maskPend := m }
  else { Sap.reset with
    fmt := f
    mask := s.mask
    maskPend := m
    drops := s.drops
    repeats := s.repeats
    underruns := s.underruns
    overruns := s.overruns
    standin := s.standin
    frameErr := s.frameErr
    groupActs := s.groupActs
    partPresent := s.partPresent
    partRate := s.partRate
    partBclk := s.partBclk
    partSlots := s.partSlots
    partMhz := s.partMhz }

/-- Members of an alignment group. -/
def installGroup (ps : List Param) (g : Nat) (x : AlignGroup) : AlignGroup :=
  let b := pdef ps 0x0C03 g (zeros 20)
  { x with ports := BitVec.ofNat 8 (leAt b 0 1), streams := (List.range 128).filter (maskBit b 4) }

/-- Every running trajectory ends, and waiting writes of streams that are gone complete (R99, R343). -/
def endForeign (d : Dev) : Dev :=
  let (gone, keep) := d.mix.trajs.partition fun t => decide (t.k < t.steps)
  let d1 := gone.foldl (fun e t => completeAt e t.ref opTraj stAborted t.start) { d with mix := { d.mix with trajs := keep } }
  let bad (w : StreamWait) : Bool := !(look d.mix.streams w.h .reset).en
  (d1.qif.swaits.filter bad).foldl (fun e w => refuse e w.ref opStream stField)
    { d1 with qif := { d1.qif with swaits := d1.qif.swaits.filter fun w => !bad w } }

/-- Whether the filter states of mix tile `m`'s source group `g` carry: those of a SRC_IN whose block carries from one of the same group
(R93, R321). (DEDUCED, log entry 26.) -/
def filtersCarried (old : Option Image) (new : Image) (m g : Nat) : Bool :=
  (new.fi (16 + m)).any fun s => decide (s.type = tySrcIn ∧ s.srcA = g) && match carriedAddr old new (16 + m) s.dst with
    | some a => old.any fun o => (o.fi (16 + m)).any fun r => decide (r.type = tySrcIn ∧ r.srcA = g ∧ r.dst = a)
    | none => false

/-- Mixes, streams and ports of the new image. -/
def installSound (old : Option Image) (new : Image) (d : Dev) : Dev :=
  let ps := new.params
  let x := d.mix
  let corners := (ps.filter fun p => decide (p.code = 0x0B01)).foldl (fun m p => Mem.set m 0 p.index (leNat p.val)) ([] : Mem Nat)
  let taps := (ps.filter fun p => decide (p.code = 0x0B08 ∧ leAt p.val 0 1 ≠ 0xFF)).foldl
    (fun m p => Mem.put m p.index (leAt p.val 0 1, bit (leAt p.val 1 1) 0)) ([] : Mem (Nat × Bool))
  let mx := { x with
    chs := tab x.chs fun c m => installMix old new x.chs c m
    groups := tab x.groups fun g _ => ⟨gainAt (pdef ps 0x0B04 g.val (le 4 0x100000 ++ zeros 16)) 0⟩
    corners := corners
    hpf := x.hpf.filter fun p => filtersCarried old new (p.1 / 512) (p.1 % 512 / 4)
    srcNow := []
    streams := tab x.streams fun h s => installStream ps h.val s
    taps := taps
    gBefore := [] }
  let po : Ports := { d.ports with sap := tab d.ports.sap fun p s => installSap ps p.val s
                                   groups := tab d.ports.groups fun g y => installGroup ps g.val y }
  endForeign { d with mix := mx, ports := po }

/-! ### The other sections -/

/-- Shank budgets from a SHANK_BUDGET value; E keeps to the new bucket (R487, Table 15-5). -/
def setBudget (d : Dev) (b : List Byte) : Dev :=
  let top : Int := (leAt b 4 2 : Int) * 3000 * 2 ^ 47
  { d with shank := { d.shank with
    pCont := leAt b 0 2
    pPeak := leAt b 2 2
    bucket := leAt b 4 2
    eta := leAt b 6 2
    pIdle := leAt b 8 2
    capP := leAt b 10 2
    capN := leAt b 12 2
    e := min top d.shank.e } }

/-- Reset value of SHANK_BUDGET (Table 15-7). -/
def budgetReset : List Byte := le 2 1280 ++ le 2 3200 ++ le 2 4000 ++ le 2 900 ++ le 2 360 ++ le 2 0 ++ le 2 0 ++ le 2 0

/-- A power tile's parameters (Table 5-5). (DEDUCED, log entry 33.) -/
def installPower (ps : List Param) (k : Nat) (p : Power) : Power :=
  let b := pdef ps 0x0505 k (le 2 1 ++ le 2 17000 ++ le 2 1000 ++ le 2 100)
  { p with
    senseRemote := decide (leNat (pdef ps 0x0503 k [0]) = 1)
    sagEn := bit (leAt b 0 1) 0
    vKnee := leAt b 2 2
    vMargin := leAt b 4 2
    sagRise := leAt b 6 2 }

/-- Group masks of the TRIP pins (Table 6-6). -/
def tripMasks (ps : List Param) : List (List Bool) :=
  (List.range 8).map fun p => let b := pdef ps 0x0607 p (zeros 16); (List.range 128).map (maskBit b 0)

/-- The parameters of rails, guard, Shank, timebase and bring-up. -/
def installRest (new : Image) (d : Dev) : Dev :=
  let ps := new.params
  let rise := pdef ps 0x0506 0xFFFF (le 2 19500 ++ le 2 500)
  let pre := pdef ps 0x1101 0xFFFF (le 2 40 ++ le 2 500)
  let ref := leNat (pdef ps 0x0201 0xFFFF (le 4 (refCfgNum Timebase.reset)))
  setBudget { d with
    power := tab d.power fun k p => installPower ps k.val p
    rails := { d.rails with riseThr := leAt rise 0 2, riseHyst := leAt rise 2 2, iIn := leAt pre 0 2, preTimeout := leAt pre 2 2 }
    guard := { d.guard with tripMask := tripMasks ps }
    admin := { d.admin with autoRelease := BitVec.ofNat 32 (leNat (pdef ps 0x1102 0xFFFF (zeros 4))) }
    rampLen := tab d.rampLen fun g _ => leNat (pdef ps 0x0502 g.val (le 2 960))
    tb := { setRefCfg d.tb ref with n := new.n } } (pdef ps 0x0F01 0xFFFF budgetReset)

/-! ### In force -/

/-- The minima of log page 0x06 restart at an activation (R91). -/
def restartMinima (r : SlackRec) : SlackRec := { r with fcMin := 0xFFFF, fcMinInt := 0xFFFF, fiMin := 0xFFFFFFFF, fiMinInt := 0xFFFFFFFF }

/-- Tiles, shared SRAM and slack records under the new image. -/
def installCore (new : Image) (slot : Nat) (d : Dev) : Dev :=
  let old := d.core.image
  { d with core := { d.core with
    tiles := tab d.core.tiles fun t x => carryTile old new t.val x
    slack := tab d.core.slack fun _ r => restartMinima r
    shared := carryShared old new d.core.shared
    image := some new
    imageSlot := slot
    act := none } }

/-- Groups that no channel of the new image belongs to are no longer released (R581); released channels of no group enter safe
stop (R98). -/
def installGroups (d : Dev) : Dev :=
  let has (g : RGroup) : Bool := anyB d.chs fun _ x => decide (x.cfg.relGroup = some g.val)
  let live (x : Chan) : Bool := match x.cfg.relGroup with | some g => look d.groupRel g false | none => false
  let d1 := { d with
    chs := tab d.chs fun _ x => { x with conf := x.conf && live x }
    groupRel := tab d.groupRel fun g r => r && has g
    groupRamp := tab d.groupRamp fun g r => if has g then r else none }
  settleStops (forCh ((ixs 128).filter fun c => d.chs[c].prot.released && decide (d.chs[c].cfg.relGroup = none)) triggerStop d1)

/-- Put an image in force at the present boundary. -/
def installImage (d : Dev) (new : Image) (slot : Nat) : Dev :=
  let old := d.core.image
  let d1 := installCore new slot (d.chAll fun c x => installChan old new d.tb.stc c x)
  let d2 := forCh (ixs 128) loadRegions (installSound old new (installRest new d1))
  let d3 := forCh (ixs 128) loadStages (forCh (ixs 128) loadConds (forCh (ixs 128) (zeroOuter old new) d2))
  installGroups (forCh (ixs 128) (weltRamp old new) (dropSapRef d3))

/-- The activation is done: the command completes with the STC of B + 1 (Table 14-3), where the image of a part without one is in
force from B itself, and MARK 1 writes its mark (R453); automatic load ends bring-up (R462). (DEDUCED, log entry 27.) -/
def activated (d : Dev) (a : Activation) : Dev :=
  let d1 := installImage d a.image a.slot
  match a.ref with
  | none => { d1 with admin := { d1.admin with bringup := false } }
  | some r =>
    let d2 := completeAt d1 r opImageActivate stSuccess (if imageOn d then d.tb.stc else d.tb.stc + 1)
    if a.mark then { d2 with admin := { d2.admin with nv := d2.admin.nv ++ [.mark none (some a.slot)] } } else d2

/-! ### Staging and the welt period (R86, R92, R94, R96, Table 3-10) -/

/-- Staging ends: an untimed activation can no longer be aborted (Table 14-3). -/
def stagingEndDev (d : Dev) : Dev :=
  match d.core.act with
  | some a => if a.phase = .staging then { d with core := { d.core with act := some { a with phase := .stagedWait } } } else d
  | none => d

/-- STAGING_END (R92). -/
def execStagingEnd (s : State) : Host.Outcome State Fault Refusal := onDev stagingEndDev s

/-- Whether the staged activation is due at the present boundary. -/
def actDue (d : Dev) (a : Activation) : Bool :=
  decide (a.phase = .stagedWait) && match a.ref with
    | none => true
    | some r => match flightOf d r with
      | some f => if f.timed then decide (f.prog = .cue ∨ f.prog = .committed) && decide (f.at_ ≤ d.tb.stc) else true
      | none => true

/-- Whether an image comes into force at the present boundary (R99). -/
def switchDue (d : Dev) : Bool :=
  match d.core.act with
  | some a => (decide (a.phase = .welt) && decide (a.at_ < d.tb.stc)) || (!imageOn d && actDue d a)
  | none => false

/-- Boundary B of an activation: with an image in force the welt period opens and every measurement ends; without one the new
image is in force at once. (DEDUCED, log entry 27.) -/
def weltOpenDev (d : Dev) : Dev :=
  match d.core.act with
  | none => d
  | some a =>
    if !actDue d a then d
    else if imageOn d then
      let d1 := match a.ref with | some r => d.flight r fun f => { f with prog := .started } | none => d
      forCh (ixs 128) (fun e c => measAbort e c stAborted)
        { d1 with core := { d1.core with act := some { a with phase := .welt, at_ := d.tb.stc } } }
    else activated d a

/-- Boundary B + 1 (R96). (DEDUCED, log entry 27.) -/
def weltSwitchDev (d : Dev) : Dev :=
  match d.core.act with
  | none => d
  | some a => if a.phase = .welt ∧ a.at_ < d.tb.stc then activated d a else d

/-- A tile failure abandons an activation (R100). -/
def abandonAct (d : Dev) : Dev :=
  match d.core.act with
  | none => d
  | some a =>
    let d1 := { d with core := { d.core with act := none } }
    match a.ref with
    | some r => refuse d1 r opImageActivate stAborted
    | none => { d1 with admin := { d1.admin with bringup := false } }

/-! ### IMAGE_ACTIVATE and automatic load -/

/-- RESULT0 and RESULT1 of an IMAGE_MISMATCH: the bytes REASON, TILE, PHASE, SLICE, then PARAM and INDEX as in Table 14-6. -/
def mismatchAt (d : Dev) (r : CmdRef) (op : Nat) (i : FailInfo) : Dev :=
  completeWith d r op stImage i (i.reason + 2 ^ 8 * i.tile + 2 ^ 16 * i.phase + 2 ^ 24 * i.slice) (i.param + 2 ^ 16 * i.index)

/-- The time of a command as its entry in the journal holds it, and whether it is late: B must be `lead` periods past the
first boundary after the fetch. (DEDUCED, log entry 27.) -/
def placeFlight (d : Dev) (r : CmdRef) (op : Nat) (cmd : Instr) (w : When) (late : Bool) (prog : Prog) : Flight :=
  match w with
  | .untimed => ⟨r, op, 0, 0, cmd, prog, nextStc d, 0, 0, late, false, false, false⟩
  | .stc b => ⟨r, op, 0, 0, cmd, .cue, b, 0, 0, late, true, false, false⟩
  | .frame f o => ⟨r, op, 0, 0, cmd, .framed, 0, f, o, late, true, false, false⟩

/-- A command refused by the write window (R483). -/
def tempRefuse (d : Dev) (r : CmdRef) (op : Nat) : Dev := refuse (setThm d 6) r op stTemp

/-- The first Fi boundary after the fetch of a command, which counts as fetched now where the journal doesn't hold it. -/
def fetchedAt (d : Dev) (r : CmdRef) : Nat := match flightOf d r with | some f => f.fetched | none => nextStc d

/-- IMAGE_ACTIVATE with MARK 0 or 1 (R84, R92, R453). A timed one was on time at its fetch (R403); it is late at its start when its B has
passed meanwhile (R450). -/
def doActivate (d : Dev) (r : CmdRef) (cmd : Instr) (slot : Fin 4) (w0 : When) (late mark : Bool) : Dev :=
  let w := resolveWhen d w0
  let x := d.admin.img[slot]
  let known := (flightOf d r).isSome
  let pastB : Bool := match w with | .stc b => decide (b < max (nextStc d) (fetchedAt d r + 4800)) | _ => false
  if hostClosed d then refuse d r opImageActivate stNotReady
  else if !x.valid then refuse d r opImageActivate stField
  else if mark && !known && !nvOpen d then tempRefuse d r opImageActivate
  else if decide (w ≠ .untimed) && !known && decide (65536 ≤ cuesUsed d) then refuse d r opImageActivate stNotReady
  else if pastB && !late then refuse d r opImageActivate stLate
  else match checkSlot d x with
    | .error i => mismatchAt d r opImageActivate i
    | .ok img =>
      let f := if pastB then placeFlight d r opImageActivate cmd .untimed late .started else placeFlight d r opImageActivate cmd w late .started
      let d1 := (addFlight d f).flight r fun g => { g with prog := f.prog, at_ := f.at_, timed := f.timed, frame := f.frame, offset := f.offset }
      { d1 with core := { d1.core with act := some ⟨some r, fetchedAt d r, slot.val, img, .staging, 0, mark⟩ } }

/-- IMAGE_ACTIVATE (R453, MARK 0). -/
def execImageActivate (r : CmdRef) (slot : Fin 4) (w : When) (late : Bool) (s : State) : Host.Outcome State Fault Refusal :=
  onDev (fun d => onQ0 d r opImageActivate (doActivate d r (.imageActivate r slot w late) slot w late false)) s

/-- IMAGE_ACTIVATE_MARK (R453, MARK 1). -/
def execImageActivateMark (r : CmdRef) (slot : Fin 4) (w : When) (late : Bool) (s : State) : Host.Outcome State Fault Refusal :=
  onDev (fun d => onQ0 d r opImageActivate (doActivate d r (.imageActivateMark r slot w late) slot w late true)) s

/-- A check failure at automatic load enters log page 0x01 with SQ_ID 0xFFFF; its CID and OPCODE have no stated value (R436).
(DEDUCED, log entry 52.) -/
def autoLoadFail (d : Dev) (i : FailInfo) : Dev :=
  errLog (d.ticks 2) 0xFFFF (Config.freeNat d.free % 2 ^ 16) (Config.freeNat (d.free + 1) % 2 ^ 8) stImage i 0 0

/-- AUTO_LOAD once growth has ended, its base step passed: at EX128 the marked slot is checked and staged; short of it no image comes into force, and the
try ends bring-up (R86, R462). (DEDUCED, log entry 52.) -/
def autoLoadDev (d : Dev) : Dev :=
  if d.growth.growth = 0 ∨ d.growth.step = 0 ∨ d.admin.autoTried = true ∨ imageOn d = true then d
  else
    let d1 := { d with admin := { d.admin with autoTried := true } }
    let ended (e : Dev) : Dev := { e with admin := { e.admin with bringup := false } }
    match if d.growth.growth = 1 then d.admin.autoSlot else none with
    | none => ended d1
    | some k =>
      match checkSlot d (look d.admin.img k ⟨false, [], 0, 0⟩) with
      | .error i => ended (autoLoadFail d1 i)
      | .ok img => { d1 with core := { d1.core with act := some ⟨none, nextStc d, k, img, .staging, 0, false⟩ } }

/-- AUTO_LOAD (R86). -/
def execAutoLoad (s : State) : Host.Outcome State Fault Refusal := onDev autoLoadDev s

end Sys2Proof.Machine
end

