-- ==== Sys2Proof/Machine/Regs.lean ====
section
/-!
DEFINITION. The register map: what every register reads (R13 to R16, R549 to R552, R554, Tables 18-1 to 18-9 and the field tables
they name), and the fields that a plain write sets (R553, R555, R556). A quotient that the spec gives a grid and no rounding
reads as one of its two neighbours.
-/

namespace Sys2Proof.Machine

/-! ### Identity and guard domain -/

/-- `ID_REV` (Table 17-9). -/
def rdIdRev (d : Dev) : Nat :=
  0xB0 + 2 ^ 8 * d.growth.member + 2 ^ 16 * d.growth.growth + 2 ^ 18 * b2n d.guard.dbgPermit + 2 ^ 19 * d.guard.smbAddr.toNat

/-- `GRD_STATUS` (Table 6-10). -/
def rdGrdStatus (d : Dev) : Nat :=
  let g := d.guard
  packBits [g.thermLatch, g.safe, g.prsnt, g.ovP, g.ovN, g.uvP, g.uvN, faultLow d] + 2 ^ 8 * g.trip.toNat

/-- `GRD_GPIO` (Table 6-12): a ball that is an output has the level it is driven to (R565). (DEDUCED, log entry 67.) -/
def rdGpio (g : Guard) : Nat := ((g.gpioIn &&& ~~~g.gpioOe) ||| (g.gpioOut &&& g.gpioOe)).toNat + 2 ^ 8 * g.gpioOe.toNat + 2 ^ 16 * g.gpioOut.toNat

/-- `GRD_LATCHm` (Table 6-9). -/
def rdLatch (d : Dev) (m : Nat) : Nat := packBits ((List.range 32).map fun i => (look d.chs (32 * m + i) .reset).prot.latched)

/-- `GRD_TRIP_MASKp_m` (Table 6-11). -/
def rdTripMask (d : Dev) (p m : Nat) : Nat := packBits (((d.guard.tripMask.getD p []).drop (32 * m)).take 32)

/-- `GRD_CH_CFG0` and `GRD_CH_CFG1` (Table 6-7). -/
def rdGrdCfg0 (x : Chan) : Nat := x.cfg.ilim + 2 ^ 8 * x.cfg.blank + 2 ^ 16 * x.cfg.tripCount + 2 ^ 24 * x.cfg.dcTime
def rdGrdCfg1 (x : Chan) : Nat := x.cfg.tripWindow + 2 ^ 16 * x.cfg.dcThresh

/-- `GRD_CH_STAT` (Table 6-8). -/
def rdGrdStat (x : Chan) : Nat := x.prot.cause + 2 ^ 8 * satN 0xFF (winCount x.prot x.cfg.tripWindow) + 2 ^ 16 * x.prot.trips

/-- `HSW_PRE_STAT` (Table 17-10). (DEDUCED, log entry 18.) -/
def rdPreStat (d : Dev) : Nat :=
  let r := d.rails
  let st := if d.guard.hold && decide (r.preState = 0) then 6 else r.preState
  st + 2 ^ 3 * r.preFail + 2 ^ 5 * b2n (decide (100 ≤ r.prsntMs)) + 2 ^ 6 * b2n (decide (100 ≤ r.supplyMs)) + 2 ^ 16 * r.preDone

/-- The guard-domain registers of Table 18-1, none where the offset names none. -/
def readGuard (d : Dev) (o : Nat) : Option Nat :=
  let c : Chan := look d.chs (o % 0x200 / 4) .reset
  if o = 0x0000 then some idDevice
  else if o = 0x0004 then some (rdIdRev d)
  else if 0x0008 ≤ o ∧ o < 0x0018 then some (leAt d.guard.serial (o - 8) 4)
  else if o = 0x0100 then some (rdGrdStatus d)
  else if o = 0x0104 then some d.guard.event.toNat
  else if o = 0x0108 then some (2 ^ 16 * d.guard.keyCount)
  else if o = 0x010C then some (rdGpio d.guard)
  else if 0x0110 ≤ o ∧ o < 0x0120 then some (rdLatch d ((o - 0x0110) / 4))
  else if 0x0180 ≤ o ∧ o < 0x0200 then some (rdTripMask d ((o - 0x0180) / 16) (o % 16 / 4))
  else if 0x0200 ≤ o ∧ o < 0x0400 then some (rdGrdCfg0 c)
  else if 0x0400 ≤ o ∧ o < 0x0600 then some (rdGrdCfg1 c)
  else if 0x0600 ≤ o ∧ o < 0x0800 then some (rdGrdStat c)
  else if o = 0x0800 then some (rdPreStat d)
  else if o = 0x0808 then some (d.rails.hsvP + 2 ^ 16 * d.rails.hsvN)
  else none

/-! ### Timebase and modulator -/

/-- `TB_STATUS` (Table 2-7). -/
def rdTbStatus (t : Timebase) : Nat :=
  (match t.state with | .freerun => 0 | .locked => 1 | .holdover => 2) + 4 * (if t.state = .locked then t.active.toNat else 0)
    + 16 * b2n t.slewing + 32 * t.qual.toNat + 256 * t.n + 2 ^ 13 * t.refinRate

/-- The TB_ registers of Table 18-2. -/
def readTb (t : Timebase) (o : Nat) : Nat :=
  let lo (n : Nat) : Nat := n % 2 ^ 32
  let hi (n : Nat) : Nat := n / 2 ^ 32 % 2 ^ 32
  match o with
  | 0x1000 => refCfgNum t
  | 0x1004 => rdTbStatus t
  | 0x1008 => t.event.toNat
  | 0x1014 => b2n t.snapReady + 2 ^ 8 * t.snapSeq
  | 0x1018 => lo t.snapStc
  | 0x101C => hi t.snapStc
  | 0x1020 => lo t.snapFrame
  | 0x1024 => hi t.snapFrame % 2 ^ 16 + 2 ^ 16 * (t.snapPhase % 2 ^ 13) + 2 ^ 31 * b2n t.snapValid
  | 0x1028 => lo t.snapMstc
  | 0x102C => hi t.snapMstc
  | 0x1030 => t.partner
  | 0x1034 => t.period
  | _ => 0

/-- `PWM_EVI_CFG` and `PWM_EVI_PRESC` of a unit (Table 4-16). -/
def rdEviCfg (u : Nat × Nat × Nat × Bool × Nat × Nat) : Nat :=
  let (ch, ev, vec, en, _, _) := u
  ch + 2 ^ 8 * ev + 2 ^ 16 * vec + 2 ^ 31 * b2n en
def rdEviPresc (u : Nat × Nat × Nat × Bool × Nat × Nat) : Nat :=
  let (_, _, _, _, div, cnt) := u
  div + 2 ^ 16 * (cnt % 2 ^ 16)

/-- `PWM_CAP_STAT` (Table 8-12). -/
def rdCap (d : Dev) (u : Cap) : Nat := b2n u.armed + 2 * b2n (u.armed && d.shank.throttle) + 2 ^ 8 * u.overwritten

/-- Whether the release ramp of a group runs (Table 5-6): it has begun, and some channel of the group still takes it up; a
safe stop abandons it for its channel (R167). (DEDUCED, log entry 70.) -/
def rampRuns (d : Dev) (g : RGroup) : Bool :=
  d.groupRamp[g].isSome && d.chs.toList.any fun x =>
    decide (x.cfg.relGroup = some g.val) && decide (x.prot.drive ≠ .off) && decide (x.prot.drive ≠ .safeStop)

/-- The global PWM_ registers of Table 18-3. -/
def readPwm (d : Dev) (o : Nat) : Nat :=
  if o = 0x1100 then b2n d.halt + 2 * b2n d.guard.dbgPermit
  else if 0x1110 ≤ o ∧ o < 0x1120 then (d.haltMask.getD ((o - 0x1110) / 4) 0).toNat
  else if o = 0x1124 then packBits d.groupRel.toList
  else if o = 0x1128 then packBits ((ixs 32).map (rampRuns d))
  else if 0x1140 ≤ o ∧ o < 0x11C0 then
    let u := look d.evi ((o - 0x1140) / 8) (0, 0, 0, false, 0, 0)
    if o % 8 = 0 then rdEviCfg u else rdEviPresc u
  else if 0x11C0 ≤ o ∧ o < 0x1200 then rdCap d (look d.awl.caps ((o - 0x11C0) / 4) .reset)
  else 0

/-! ### Channel arrays -/

/-- `PWM_CH_CFG`, `PWM_CH_CMP`, `PWM_CH_STAT` (Tables 4-9, 4-10, 4-13). -/
def rdChCfg (x : Chan) : Nat :=
  x.cfg.deadTime + 2 ^ 8 * packBits [x.cfg.updMid, x.cfg.ffEn, x.cfg.manPermit] + 2 ^ 16 * x.cfg.ffRef
def rdChCmp (m : Mod) : Nat := m.cmpA + 2 ^ 15 * b2n m.auxA + 2 ^ 16 * m.cmpB + 2 ^ 31 * b2n m.auxB
def rdChStat (x : Chan) : Nat :=
  let f := x.mod.flags
  chMode x + 2 ^ 3 * packBits [f.ffSat, f.hsSupp, f.lsSupp, f.range, f.trip] + 2 ^ 16 * x.mod.collisions

/-- `PWM_LOOP_STAT` (Table 7-8). -/
def rdLoop (d : Dev) (c : Ch) : Nat :=
  let y := d.chs[c].stat
  packBits [y.frozen, y.clamped, y.held, y.ramp, y.satf, loopAt d.core.tiles[etOf c] c] + 2 ^ 16 * y.freezes

/-- `PWM_REGION_STAT` (Table 8-11). -/
def rdRegion (y : LoopStat) : Nat := y.region + 2 ^ 3 * b2n y.switched + 2 ^ 4 * (y.cond % 128) + 2 ^ 16 * y.switches

/-- `PWM_OUTER_STAT` (Table 9-11). -/
def rdOuter (y : LoopStat) : Nat := y.gExc + 2 ^ 8 * y.gTh + 2 ^ 16 * y.gGrant + 2 ^ 24 * y.bind

/-- `PWM_MEAS_STAT` (Table 10-8). -/
def rdMeas (d : Dev) (c : Ch) : Nat :=
  let x := d.chs[c]
  let (a, st, pt) := match x.meas with | some m => (true, m.step, m.point) | none => (false, 0, 0)
  b2n a + 2 * st + 2 ^ 4 * pt + 2 ^ 10 * x.measClass + 2 ^ 13 * b2n x.bound.isSome

/-- Whether a trajectory runs on a gain of a mix. -/
def trajOn (d : Dev) (c : Nat) : Bool :=
  d.mix.trajs.any fun t => decide (t.k < t.steps) && match t.obj with
    | .term k _ => decide (k.val = c)
    | .out k => decide (k.val = c)
    | .group g => decide ((mixAt d c).group = some g.val)

/-- `PWM_MIX_STAT` and `PWM_DLY_STAT` (Table 11-6). -/
def rdMix (d : Dev) (c : Nat) : Nat :=
  let m := mixAt d c
  m.busSat + 2 ^ 8 * m.gainSat + 2 ^ 16 * m.limGr + 2 ^ 24 * b2n (trajOn d c)
def rdDly (m : MixCh) : Nat :=
  if m.lineSize = 0 then 0
  else if m.slew = 0 then m.tau
  else m.tauNow + 2 ^ 19 * b2n (decide (m.tauNow ≠ m.tau))

/-- The PWM_ channel arrays of Table 18-4. -/
def readPwmCh (d : Dev) (o : Nat) : Nat :=
  let c : Ch := Fin.ofNat 128 (o % 0x200 / 4)
  let x := d.chs[c]
  match o / 0x200 with
  | 0x10 => rdChCfg x
  | 0x11 => rdChCmp x.mod
  | 0x12 => b2n x.mod.manEnable + 2 * b2n x.mod.manFF
  | 0x13 => x.mod.manDuty.toNat
  | 0x14 => x.mod.manPeriod
  | 0x15 => rdChStat x
  | 0x16 => x.mod.duty.toNat
  | 0x17 => x.mod.edge + 2 ^ 16 * x.mod.period
  | 0x18 => rdLoop d c
  | 0x19 => rdRegion x.stat
  | 0x1A => rdOuter x.stat
  | 0x1B => x.stat.xpk
  | 0x1C => rdMeas d c
  | 0x1D => rdMix d c.val
  | 0x1E => rdDly (mixAt d c.val)
  | _ => 0

/-! ### Power stage, Shank, thermal -/

/-- A register field of a quotient on its grid. -/
def rdQuot (d : Dev) (k w : Nat) (n q : Int) : Nat := fieldSat w (gridDiv n q (Config.freeBit (d.free + k)))

/-- The HSW_ registers of Table 18-5. -/
def readHsw (d : Dev) (o : Nat) : Nat :=
  let r := d.rails
  let p : Power := look d.power (o % 0x40 / 4) .reset
  if o < 0x4040 then fieldSat 16 p.rail.pvp + 2 ^ 16 * fieldSat 16 (-p.rail.pvn)
  else if o < 0x4080 then rdQuot d o 16 p.sagGain (2 ^ 32) + 2 ^ 16 * fieldSat 16 p.hmin
  else match o with
    | 0x4080 => packBits [r.clampP, r.clampN, r.riseP, r.riseN]
    | 0x4084 => packBits (d.power.toList.map (·.senseRemote))
    | 0x4088 => r.supVrailP + 2 ^ 16 * r.supRsrcP
    | 0x408C => r.supVrailN + 2 ^ 16 * r.supRsrcN
    | 0x4090 => r.cbulkP + 2 ^ 16 * r.cbulkN
    | 0x4094 => r.ppP + 2 ^ 8 * r.ppN + 2 ^ 16 * r.rippleFreq
    | _ => 0

/-- `SHK_GRANT` (Table 15-8). -/
def rdGrant (d : Dev) (c : Ch) : Nat :=
  d.shank.grants[c] + 2 ^ 16 * d.shank.demand[c] + 2 ^ 26 * b2n d.chs[c].cfg.shankClass + 2 ^ 27 * d.shank.level[c]

/-- `THM_TEMP` (Table 15-11). -/
def rdTemp (d : Dev) (i : Nat) : Nat :=
  let x := sensorAt d i
  fieldSat 12 (effective d x + 500) + 2 ^ 12 * packBits [x.broken, x.inUse, x.retired, x.fast]

/-- `THM_COIL` and `THM_RE` (Tables 9-9, 9-10). -/
def rdCoil (y : LoopStat) : Nat :=
  y.tc % 4096 + 2 ^ 12 * (y.tm % 4096) + 2 ^ 24 * packBits [y.initT, y.measured, y.pilot, y.unident, y.hot]
def rdRe (y : LoopStat) : Nat := y.reMeas + 2 ^ 16 * y.rejects + 2 ^ 24 * y.windows

/-- The SHK_ and THM_ registers of Table 18-6. -/
def readShank (d : Dev) (o : Nat) : Nat :=
  let s := d.shank
  let c : Ch := Fin.ofNat 128 (o % 0x200 / 4)
  if o = 0x4200 then rdQuot d o 14 s.e (3000 * 2 ^ 47) + 2 ^ 14 * s.bind + 2 ^ 16 * s.allow
  else if o = 0x4204 then s.out + 2 ^ 16 * s.irail
  else if o = 0x4208 then s.icapP + 2 ^ 16 * s.icapN
  else if o = 0x420C then fieldSat 8 s.fRise + 2 ^ 16 * s.cycles
  else if 0x4400 ≤ o ∧ o < 0x4600 then rdGrant d c
  else if 0x4600 ≤ o ∧ o < 0x4800 then d.chs[c].wear / 2 ^ 32 % 2 ^ 32
  else if 0x4800 ≤ o ∧ o < 0x4A00 then d.chs[c].wear / 2 ^ 64 % 2 ^ 32
  else if o = 0x4A00 then levelOf s.coreL + 4 * packBits [s.warn, s.throttle, d.guard.hold, nvOpen d]
  else if o = 0x4A04 then (List.range 16).foldl (fun n k => n + 4 ^ k * levelOf (look s.tileL k [])) 0
  else if o = 0x4A08 then s.event.toNat
  else if 0x4B00 ≤ o ∧ o < 0x4BD8 then rdTemp d ((o - 0x4B00) / 4)
  else if 0x4C00 ≤ o ∧ o < 0x4E00 then rdCoil d.chs[c].stat
  else if 0x4E00 ≤ o ∧ o < 0x5000 then rdRe d.chs[c].stat
  else 0

/-! ### Queue interface, Cobbler, ports -/

/-- `QIF_STATUS` (Table 13-13). -/
def rdQifStatus (d : Dev) : Nat :=
  packBits [d.qif.rdy, d.qif.cfgErr, d.admin.bringup, d.qif.paused] + 2 ^ 4 * d.qif.width.toNat + 2 ^ 7 * d.qif.speed.toNat

/-- The QIF_ registers of the host reset domain (Table 18-7). -/
def readQif (d : Dev) (o : Nat) : Nat :=
  let q := d.qif
  match o with
  | 0x5000 => b2n q.en
  | 0x5004 => rdQifStatus d
  | 0x5008 => q.aqSq + 2 ^ 16 * q.aqCq + 2 ^ 31 * b2n q.aqIen
  | 0x5010 => q.asqLo.toNat
  | 0x5014 => q.asqHi.toNat
  | 0x5018 => q.acqLo.toNat
  | 0x501C => q.acqHi.toNat
  | 0x5020 => q.evVector + 2 ^ 16 * q.evSel.toNat + 2 ^ 31 * b2n q.evEn
  | 0x5024 => q.errQueue + 2 ^ 14 * q.errKind + 2 ^ 16 * q.errCount
  | 0x5028 => cuesUsed d
  | _ => 0

/-- `QIF_HS_STAT` (Table 11-7). -/
def rdStream (s : Stream) : Nat := s.fifo.length + 2 ^ 15 * b2n s.running + 2 ^ 16 * s.underruns

/-- Conducting segments of a switch with its retired segments, and whether its spare is in use (Table 16-3). -/
def segSpare (s : BitVec 12) : Bool := decide (s.toNat % 2 ^ 11 ≠ 0) && !s.getLsbD 11
def segCond (s : BitVec 12) : Nat := 11 - ((List.range 11).filter fun i => s.getLsbD i).length + b2n (segSpare s)

/-- The COB_ registers of Table 18-8. -/
def readCob (d : Dev) (o : Nat) : Nat :=
  let b := d.cob
  if o = 0x5800 then b.lastPass + 2 ^ 12 * packBits [d.shank.throttle, b.latePass] + 2 ^ 16 * b.passes
  else if o = 0x5804 then b.uncorr + 2 ^ 16 * b.wher
  else if o = 0x5808 then packBits (b.etMtFailed.take 23) + 2 ^ 24 * b.failovers
  else if o = 0x580C then b.foLogical + 2 ^ 5 * b.foFrom + 2 ^ 10 * b.foTo + 2 ^ 15 * b.foCause
  else if 0x5840 ≤ o ∧ o < 0x5880 then
    let p : Power := look d.power ((o - 0x5840) / 4) .reset
    packBits [p.vSpare, p.iSpare] + 2 ^ 8 * (p.vFailed.toNat % 256) + 2 ^ 16 * (p.iFailed.toNat % 256) + 2 ^ 24 * p.calV + 2 ^ 28 * p.calI
  else if 0x5A00 ≤ o ∧ o < 0x5C00 then
    let x : Chan := look d.chs ((o - 0x5A00) / 4) .reset
    let sw (j : Nat) : Nat := let s := x.seg.getD j 0; let w := x.segSwap.getD j false; segCond s - b2n w + 2 ^ 4 * b2n (segSpare s && !w)
    sw 0 + 2 ^ 8 * sw 1
      + 2 ^ 16 * b2n (decide (x.prot.oos ≠ 0)) + 2 ^ 17 * x.prot.oos
  else 0

/-- `SAP_CFG0` and `SAP_CFG1` (Table 12-6). -/
def rdSapCfg0 (f : SapFmt) : Nat :=
  packBits [f.en, f.out, f.master, f.free, f.bclkInv, f.fsInv, f.tristate, f.fsHalf] + 2 ^ 8 * f.slots + 2 ^ 16 * f.width
    + 2 ^ 24 * f.dataBits
def rdSapCfg1 (f : SapFmt) : Nat := f.offset + 2 ^ 5 * f.rate + 2 ^ 8 * f.div + 2 ^ 16 * f.mclk

/-- `SAP_STAT` (Table 12-7). -/
def rdSapStat (d : Dev) (p : Nat) : Nat :=
  let s := look d.ports.sap p .reset
  let st := if !s.fmt.en then 0 else if s.resync ≠ 0 then 3 else if s.running then 2 else 1
  let ref := decide (d.tb.state = .locked ∧ d.tb.active = 3 ∧ d.tb.sapSel = p)
  st + 4 * s.fifo.length + 2 ^ 6 * b2n ref + 2 ^ 8 * wrap 8 s.phase + 2 ^ 16 * satN 0xFFFF (s.drops + s.repeats)

/-- `SAP_GRP_STAT` (Table 12-9). -/
def rdSapGrp (g : AlignGroup) : Nat := satN 0xFFFF g.events + 2 ^ 16 * g.lastKind + 2 ^ 19 * g.lastAction + 2 ^ 24 * g.lastMember

/-- The SAP_ registers of Table 18-9. -/
def readSap (d : Dev) (o : Nat) : Nat :=
  let p := o % 0x20 / 4
  let s := look d.ports.sap p .reset
  match o / 0x20 with
  | 0x300 => rdSapCfg0 s.fmt
  | 0x301 => rdSapCfg1 s.fmt
  | 0x302 => rdSapStat d p
  | 0x303 => s.mask.toNat
  | 0x304 => s.maskPend.toNat
  | 0x305 => packBits [s.partPresent, s.partMatch] + 4 * s.partRate + 2 ^ 5 * s.partBclk + 2 ^ 16 * s.partSlots
  | 0x306 => rdSapGrp (look d.ports.groups p ⟨0, [], 0, 0, 0, 0, 0⟩)
  | 0x307 => rdSapGrp (look d.ports.groups (8 + p) ⟨0, [], 0, 0, 0, 0, 0⟩)
  | _ => 0

/-! ### One register -/

/-- The offsets of registers of the audio reset domain, as ranges with their ends excluded (Tables 18-2 to 18-9). -/
def audioRanges : List (Nat × Nat) :=
  [(0x1000, 0x100C), (0x1010, 0x1038), (0x1100, 0x1104), (0x1110, 0x112C), (0x1140, 0x1200), (0x2000, 0x3E00),
   (0x4000, 0x4098), (0x4200, 0x4210), (0x4400, 0x4A0C), (0x4B00, 0x4BD8), (0x4C00, 0x5000), (0x5200, 0x5400),
   (0x5800, 0x5810), (0x5840, 0x5880), (0x5A00, 0x5C00), (0x6000, 0x6100)]

/-- Whether an offset names a register of the audio reset domain. -/
def audioReg (o : Nat) : Bool := audioRanges.any fun r => decide (r.1 ≤ o ∧ o < r.2)

/-- An audio-domain register. -/
def readAudio (d : Dev) (o : Nat) : Nat :=
  if o < 0x1100 then readTb d.tb o
  else if o < 0x2000 then readPwm d o
  else if o < 0x4000 then readPwmCh d o
  else if o < 0x4200 then readHsw d o
  else if o < 0x5000 then readShank d o
  else if 0x5200 ≤ o ∧ o < 0x5400 then rdStream (look d.mix.streams ((o - 0x5200) / 4) .reset)
  else if 0x5800 ≤ o ∧ o < 0x5C00 then readCob d o
  else if 0x6000 ≤ o ∧ o < 0x6100 then readSap d o
  else 0

/-- The register at an aligned offset below 0x0_7F00, whatever the state of bring-up (R549 to R551). -/
def readReg (d : Dev) (o : Nat) : Nat :=
  if o < 0x1000 then (readGuard d o).getD 0
  else if audioReg o then readAudio d o
  else if 0x5000 ≤ o ∧ o < 0x5200 then readQif d o
  else 0

/-- A BAR0 read of `size` bytes at `o`: all ones where it is no aligned 32-bit read (R388), and from the audio domain while audio reset or
bring-up lasts (R554). -/
def barRead (d : Dev) (o size : Nat) : Nat :=
  if size ≠ 4 ∨ o % 4 ≠ 0 then 2 ^ (8 * size) - 1 else if audioReg o && hostClosed d then 0xFFFFFFFF else readReg d o

/-! ### TELEMETRY_READ (R413, R414) -/

/-- Opcode of TELEMETRY_READ. -/
def opTelemetry : Nat := 0x29

/-- TELEMETRY_READ at the present boundary. -/
def doTelemetry (d : Dev) (r : CmdRef) (o n : Nat) : Dev :=
  if o % 4 ≠ 0 ∨ 0x7F00 ≤ o ∨ n < 1 ∨ 8128 < n ∨ 0x7F00 < o + 4 * n ∨ r.len < 16 + 4 * n then refuse d r opTelemetry stField
  else if hostClosed d then refuse d r opTelemetry stNotReady
  else
    let vals := (List.range n).flatMap fun k => le 4 (readReg d (o + 4 * k))
    completeAt (hostWrite d r (le 8 d.tb.stc ++ le 4 o ++ le 4 n ++ vals)) r opTelemetry stSuccess d.tb.stc

/-- TELEMETRY_READ (R413). -/
def execTelemetryRead (r : CmdRef) (offset count : Nat) (s : State) : Host.Outcome State Fault Refusal :=
  onDev (fun d => doTelemetry d r offset count) s

/-! ### Writes of plain fields -/

/-- Whether RWL fields take a write: no image is in force (Table 0-3). -/
def rwlOpen (d : Dev) : Bool := !imageOn d

/-- A write to a register of a channel that has no behaviour of its own. A value outside the range of its field, of a dead time, a
feed-forward reference or a limit of the guard, is stored as written. (DESIGN CHOICE, log entry 14.) -/
def writeChan (o v : Nat) (rwl : Bool) (x : Chan) : Chan :=
  let k := x.cfg
  match o / 0x200 with
  | 0x01 => if rwl then { x with cfg := { k with ilim := bits v 0 8, blank := bits v 8 5, tripCount := bits v 16 8, dcTime := bits v 24 8 } } else x
  | 0x02 => if rwl then { x with cfg := { k with tripWindow := bits v 0 16, dcThresh := bits v 16 9 } } else x
  | 0x10 => if rwl then { x with cfg := { k with
      deadTime := bits v 0 8, updMid := bit v 8, ffEn := bit v 9, manPermit := bit v 10, ffRef := bits v 16 16 } } else x
  | 0x11 => { x with mod := { x.mod with cmpA := bits v 0 8, auxA := bit v 15, cmpB := bits v 16 8, auxB := bit v 31 } }
  | _ => x

/-- A write to an event unit: either register returns COUNT to 0. -/
def writeEvi (o v : Nat) (u : Nat × Nat × Nat × Bool × Nat × Nat) : Nat × Nat × Nat × Bool × Nat × Nat :=
  let (ch, ev, vec, en, div, _) := u
  if o % 8 = 0 then (bits v 0 7, bits v 8 3, bits v 16 11, bit v 31, div, 0) else (ch, ev, vec, en, bits v 0 16, 0)

/-- A write to a port's locked format. -/
def writeSap (second : Bool) (v : Nat) (s : Sap) : Sap :=
  let f := s.fmt
  { s with fmt := if second then { f with offset := bits v 0 5, rate := bits v 5 3, div := bits v 8 8, mclk := bits v 16 2 }
    else { f with
      en := bit v 0, out := bit v 1, master := bit v 2, free := bit v 3, bclkInv := bit v 4, fsInv := bit v 5, tristate := bit v 6
      fsHalf := bit v 7, slots := bits v 8 6, width := bits v 16 6, dataBits := bits v 24 6 } }

/-- A write to a field of the guard or host domain. -/
def writeGuardHost (d : Dev) (o v : Nat) : Dev :=
  let q := d.qif
  let w := BitVec.ofNat 32 v
  let base (f : Qif → Qif) : Dev := if q.en then d else { d with qif := f q }
  match o with
  | 0x0104 => { d with guard := { d.guard with event := d.guard.event &&& ~~~(BitVec.ofNat 16 v) } }
  | 0x010C => { d with guard := { d.guard with gpioOe := BitVec.ofNat 6 (bits v 8 6), gpioOut := BitVec.ofNat 6 (bits v 16 6) } }
  | 0x5008 => base fun y => { y with aqSq := bits v 0 13, aqCq := bits v 16 13, aqIen := bit v 31 }
  | 0x5010 => base fun y => { y with asqLo := w }
  | 0x5014 => base fun y => { y with asqHi := w }
  | 0x5018 => base fun y => { y with acqLo := w }
  | 0x501C => base fun y => { y with acqHi := w }
  | 0x5020 => { d with qif := { q with evVector := bits v 0 11, evSel := BitVec.ofNat 4 (bits v 16 4), evEn := bit v 31 } }
  | _ => if 0x0200 ≤ o ∧ o < 0x0600 then { d with chs := updN d.chs (o % 0x200 / 4) (writeChan o v (rwlOpen d)) } else d

/-- A write to a field of the audio domain. -/
def writeAudio (d : Dev) (o v : Nat) : Dev :=
  let rwl := rwlOpen d
  if o = 0x1000 then { d with tb := setRefCfg d.tb v }
  else if o = 0x1008 then { d with tb := { d.tb with event := d.tb.event &&& ~~~(BitVec.ofNat 5 v) } }
  else if 0x1110 ≤ o ∧ o < 0x1120 then { d with haltMask := d.haltMask.set ((o - 0x1110) / 4) (BitVec.ofNat 32 v) }
  else if 0x1140 ≤ o ∧ o < 0x11C0 then { d with evi := updN d.evi ((o - 0x1140) / 8) (writeEvi o v) }
  else if 0x2000 ≤ o ∧ o < 0x2400 then { d with chs := updN d.chs (o % 0x200 / 4) (writeChan o v rwl) }
  else if o = 0x4080 then { d with rails := { d.rails with riseP := d.rails.riseP && !bit v 2, riseN := d.rails.riseN && !bit v 3 } }
  else if o = 0x4084 ∧ rwl = true then { d with power := tab d.power fun k p => { p with senseRemote := bit v k.val } }
  else if o = 0x4A08 then { d with shank := { d.shank with event := d.shank.event &&& ~~~(BitVec.ofNat 7 v) } }
  else if o = 0x5800 then { d with cob := { d.cob with latePass := d.cob.latePass && !bit v 13 } }
  else if 0x6000 ≤ o ∧ o < 0x6040 ∧ rwl = true then
    dropSapRef { d with ports := { d.ports with sap := updN d.ports.sap (o % 0x20 / 4) (writeSap (decide (0x6020 ≤ o)) v) } }
  else d

/-- A write of a register's plain fields over BAR0 or the SMBus: the audio domain ignores it while audio reset or bring-up
lasts (R554). -/
def writeField (d : Dev) (o v : Nat) : Dev :=
  if audioReg o then (if hostClosed d then d else writeAudio d o v) else writeGuardHost d o v

end Sys2Proof.Machine
end

