-- ==== Sys2Proof/Machine/Logs.lean ====
section
/-!
DEFINITION. The log pages 0x01 to 0x09, IDENTIFY and GET_LOG (R434 to R440, Tables 14-4 to 14-9, 3-9, 12-4, R308, R353), each as
assembled at the present Fi boundary.
-/

namespace Sys2Proof.Machine

/-- A count of `k` bytes, saturating (R435). -/
def leS (k n : Nat) : List Byte := le k (satN (256 ^ k - 1) n)

/-- The STC that opens a page. -/
def stcBytes (d : Dev) : List Byte := le 8 d.tb.stc

/-- A slot number, 0xFF if none. -/
def slotByte (o : Option Nat) : Nat := o.getD 0xFF

/-- Slot of the image in force, 0xFF if none. -/
def imageSlot (d : Dev) : Nat := if imageOn d then d.core.imageSlot else 0xFF

/-! ### Page 0x01 (R436, Table 14-6) -/

/-- An error record. -/
def errBytes (e : ErrRec) : List Byte :=
  le 8 e.stc ++ le 2 e.sqId ++ le 2 e.cid ++ le 1 e.opcode ++ le 1 e.status ++ le 1 e.reason ++ le 1 e.tile ++ le 1 e.phase
    ++ le 1 e.slice ++ le 2 e.param ++ le 2 e.index ++ zeros 2 ++ le 4 e.r0 ++ le 4 e.r1

def pageErr (d : Dev) : List Byte :=
  fit 8208 (stcBytes d ++ le 4 d.admin.errLog.length ++ le 4 d.admin.errTotal ++ d.admin.errLog.flatMap errBytes)

/-! ### Page 0x02 (R437, R501, Table 14-7) -/

/-- The logical tile a physical tile serves, 0xFF if none (Table 3-9). -/
def servedBy (d : Dev) (p : Nat) : Nat :=
  match (List.range 20).find? fun t => let u := look d.core.tiles t (TileState.reset 0xFF); decide (u.phys = p) && !u.failed with
  | some t => t
  | none => 0xFF

/-- Whether a physical tile is retired. -/
def retired (d : Dev) (p : Nat) : Bool := d.cob.etMtFailed.getD p false

/-- Spare tiles that are neither active nor retired, among `l`. -/
def sparesOf (d : Dev) (l : List Nat) : List Nat := l.filter fun p => decide (servedBy d p = 0xFF) && !retired d p

/-- Switches whose spare segment is unused. -/
def segSpares (d : Dev) : Nat := ((d.chs.toList.flatMap fun x => x.seg.zip x.segSwap).filter fun p => !(segSpare p.1 && !p.2) && !p.1.getLsbD 11).length

/-- Spare rows unused, in 0.01 % of 178,176 rows; 200 when new. -/
def sramSpares (d : Dev) : Nat :=
  let n := d.cob.spareRows.sum
  if n = 3565 then 200 else (gridDiv ((n : Int) * 10000) 178176 (Config.freeBit d.free)).toNat

def pageHealth (d : Dev) : List Byte :=
  let b := d.cob
  let spare (used : Power → Bool) (bad : Power → BitVec 9) : Nat := (d.power.toList.filter fun p => !used p && !(bad p).getLsbD 8).length
  fit 256 (stcBytes d ++ le 1 d.growth.member ++ le 1 d.growth.growth ++ le 1 d.qif.width.toNat ++ le 1 d.qif.speed.toNat
    ++ le 2 (wrap 16 d.shank.tjMax) ++ le 1 (if d.shank.throttle then 2 else b2n d.shank.warn) ++ zeros 1
    ++ (List.range 23).flatMap (fun p => le 1 (servedBy d p)) ++ zeros 1
    ++ leS 2 (segSpares d) ++ le 1 (spare (·.vSpare) (·.vFailed)) ++ le 1 (spare (·.iSpare) (·.iFailed)) ++ leS 1 b.tsenseSpares
    ++ le 1 (sparesOf d (List.range 18)).length ++ le 1 (sparesOf d [18, 19, 20, 21, 22]).length ++ zeros 1
    ++ leS 2 (sramSpares d) ++ leS 2 b.nvWear ++ leS 4 b.uncTotal ++ leS 8 b.corrected ++ leS 8 b.unavailable
    ++ leS 4 (d.guard.powerOnMs / 1000))

/-! ### Page 0x03 (R382, Table 12-4) -/

def sapBytes (s : Sap) : List Byte :=
  leS 4 s.drops ++ leS 4 s.repeats ++ leS 4 s.underruns ++ leS 4 s.overruns ++ leS 4 s.standin ++ leS 4 s.frameErr ++ leS 4 s.groupActs
    ++ zeros 4

def groupBytes (g : AlignGroup) : List Byte :=
  leS 4 g.events ++ le 8 g.lastStc ++ le 1 g.lastKind ++ le 1 g.lastMember ++ le 1 g.lastAction ++ zeros 1

def pageSlip (d : Dev) : List Byte :=
  stcBytes d ++ le 4 (imageId d) ++ zeros 4 ++ d.ports.sap.toList.flatMap sapBytes
    ++ d.mix.streams.toList.flatMap (fun s => leS 4 s.underLog ++ leS 4 s.overLog) ++ d.ports.groups.toList.flatMap groupBytes

/-! ### Page 0x04 (R438, Table 6-3) -/

/-- A history record; an STC of all ones when the timebase was not running. -/
def histBytes (r : HistRec) : List Byte :=
  (match r.stc with | some n => le 8 n | none => List.replicate 8 0xFF) ++ le 4 r.guardTime ++ le 1 r.ch ++ le 1 r.cause ++ le 1 r.detail
    ++ le 1 r.flags

def pageTrip (d : Dev) : List Byte :=
  fit 16400 (stcBytes d ++ le 4 d.admin.trips.length ++ leS 4 d.admin.tripTotal ++ d.admin.trips.flatMap histBytes)

/-! ### Page 0x05 (R439, Table 14-8) -/

/-- FW_RUNNING, FW_BOOT, IMAGE_SLOT and AUTOLOAD. -/
def slotBytes (d : Dev) : List Byte :=
  le 1 d.admin.fwRunning ++ le 1 d.admin.fwBoot ++ le 1 (imageSlot d) ++ le 1 (slotByte d.admin.autoSlot)

def fwBytes (f : FwSlot) : List Byte :=
  if f.st = 0 then zeros 64
  else fit 64 (le 1 f.st ++ zeros 3 ++ fit 8 f.rev ++ le 4 f.build ++ le 4 f.len ++ le 1 f.key ++ zeros 3 ++ le 8 f.stc ++ leS 4 f.acts)

/-- An image slot's record, from the header of its bytes (Table 3-1). -/
def imgBytes (marked : Bool) (x : ImgSlot) : List Byte :=
  if x.valid then
    let h (o n : Nat) : List Byte := slice x.bytes o n
    fit 64 (le 1 1 ++ le 1 (b2n marked) ++ zeros 2 ++ h 0x10 4 ++ h 0x20 32 ++ h 0x19 1 ++ h 0x18 1 ++ zeros 2 ++ h 8 4
      ++ h 0x14 4 ++ le 8 x.stc)
  else zeros 64

def pageSlots (d : Dev) : List Byte :=
  stcBytes d ++ slotBytes d ++ zeros 4 ++ d.admin.fw.toList.flatMap fwBytes
    ++ (List.range 4).flatMap fun k => imgBytes (decide (d.admin.autoSlot = some k)) (look d.admin.img k ⟨false, [], 0, 0⟩)

/-! ### Page 0x06 (R91, Table 3-9) -/

def slackBytes (d : Dev) (p : Fin 23) : List Byte :=
  let r := d.core.slack[p]
  let l := servedBy d p.val
  let fc (n : Nat) : List Byte := le 2 (if p.val < 18 then n else 0xFFFF)
  fit 32 (le 1 l ++ le 1 (if retired d p.val then 2 else if l = 0xFF then 0 else 1) ++ zeros 2 ++ fc r.fcMin ++ fc r.fcMinInt
    ++ leS 4 r.fiMin ++ leS 4 r.fiMinInt ++ leS 4 r.lateFi ++ leS 4 r.skipped ++ leS 2 r.fcLast)

def pageSlack (d : Dev) : List Byte :=
  stcBytes d ++ le 4 (imageId d) ++ le 1 d.tb.n ++ zeros 3 ++ (ixs 23).flatMap (slackBytes d)
    ++ d.chs.toList.flatMap fun x => leS 4 x.late

/-! ### Page 0x07 (R308) -/

def pageLoads (d : Dev) : List Byte :=
  stcBytes d ++ le 2 (d.admin.records.filter fun p => bit (recFlags p.2) 0).length ++ zeros 6
    ++ d.chs.toList.flatMap (fun x => le 2 (x.bound.getD 0xFFFF))
    ++ (List.range 512).flatMap fun k => fit 256 ((Mem.find d.admin.records k).getD [])

/-! ### Page 0x08 (R440, Table 14-9) -/

def pageReplay (d : Dev) : List Byte :=
  let r := d.admin.replay
  fit 2088 (le 8 r.stcPause ++ le 8 r.stcResume ++ le 4 r.pauseUs ++ le 1 r.fromSlot ++ le 1 r.toSlot ++ le 1 r.outcome ++ zeros 1
    ++ leS 4 r.journalled ++ leS 4 r.cuesDue ++ le 2 r.recs.length ++ zeros 6
    ++ r.recs.flatMap fun x => let (q, cid, op, act, st) := x; le 2 q ++ le 2 cid ++ le 1 op ++ le 1 act ++ le 1 st ++ zeros 1)

/-! ### Page 0x09 (R352, R353) -/

/-- Put a record in its place by INDEX. (DESIGN CHOICE, log entry 66.) -/
def putPath (p : Param) : List Param → List Param
  | [] => [p]
  | q :: rest => if p.index ≤ q.index then p :: q :: rest else q :: putPath p rest

/-- The PATH_LATENCY records of the image in force, in the order of their INDEX. (DESIGN CHOICE, log entry 66.) -/
def pathRecs (d : Dev) : List (List Byte) :=
  match d.core.image with
  | some img => ((img.params.filter fun p => decide (p.code = 0x0B10)).foldr putPath []).map fun p => fit 16 p.val
  | none => []

/-- A record with the read delay in force. The update mode is the image's while one is in force, so FINE stands. -/
def pathNow (d : Dev) (r : List Byte) : List Byte := r.take 12 ++ le 4 (mixAt d (leAt r 2 1)).tauNow

/-- The layout of page 0x09 around its records. (DESIGN CHOICE, log entry 66.) -/
def pathPage (d : Dev) (l : List (List Byte)) : List Byte := stcBytes d ++ le 4 (imageId d) ++ le 2 l.length ++ zeros 2 ++ l.flatten

/-! ### GET_LOG and IDENTIFY -/

/-- A log page, none where the number names none (Table 14-5). -/
def logPage (d : Dev) (p : Nat) : Option (List Byte) :=
  match p with
  | 0x01 => some (pageErr d)
  | 0x02 => some (pageHealth d)
  | 0x03 => some (pageSlip d)
  | 0x04 => some (pageTrip d)
  | 0x05 => some (pageSlots d)
  | 0x06 => some (pageSlack d)
  | 0x07 => some (pageLoads d)
  | 0x08 => some (pageReplay d)
  | 0x09 => some (pathPage d ((pathRecs d).map (pathNow d)))
  | _ => none

/-- Opcodes of GET_LOG and IDENTIFY complete with what they wrote (R435, Table 14-3). -/
def doGetLog (d : Dev) (r : CmdRef) (page : Byte) (o : Nat) : Dev :=
  match logPage d page.toNat with
  | none => refuse d r opGetLog stField
  | some bs =>
    if o % 4 ≠ 0 ∨ bs.length ≤ o then refuse d r opGetLog stField
    else
      let out := (bs.drop o).take r.len
      complete (hostWrite d.tick r out) r opGetLog stSuccess bs.length out.length

/-- GET_LOG (R435). -/
def execGetLog (r : CmdRef) (page : Byte) (offset : Nat) (s : State) : Host.Outcome State Fault Refusal :=
  onDev (fun d => onQ0 d r opGetLog (doGetLog d r page offset)) s

/-- The device data of IDENTIFY (R434, Table 14-4). -/
def identData (d : Dev) : List Byte :=
  let run : FwSlot := look d.admin.fw d.admin.fwRunning ⟨0, [], 0, 0, 0, 0, 0⟩
  let nm := match d.core.image with | some i => fit 32 i.name | none => zeros 32
  let priv := (d.chs.toList.filter fun x => x.cfg.privileged).length
  let keys := packBits ((List.range 4).map fun k => (d.admin.keys.getD k none).isSome)
  fit 4096 (le 2 0x1F7A ++ le 2 0xE128 ++ le 1 0xB0 ++ le 1 d.growth.member ++ le 1 d.growth.growth ++ zeros 1 ++ fit 16 d.guard.serial
    ++ fit 8 run.rev ++ slotBytes d ++ le 4 (imageId d) ++ nm ++ le 1 d.tb.n ++ leS 1 priv ++ leS 2 (pathRecs d).length ++ le 1 keys
    ++ zeros 3 ++ le 2 16384 ++ le 2 4096 ++ le 2 2048 ++ zeros 2 ++ le 4 65536 ++ zeros 4 ++ stcBytes d)

/-- Write the data of an IDENTIFY and complete it. -/
def doIdentify (d : Dev) (r : CmdRef) (bs : List Byte) : Dev :=
  let out := bs.take r.len
  complete (hostWrite d r out) r opIdentify stSuccess out.length 0

/-- IDENTIFY, CNS 0 (R434). -/
def execIdentify (r : CmdRef) (s : State) : Host.Outcome State Fault Refusal := onDev (fun d => onQ0 d r opIdentify (doIdentify d r (identData d))) s

/-- IDENTIFY, CNS 1: the path latency records as compiled (R353). -/
def execIdentifyLatency (r : CmdRef) (s : State) : Host.Outcome State Fault Refusal :=
  onDev (fun d => onQ0 d r opIdentify (doIdentify d r (pathPage d (pathRecs d)))) s

end Sys2Proof.Machine
end

