-- ==== Sys2Proof/Machine/Admin.lean ====
section
/-!
DEFINITION. The admin commands (R430 to R458, Table 14-3), each as the stewards start it, the non-volatile writes, firmware
activation with its replay, and the order in which the stewards start commands (R431).
-/

namespace Sys2Proof.Machine

/-- What an admin command that bring-up doesn't serve needs (R462). -/
def adminOpen (d : Dev) (r : CmdRef) (op : Nat) (f : Dev) : Dev := onQ0 d r op (if hostClosed d then refuse d r op stNotReady else f)

/-! ### Features (R441 to R443, R460, R461, R487) -/

/-- The buffer of feature 0x03. -/
def budgetBytes (s : Shank) : List Byte :=
  le 2 s.pCont ++ le 2 s.pPeak ++ le 2 s.bucket ++ le 2 s.eta ++ le 2 s.pIdle ++ le 2 s.capP ++ le 2 s.capN ++ zeros 2

/-- The buffer of feature 0x04 (R487). -/
def thermBytes (s : Shank) : List Byte :=
  le 2 s.warnSet.toNat ++ le 1 s.warnHyst.toNat ++ le 1 s.thrHyst.toNat ++ le 2 s.thrSet.toNat ++ zeros 2

/-- The value of a feature, and its buffer where it has one (Table 14-10). -/
def featureOf (d : Dev) : Nat → Option (Nat × List Byte)
  | 0x01 => some (d.qif.wHigh + 2 ^ 8 * d.qif.wMed + 2 ^ 16 * d.qif.wLow, [])
  | 0x02 => some (b2n d.admin.policyMute + 2 ^ 8 * b2n d.mix.muted, [])
  | 0x03 => some (0, budgetBytes d.shank)
  | 0x04 => some (0, thermBytes d.shank)
  | 0x05 => some (d.qif.coalThresh + 2 ^ 16 * d.qif.coalTime, [])
  | 0x06 => some (refCfgNum d.tb, [])
  | 0x07 => some (d.admin.telemetryMs, [])
  | _ => none

/-- GET_FEATURE: a feature that stands in the buffer leaves RESULT0 and RESULT1 without a stated value (Table 14-3). (DEDUCED, log entry 48.) -/
def doGetFeature (d : Dev) (r : CmdRef) (fid : Nat) : Dev :=
  match featureOf d fid with
  | none => refuse d r opGetFeature stField
  | some (v, bs) =>
    if fid = 3 ∨ fid = 4 then
      complete (hostWrite (d.ticks 2) r bs) r opGetFeature stSuccess (Config.freeNat d.free) (Config.freeNat (d.free + 1))
    else complete d r opGetFeature stSuccess v 0

/-- GET_FEATURE (R441). -/
def execGetFeature (r : CmdRef) (fid : Byte) (s : State) : Host.Outcome State Fault Refusal :=
  onDev (fun d => adminOpen d r opGetFeature (doGetFeature d r fid.toNat)) s

/-- Bounds of feature 0x04 (Table 15-4). -/
def thermOk (b : List Byte) : Bool :=
  inRange b 0 2 800 1150 && inRange b 2 1 20 100 && inRange b 3 1 20 100 && inRange b 4 2 1000 1250 && decide (leAt b 0 2 ≤ leAt b 4 2)
    && decide (leAt b 6 2 = 0)

/-- Ranges of a SET_FEATURE (Table 14-10); MUTED is read only. -/
def featureOk (fid v : Nat) (b : List Byte) : Bool :=
  match fid with
  | 0x01 => decide (v < 2 ^ 24)
  | 0x02 => decide (bits v 2 6 = 0 ∧ v < 2 ^ 9)
  | 0x03 => decide (v = 0 ∧ b.length = 16) && budgetOk b
  | 0x04 => decide (v = 0 ∧ b.length = 8) && thermOk b
  | 0x05 => decide (bits v 8 8 = 0 ∧ v < 2 ^ 32 ∧ (bits v 0 8 = 0 ∨ bits v 16 16 ≠ 0))
  | 0x06 => decide (v < 2 ^ 12)
  | 0x07 => decide (10 ≤ v ∧ v ≤ 60000)
  | _ => false

/-- Put a feature's value in force. -/
def putFeature (d : Dev) (fid v : Nat) (b : List Byte) : Dev :=
  match fid with
  | 0x01 => { d with qif := { d.qif with wHigh := bits v 0 8, wMed := bits v 8 8, wLow := bits v 16 8 } }
  | 0x02 => { d with admin := { d.admin with policyMute := bit v 0 }, mix := { d.mix with muted := d.mix.muted && !bit v 1 } }
  | 0x03 => setBudget d b
  | 0x04 => { d with shank := { d.shank with
      warnSet := leAt b 0 2, warnHyst := leAt b 2 1, thrHyst := leAt b 3 1, thrSet := leAt b 4 2 } }
  | 0x05 => { d with qif := { d.qif with coalThresh := bits v 0 8, coalTime := bits v 16 16 } }
  | 0x06 => { d with tb := setRefCfg d.tb v }
  | 0x07 => { d with admin := { d.admin with telemetryMs := v } }
  | _ => d

/-- SET_FEATURE at the present boundary. -/
def doSetFeature (d : Dev) (r : CmdRef) (fid v : Nat) (b : List Byte) : Dev :=
  if featureOk fid v b then complete (putFeature d fid v b) r opSetFeature stSuccess 0 0 else refuse d r opSetFeature stField

/-- SET_FEATURE (R441). -/
def execSetFeature (r : CmdRef) (fid : Byte) (value : W64) (buf : List Byte) (s : State) : Host.Outcome State Fault Refusal :=
  onDev (fun d => adminOpen d r opSetFeature (doSetFeature d r fid.toNat value.toNat buf)) s

/-! ### Queues (R389, R433, R457, R458) -/

/-- Depths and bases of R389. -/
def ringOk (depth base : Nat) : Bool := decide (2 ≤ depth ∧ depth ≤ 4096 ∧ base % 64 = 0)

/-- A new queue pair: both rings empty, the first pass of the CQ at phase 1 (R391). -/
def newQueue (cls : Nat) (ien : Bool) (vector sqDepth cqDepth sqBase cqBase : Nat) (blocked : Option (BitVec 16)) : Queue :=
  ⟨cls, ien, vector, sqDepth, cqDepth, sqBase, cqBase, 0, 0, 0, 0, true, blocked, false⟩

/-- CREATE_QUEUE: eligible for fetch from the posting of its completion. -/
def doCreate (d : Dev) (r : CmdRef) (c : QueueCfg) : Dev :=
  let ok := decide (c.qid.val ≠ 0 ∧ c.vector < 2048) && (Mem.find d.qif.queues c.qid.val).isNone
    && ringOk c.sqDepth c.sqBase.toNat && ringOk c.cqDepth c.cqBase.toNat
  if ok then
    let q := newQueue c.cls.val c.ien c.vector c.sqDepth c.cqDepth c.sqBase.toNat c.cqBase.toNat (some r.cid)
    complete { d with qif := { d.qif with queues := Mem.put d.qif.queues c.qid.val q } } r opCreateQueue stSuccess 0 0
  else refuse d r opCreateQueue stField

/-- CREATE_QUEUE (R433). -/
def execCreateQueue (r : CmdRef) (cfg : QueueCfg) (s : State) : Host.Outcome State Fault Refusal :=
  onDev (fun d => adminOpen d r opCreateQueue (doCreate d r cfg)) s

/-- What a reset of its queue does to one command (Table 14-12), with the counts of commands ended and committed. A MEASURE_LOAD
has its own line in the table, whether or not it has started. (DEDUCED, log entry 36.) -/
def resetFlight (a : Dev × Nat × Nat) (f : Flight) : Dev × Nat × Nat :=
  let (d, n, k) := a
  let waits := d.qif.swaits.any fun w => sameRef w.ref f.ref
  if f.opcode = opMeasure then
    (if f.prog = .due then complete d f.ref opMeasure stByReset measNone 0
     else match (ixs 128).find? fun c => match d.chs[c].meas with | some m => sameRef m.ref f.ref | none => false with
      | some c => measAbort d c stByReset
      | none => d, n + 1, k)
  else if waits then
    (refuse { d with qif := { d.qif with swaits := d.qif.swaits.filter fun w => !sameRef w.ref f.ref } } f.ref f.opcode stByReset, n + 1, k)
  else if f.prog = .due ∨ isCommitted d f = true then (d, n, k + 1)
  else if f.prog = .cue ∨ f.prog = .framed then (refuse (streamUnstart d f.ref) f.ref f.opcode stByReset, n + 1, k)
  else match d.mix.trajs.find? fun t => sameRef t.ref f.ref with
    | some t =>
      (completeAt { d with mix := { d.mix with trajs := d.mix.trajs.filter fun x => !sameRef x.ref f.ref } } f.ref f.opcode stByReset t.start,
        n + 1, k)
    | none =>
      if d.relWait.any fun w => sameRef w.1 f.ref then
        (refuse { d with relWait := d.relWait.filter fun w => !sameRef w.1 f.ref } f.ref f.opcode stByReset, n + 1, k)
      else (d, n, k)

/-- The journal of the present host: every command fetched and not completed. -/
def liveFlights (d : Dev) : List Flight := d.qif.flights.filter fun f => hostLive d f.ref

/-- Place in fetch order of a command, that of the next fetch where it has no entry. -/
def orderOf (d : Dev) (r : CmdRef) : Nat := match flightOf d r with | some f => f.order | none => d.qif.order

/-- Whether a FLUSH waits for a command: not for a pending cue, nor for a trajectory past step 1 (R455, Table 14-12). (DEDUCED, log entry 46.) -/
def flushHeld (d : Dev) (f : Flight) : Bool :=
  let pend := f.inStore && !isCommitted d f && decide (f.opcode ≠ opImageActivate)
    && !d.qif.swaits.any fun w => sameRef w.ref f.ref
  !pend && decide (f.prog ≠ .traj)

/-- Commands fetched before a waiter, in its scope. (DEDUCED, log entry 46.) -/
def inScope (d : Dev) (w : Waiter) : List Flight :=
  (liveFlights d).filter fun f => decide (f.order < w.upTo) && (decide (w.scope = 0xFFFF) || decide (f.ref.q.val = w.scope)) && !sameRef f.ref w.ref

/-- Whether what a waiter waits for has come about: a command has completed when its completion is posted (Table 13-5), so a FLUSH too
waits for the completions of its scope, as a reset does for every one owed to its CQ (R455, R457). (DEDUCED, log entry 46.) -/
def waiterDone (d : Dev) (w : Waiter) : Bool :=
  match w.kind with
  | 0 => !(inScope d w).any (flushHeld d)
    && !d.qif.outbox.any fun c => decide (c.order < w.upTo) && (decide (w.scope = 0xFFFF) || decide (c.q.val = w.scope))
  | 1 | 2 => decide (inScope d w = []) && !d.qif.outbox.any fun c => decide (c.q.val = w.scope ∧ c.order < w.upTo)
  | _ => false

/-- Complete a waiter: FLUSH reports the pending cues it didn't wait for. -/
def waiterFinish (d : Dev) (w : Waiter) : Dev :=
  let d1 := { d with qif := { d.qif with waiters := d.qif.waiters.filter fun x => !sameRef x.ref w.ref } }
  match w.kind with
  | 0 =>
    let left := (inScope d w).filter fun f => f.inStore
    complete d1 w.ref opFlush stSuccess left.length (left.filter fun f => decide (f.prog = .framed)).length
  | 1 => complete d1 w.ref opQueueReset stSuccess w.r0 w.r1
  | 2 => complete { d1 with qif := { d1.qif with queues := Mem.erase d1.qif.queues w.scope } } w.ref opDeleteQueue stSuccess w.r0 w.r1
  | _ => d

/-- Complete a waiter now, or let it wait. -/
def waiterPut (d : Dev) (w : Waiter) : Dev :=
  if waiterDone d w then waiterFinish d w else { d with qif := { d.qif with waiters := d.qif.waiters ++ [w] } }

/-- Complete the waiter of a command, if it is done; none completes while the stewards restart (R447, R450). (DEDUCED, log entry 46.) -/
def waiterCheck (d : Dev) (kinds : List Nat) (q : QId) (cid : BitVec 16) : Dev :=
  if stewardsDown d then d else match d.qif.waiters.find? fun w => decide (w.ref.q = q ∧ w.ref.cid = cid) && kinds.contains w.kind with
  | some w => if waiterDone d w then waiterFinish d w else d
  | none => d

/-- QUEUE_RESET or DELETE_QUEUE: end the uncommitted work, discard the unfetched entries, and wait for what is owed to every command
fetched so far (R457, R458). -/
def doReset (d : Dev) (r : CmdRef) (qid : QId) (del : Bool) : Dev :=
  let op := if del then opDeleteQueue else opQueueReset
  match Mem.find d.qif.queues qid.val with
  | none => refuse d r op stField
  | some q =>
    if qid.val = 0 ∨ q.deleting = true then refuse d r op stField
    else
      let upTo := d.qif.order
      let (d1, n, k) := ((liveFlights d).filter fun f => decide (f.ref.q = qid) && !sameRef f.ref r).foldl resetFlight (d, 0, 0)
      let d2 := { d1 with qif := { d1.qif with queues := Mem.put d1.qif.queues qid.val { q with sqHead := q.sqTail, deleting := del } } }
      waiterPut d2 ⟨r, if del then 2 else 1, qid.val, upTo, q.sqHead + 2 ^ 16 * q.sqTail, n + 2 ^ 16 * k⟩

/-- DELETE_QUEUE (R458). -/
def execDeleteQueue (r : CmdRef) (qid : QId) (s : State) : Host.Outcome State Fault Refusal :=
  onDev (fun d => adminOpen d r opDeleteQueue (doReset d r qid true)) s

/-- QUEUE_RESET (R457). -/
def execQueueReset (r : CmdRef) (qid : QId) (s : State) : Host.Outcome State Fault Refusal :=
  onDev (fun d => adminOpen d r opQueueReset (doReset d r qid false)) s

/-- QUEUE_RESET_DONE (R457, R458). -/
def execQueueResetDone (q : QId) (cid : BitVec 16) (s : State) : Host.Outcome State Fault Refusal :=
  onDev (fun d => waiterCheck d [1, 2] q cid) s

/-- FLUSH: queue 0 to 16,383, or every queue. -/
def doFlush (d : Dev) (r : CmdRef) (scope : Nat) : Dev :=
  if 16384 ≤ scope ∧ scope ≠ 0xFFFF then refuse d r opFlush stField
  else waiterPut d ⟨r, 0, scope, orderOf d r, 0, 0⟩

/-- FLUSH (R455). -/
def execFlush (r : CmdRef) (scope : BitVec 16) (s : State) : Host.Outcome State Fault Refusal :=
  onDev (fun d => adminOpen d r opFlush (doFlush d r scope.toNat)) s

/-- FLUSH_DONE (R455). -/
def execFlushDone (q : QId) (cid : BitVec 16) (s : State) : Host.Outcome State Fault Refusal :=
  onDev (fun d => waiterCheck d [0] q cid) s

/-! ### ABORT (R420 to R423, Tables 13-10, 13-11, 14-3) -/

/-- Whether a fetched command stands before its decisive point. -/
def abortable (d : Dev) (f : Flight) : Bool :=
  let waits := d.qif.swaits.any fun w => sameRef w.ref f.ref
  if f.opcode = opMeasure then
    decide (f.prog = .due) || d.chs.toList.any fun x => match x.meas with
      | some m => sameRef m.ref f.ref && !m.writing && decide (m.status = stSuccess)
      | none => false
  else if f.prog = .waiting then [opFlush, opFwCommit, opImageActivate].contains f.opcode || (match f.cmd with
    | .imageLoad _ _ fin _ _ => fin
    | _ => false)
  else if f.opcode = opFlush then true
  else if f.inStore then !isCommitted d f
  else if f.opcode = opImageActivate then (match d.core.act with
    | some a => decide (a.ref = some f.ref ∧ a.phase = .staging)
    | none => false)
  else waits

/-- End an aborted command; a measurement delivers its completed steps (R310). -/
def abortFlight (d : Dev) (f : Flight) : Dev :=
  if f.opcode = opMeasure then
    match (ixs 128).find? fun c => match d.chs[c].meas with | some m => sameRef m.ref f.ref | none => false with
    | some c => measAbort d c stAborted
    | none => complete d f.ref opMeasure stAborted measNone 0
  else
    let d1 := streamUnstart (dropAct d f.ref) f.ref
    let d2 := { d1 with qif := { d1.qif with
      swaits := d1.qif.swaits.filter fun w => !sameRef w.ref f.ref
      waiters := d1.qif.waiters.filter fun w => !sameRef w.ref f.ref } }
    refuse d2 f.ref f.opcode stAborted

/-- ABORT of a command named by queue and CID: its SUCCESS follows the target's ABORTED completion (R422). (DEDUCED, log entry 46.) -/
def doAbort (d : Dev) (r : CmdRef) (sq : QId) (cid : BitVec 16) : Dev :=
  let t : CmdRef := { r with q := sq, cid := cid }
  match flightOf d t with
  | none => complete d r opAbort stNotFound 0 0
  | some f =>
    if abortable d f then
      let w : Waiter := ⟨r, 3, sq.val, cid.toNat, 0, 0⟩
      abortFlight { d with qif := { d.qif with waiters := d.qif.waiters ++ [w] } } f
    else complete d r opAbort stNotFound 0 0

/-- ABORT (R421). -/
def execAbort (r : CmdRef) (sqid : QId) (tcid : BitVec 16) (s : State) : Host.Outcome State Fault Refusal :=
  onDev (fun d => adminOpen d r opAbort (doAbort d r sqid tcid)) s

/-! ### Staging buffers and non-volatile writes (R444 to R446, R453, R454) -/

/-- Size of a staging buffer. -/
def bufSize : Nat := 4194304

/-- A buffer with a chunk added, none where the chunk is refused. (DEDUCED, log entry 49.) -/
def addChunk (buf : List Byte) (o : Nat) (chunk : List Byte) : Option (List Byte) :=
  let b := if o = 0 then [] else buf
  if o ≠ b.length ∨ bufSize < o + chunk.length then none else some (b ++ chunk)

/-- FW_DOWNLOAD. -/
def doDownload (d : Dev) (r : CmdRef) (o : Nat) (chunk : List Byte) : Dev :=
  match addChunk d.admin.fwBuf o chunk with
  | none => refuse d r opFwDownload stField
  | some b => complete { d with admin := { d.admin with fwBuf := b } } r opFwDownload stSuccess b.length 0

/-- FW_DOWNLOAD (R444). -/
def execFwDownload (r : CmdRef) (offset : Nat) (chunk : List Byte) (s : State) : Host.Outcome State Fault Refusal :=
  onDev (fun d => adminOpen d r opFwDownload (doDownload d r offset chunk)) s

/-- The first of checks 0x01 to 0x04 that a firmware file fails, 0 if none (R445). (DEDUCED, log entry 49.) -/
def fwReason (keys : List (Option (Nat × Nat))) (bs : List Byte) : Nat :=
  if !(chkFormat bs 0x57455453 && decide (leAt bs 0x0E 2 = 0 ∧ leAt bs 0x19 1 = 0)) then 1
  else if !chkLength bs then 2
  else if !chkSignature keys bs then 3
  else if !chkTarget bs 0x80 then 4
  else 0

/-- The slot contents a firmware file gives. -/
def fwSlotOf (bs : List Byte) : FwSlot := ⟨1, slice bs 0x20 8, leAt bs 0x14 4, leAt bs 8 4, leAt bs 0x18 1, 0, 0⟩

/-- Start a non-volatile write for a command, unless the window is closed (R483). -/
def nvCommand (d : Dev) (r : CmdRef) (op : Nat) (j : NvJob) : Dev :=
  if nvOpen d then { d with admin := { d.admin with nv := d.admin.nv ++ [j] } } else tempRefuse d r op

/-- FW_COMMIT with ACTION 0 or 1: it consumes the buffer. (DEDUCED, log entry 49.) -/
def doCommit (d : Dev) (r : CmdRef) (slot : Fin 2) (boot : Bool) : Dev :=
  let bs := d.admin.fwBuf
  let d1 := { d with admin := { d.admin with fwBuf := [] } }
  let reason := fwReason d.admin.keys bs
  if slot.val = d.admin.fwRunning then refuse d1 r opFwCommit stField
  else if reason ≠ 0 then completeWith d1 r opFwCommit stField (failAt reason) reason 0
  else nvCommand d1 r opFwCommit (.fw r slot.val (fwSlotOf bs) boot)

/-- FW_COMMIT (R445). -/
def execFwCommit (r : CmdRef) (slot : Fin 2) (s : State) : Host.Outcome State Fault Refusal :=
  onDev (fun d => adminOpen d r opFwCommit (doCommit d r slot false)) s

/-- FW_COMMIT_BOOT (R445). -/
def execFwCommitBoot (r : CmdRef) (slot : Fin 2) (s : State) : Host.Outcome State Fault Refusal :=
  onDev (fun d => adminOpen d r opFwCommit (doCommit d r slot true)) s

/-- FW_COMMIT with ACTION 2. -/
def doMarkBoot (d : Dev) (r : CmdRef) (slot : Fin 2) : Dev :=
  let d1 := { d with admin := { d.admin with fwBuf := [] } }
  if d.admin.fw[slot].st = 0 then refuse d1 r opFwCommit stField else nvCommand d1 r opFwCommit (.fwBoot r slot.val)

/-- FW_MARK_BOOT (R445). -/
def execFwMarkBoot (r : CmdRef) (slot : Fin 2) (s : State) : Host.Outcome State Fault Refusal :=
  onDev (fun d => adminOpen d r opFwCommit (doMarkBoot d r slot)) s

/-- The image slot that a command names as IMAGE_ACTIVATE. -/
def slotNamed : Instr → Option Nat
  | .imageActivate _ k _ _ => some k.val
  | .imageActivateMark _ k _ _ => some k.val
  | .imageMark _ k => some k.val
  | .imageClearMark _ k => some k.val
  | _ => none

/-- Whether an IMAGE_ACTIVATE that is fetched and not completed names a slot. -/
def slotBusy (d : Dev) (k : Nat) : Bool := (liveFlights d).any fun f => decide (slotNamed f.cmd = some k)

/-- Checks of IMAGE_LOAD with FINAL (R84, R85, R454). (DEDUCED, log entry 49.) -/
def loadCheck (d : Dev) (k : Nat) (bs : List Byte) : Option FailInfo :=
  match checkBytes d.admin.keys d.growth.member bs with
  | .error i => some i
  | .ok _ => if slotBusy d k || (imageOn d && decide (d.core.imageSlot = k)) then some (failAt 0x10) else none

/-- IMAGE_LOAD. -/
def doImageLoad (d : Dev) (r : CmdRef) (slot : Fin 4) (fin : Bool) (o : Nat) (chunk : List Byte) : Dev :=
  match addChunk d.admin.imgBuf o chunk with
  | none => refuse d r opImageLoad stField
  | some b =>
    if !fin then complete { d with admin := { d.admin with imgBuf := b } } r opImageLoad stSuccess b.length 0
    else
      let d1 := { d with admin := { d.admin with imgBuf := [] } }
      match loadCheck d slot.val b with
      | some i => mismatchAt d1 r opImageLoad i
      | none => nvCommand d1 r opImageLoad (.image r slot.val b)

/-- IMAGE_LOAD (R84, R444). -/
def execImageLoad (r : CmdRef) (slot : Fin 4) (final : Bool) (offset : Nat) (chunk : List Byte) (s : State) :
    Host.Outcome State Fault Refusal :=
  onDev (fun d => adminOpen d r opImageLoad (doImageLoad d r slot final offset chunk)) s

/-- IMAGE_ACTIVATE with MARK 2 or 3. (DEDUCED, log entry 48.) -/
def doMark (d : Dev) (r : CmdRef) (cmd : Instr) (slot : Fin 4) (set : Bool) : Dev :=
  let known := (flightOf d r).isSome
  if !d.admin.img[slot].valid then refuse d r opImageActivate stField
  else if !known && !nvOpen d then tempRefuse d r opImageActivate
  else
    let d1 := addFlight d ⟨r, opImageActivate, 0, 0, cmd, .started, 0, 0, 0, false, false, false, false⟩
    { d1 with admin := { d1.admin with nv := d1.admin.nv ++ [.mark (some r) (if set then some slot.val else none)] } }

/-- IMAGE_MARK (R453). -/
def execImageMark (r : CmdRef) (slot : Fin 4) (s : State) : Host.Outcome State Fault Refusal :=
  onDev (fun d => adminOpen d r opImageActivate (doMark d r (.imageMark r slot) slot true)) s

/-- IMAGE_CLEAR_MARK (R453). -/
def execImageClearMark (r : CmdRef) (slot : Fin 4) (s : State) : Host.Outcome State Fault Refusal :=
  onDev (fun d => adminOpen d r opImageActivate (doMark d r (.imageClearMark r slot) slot false)) s

/-- A write to the non-volatile store is whole: its slot or mark takes the new contents and its command completes. A mark without
activation names no boundary, so RESULT0 and RESULT1 are free. (DEDUCED, log entry 48.) -/
def nvApply (d : Dev) : NvJob → Dev
  | .fw r k c boot =>
    let a := d.admin
    complete { d with admin := { a with
      fw := updN a.fw k fun _ => { c with stc := nextStc d }
      fwBoot := if boot then k else a.fwBoot } } r opFwCommit stSuccess 0 0
  | .fwBoot r k => complete { d with admin := { d.admin with fwBoot := k } } r opFwCommit stSuccess 0 0
  | .image r k bs =>
    complete { d with admin := { d.admin with img := updN d.admin.img k fun _ => ⟨true, bs, nextStc d, 0⟩ } } r opImageLoad stSuccess bs.length 0
  | .mark r k =>
    let d1 := { d with admin := { d.admin with autoSlot := k } }
    match r with
    | some q => refuse d1 q opImageActivate stSuccess
    | none => d1
  | .record k old new =>
    if Mem.find d.admin.records k = some old then { d with admin := { d.admin with records := Mem.put d.admin.records k new } } else d
  | .move _ =>
    -- the most worn block can only wear further; by how much of its rated cycles is free
    { d.tick with cob := { d.cob with nvWear := satN 0xFFFF (d.cob.nvWear + Config.freeNat d.free) } }
  | .health => { d with cob := { d.cob with wearSaved := d.chs.toList.map (·.wear) } }

/-! ### Firmware activation (R448 to R452) -/

/-- Commands in the journal: fetched, and their completion not written (R447); cues stand in the cue store. (DEDUCED, log entry 51.) -/
def journalUsed (d : Dev) : Nat := ((liveFlights d).filter fun f => !f.inStore).length + d.qif.outbox.length

/-- Whether an IMAGE_ACTIVATE is fetched and not completed. -/
def activating (d : Dev) : Bool := (liveFlights d).any fun f => decide (f.opcode = opImageActivate)

/-- FW_ACTIVATE: fetching pauses, the staging buffers are emptied, and the stewards restart from the slot. -/
def doFwActivate (d : Dev) (r : CmdRef) (slot : Fin 2) : Dev :=
  if d.admin.fw[slot].st ≠ 1 then refuse d r opFwActivate stField
  else if activating d || d.admin.act.isSome then refuse d r opFwActivate stNotReady
  else
    let d1 := addFlight d ⟨r, opFwActivate, 0, 0, .fwActivate r slot, .started, 0, 0, 0, false, false, false, false⟩
    let n := journalUsed d1
    { d1 with
      qif := { d1.qif with paused := true }
      admin := { d1.admin with
        fwBuf := []
        imgBuf := []
        act := some (r, slot.val, hereStc d)
        replay := ⟨hereStc d, 0, 0, d.admin.fwRunning, slot.val, 0xFF, n, 0, []⟩ } }

/-- FW_ACTIVATE (R448, R452). -/
def execFwActivate (r : CmdRef) (slot : Fin 2) (s : State) : Host.Outcome State Fault Refusal :=
  onDev (fun d => adminOpen d r opFwActivate (doFwActivate d r slot)) s

/-- Microseconds of a pause of `n` Fi periods, counted between boundaries; its place within the first and the last is free. (DEDUCED, log entry 51.) -/
def pauseUs (n k : Nat) : Nat := n * 125 / 12 + Config.freeNat k % 21 - 10

/-- Whether the stewards run the command of an opcode (R447). (DEDUCED, log entry 51.) -/
def stewardOp (op : Nat) : Bool := decide (op < 0x20) || decide (op = opMeasure)

/-- Q0 is ready once the stewards run (R428). -/
def readyQ0 (d : Dev) : Dev :=
  let q := d.qif
  if q.en && !q.cfgErr && !q.rdy && d.admin.booted && !stewardsDown d then { d with qif := { q with rdy := true } } else d

/-- What replay does with one command: 0 its completion is written from the record, 1 it resumes, 2 it starts (Table 14-9). -/
def replayRecs (fs : List Flight) (cs : List Completion) : List (Nat × Nat × Nat × Nat × Nat × Nat) :=
  cs.map (fun c => (c.order, c.q.val, c.cid.toNat, c.opcode, 0, c.status))
    ++ fs.map fun f => (f.order, f.ref.q.val, f.ref.cid.toNat, f.opcode, if f.prog = .waiting then 2 else 1, 0)

/-- Put a record in its place in fetch order. -/
def putRec (x : Nat × Nat × Nat × Nat × Nat × Nat) :
    List (Nat × Nat × Nat × Nat × Nat × Nat) → List (Nat × Nat × Nat × Nat × Nat × Nat)
  | [] => [x]
  | y :: rest => if x.1 ≤ y.1 then x :: y :: rest else y :: putRec x rest

/-- The stewards run again: the journal is replayed in fetch order, fetching resumes and FW_ACTIVATE completes (R450, R451). A
completion that a steward left unwritten at the pause, or brought about in it, is written from the record. -/
def fwResume (d : Dev) (ok : Bool) : Dev :=
  match d.admin.act with
  | none => d
  | some (r, slot, stc) =>
    let own := orderOf d r
    let again (f : Flight) : Bool := stewardOp f.opcode && decide (f.order < own) && hostLive d f.ref
    let answered (c : Completion) : Bool := stewardOp c.opcode && decide (c.order < own)
    let fs := d.qif.flights.filter again
    let cs := d.qif.outbox.filter answered
    let us := pauseUs (hereStc d - stc) d.free
    let recs := ((replayRecs fs cs).foldr putRec []).take 256
    let upd (f : Flight) : Flight :=
      if again f then { f with replay := true, at_ := if f.prog = .due then nextStc d else f.at_ } else f
    let d1 := { d.tick with
      qif := { d.qif with
        paused := false
        flights := d.qif.flights.map upd
        outbox := d.qif.outbox.map fun c => if answered c then { c with replayed := true } else c }
      admin := { d.admin with
        act := none
        fwRunning := if ok then slot else d.admin.fwRunning
        fw := if ok then updN d.admin.fw slot fun s => { s with acts := s.acts + 1 } else d.admin.fw
        replay := { d.admin.replay with
          stcResume := hereStc d, pauseUs := us, outcome := if ok then 0 else 1, recs := recs.map (·.2) } } }
    complete d1 r opFwActivate (if ok then stSuccess else stAborted) (fs.length + cs.length) us

/-! ### The order of the stewards (R431) -/

/-- Whether a started admin command keeps the next from starting. -/
def holdsStewards (d : Dev) (f : Flight) : Bool :=
  hostLive d f.ref && decide (f.opcode < 0x20 ∧ f.prog ≠ .waiting)
    && !([opFlush, opQueueReset, opDeleteQueue, opImageActivate, opAbort, opFwActivate].contains f.opcode)

/-- What an admin command does at its start; IDENTIFY, GET_LOG and SET_FEATURE act at the first Fi boundary after their fetch, or after
the end of the command that kept the stewards busy (R431, R434, R435, R441). (DEDUCED, log entry 51.) -/
def startAdmin (d : Dev) (f : Flight) : Dev :=
  let atBoundary : Dev := d.flight f.ref fun x => { x with prog := .due, at_ := hereStc d }
  let e := d.flight f.ref fun x => { x with prog := .started }
  match f.cmd with
  | .identify _ | .identifyLatency _ | .getLog _ _ _ | .setFeature _ _ _ _ => atBoundary
  | .getFeature r fid => doGetFeature e r fid.toNat
  | .createQueue r c => doCreate e r c
  | .deleteQueue r q => doReset e r q true
  | .queueReset r q => doReset e r q false
  | .flush r sc => doFlush e r sc.toNat
  | .fwDownload r o c => doDownload e r o c
  | .fwCommit r k => doCommit e r k false
  | .fwCommitBoot r k => doCommit e r k true
  | .fwMarkBoot r k => doMarkBoot e r k
  | .imageLoad r k fin o c => doImageLoad e r k fin o c
  | .imageActivate r k w late => doActivate e r f.cmd k w late false
  | .imageActivateMark r k w late => doActivate e r f.cmd k w late true
  | .imageMark r k => doMark e r f.cmd k true
  | .imageClearMark r k => doMark e r f.cmd k false
  | _ => e

/-- Start the admin commands that may start, in fetch order. -/
def adminRun : Nat → Dev → Dev
  | 0, d => d
  | n + 1, d =>
    if stewardsDown d || d.qif.flights.any (holdsStewards d) then d
    else match d.qif.flights.find? fun f => decide (f.prog = .waiting) with
      | some f => adminRun n (startAdmin d f)
      | none => d

/-- Start every admin command that may start now. -/
def adminNext (d : Dev) : Dev := adminRun d.qif.flights.length d

/-- The oldest write completes; none does while the stewards restart (R446, R450). (DEDUCED, log entry 50.) -/
def nvDoneDev (d : Dev) : Dev :=
  match d.admin.nv with
  | [] => d
  | j :: rest => if stewardsDown d then d else adminNext (nvApply { d with admin := { d.admin with nv := rest } } j)

/-- NV_WRITE_COMPLETE (R446). -/
def execNvWriteComplete (s : State) : Host.Outcome State Fault Refusal := onDev nvDoneDev s

/-- FW_RUNNING (R450). -/
def execFwRunning (s : State) : Host.Outcome State Fault Refusal := onDev (fun d => adminNext (readyQ0 (fwResume d true))) s

/-- FW_FALLBACK (R451). -/
def execFwFallback (s : State) : Host.Outcome State Fault Refusal := onDev (fun d => adminNext (readyQ0 (fwResume d false))) s

end Sys2Proof.Machine
end

