-- ==== Sys2Proof/Machine/Entry.lean ====
section
/-!
DEFINITION. Submission entries (R394, R408, R430, Tables 13-3, 13-6 to 13-8, 14-2): the command that 64 bytes and a buffer spell.
-/

namespace Sys2Proof.Machine

/-- A parsed entry: the command and its time. -/
structure Entry where
  op : Nat
  cmd : Instr
  time : When
  late : Bool
  deriving DecidableEq, Repr

/-- Byte `o` of an entry. -/
def eb (e : List Byte) (o : Nat) : Nat := leAt e o 1

/-- Whether every byte from 32 on that no field of the command covers is 0. (DEDUCED, log entry 43.) -/
def gapsZero (e : List Byte) (used : List (Nat × Nat)) : Bool :=
  (List.range 32).all fun i => used.any (fun u => decide (u.1 ≤ 32 + i ∧ 32 + i < u.1 + u.2)) || decide (eb e (32 + i) = 0)

/-- Words of a buffer. -/
def w32s (b : List Byte) (n : Nat) : List W32 := (List.range n).map fun k => BitVec.ofNat 32 (leAt b (4 * k) 4)
def w64s (b : List Byte) (n : Nat) : List W64 := (List.range n).map fun k => BitVec.ofNat 64 (leAt b (8 * k) 8)

/-- TIME and FLAGS (Table 13-3), none where they break it: a frame name needs TIMED, and TIME is 0 without it. (DEDUCED, log entry 43.) -/
def whenOf (e : List Byte) : Option When :=
  let f := eb e 1
  if 8 ≤ f then none
  else if bit f 0 then
    some (if bit f 1 then .frame (leAt e 8 6) (leAt e 14 2) else .stc (leAt e 8 8))
  else if bit f 1 ∨ leAt e 8 8 ≠ 0 then none
  else some .untimed

/-! ### INJECT records (Table 13-8) -/

/-- A generator record. -/
def genOf (b : List Byte) : Option InjectRec := do
  let g ← finOf 8 (eb b 1)
  let k ← [GenKind.sine, .sweep, .multitone, .noise, .mls][eb b 2]?
  if 2 ≤ eb b 3 then none
  else some (.gen { gen := g, kind := k, rept := bit (eb b 3) 0, amp := BitVec.ofNat 24 (leAt b 4 3), delta1 := BitVec.ofNat 32 (leAt b 8 4)
                    delta2 := BitVec.ofNat 32 (leAt b 12 4), len := leAt b 16 4, theta0 := BitVec.ofNat 16 (leAt b 20 2), order := eb b 22
                    seed := BitVec.ofNat 32 (leAt b 24 4), period := leAt b 28 4, tones := eb b 32 })

/-- A tones record; byte 7 of a tone is reserved. -/
def tonesRec (b : List Byte) : Option InjectRec := do
  let g ← finOf 8 (eb b 1)
  let n := eb b 3
  let tone (t : Nat) : Tone :=
    ⟨BitVec.ofNat 16 (leAt b (8 + 8 * t) 2), BitVec.ofNat 24 (leAt b (10 + 8 * t) 3), BitVec.ofNat 16 (leAt b (13 + 8 * t) 2)⟩
  if n < 1 ∨ 7 < n ∨ (List.range n).any (fun t => decide (eb b (15 + 8 * t) ≠ 0)) = true then none else some (.tones g (eb b 2) ((List.range n).map tone))

/-- A tap record. -/
def tapOf (b : List Byte) : Option InjectRec := do
  let t ← finOf 16 (eb b 1)
  let g ← finOf 8 (eb b 2)
  let n ← [TapNode.mixOut, .setpoint, .error][eb b 3]?
  let c ← finOf 128 (eb b 4)
  some (.tap t g n c (BitVec.ofNat 24 (leAt b 8 3)))

/-- A capture record. -/
def capOf (b : List Byte) : Option InjectRec := do
  let u ← finOf 16 (eb b 1)
  let p ← [CapPoint.voltage, .current, .duty, .setpoint, .error][eb b 2]?
  let c ← finOf 128 (eb b 3)
  let s ← [CapStrobe.carrier, .cmpA, .cmpB][eb b 5]?
  if 2 ≤ eb b 4 then none else some (.cap u p c (bit (eb b 4) 0) s (leAt b 8 4) (leAt b 12 4) (leAt b 16 4))

/-- A record of 64 bytes. -/
def recordOf (b : List Byte) : Option InjectRec :=
  match eb b 0 with
  | 1 => genOf b
  | 2 => tonesRec b
  | 3 => tapOf b
  | 4 => capOf b
  | _ => none

/-! ### I/O commands (Table 13-6) -/

/-- The objects of TIMED_SET (Table 13-7). -/
def setObjOf (e : List Byte) : Option SetObj :=
  let ix := leAt e 34 2
  let t := eb e 36
  let v (n : Nat) : Nat := leAt e 40 n
  let used (term n : Nat) : Bool := gapsZero e [(32, 1), (34, 2), (36, term), (40, n)]
  match eb e 32 with
  | 1 => if used 1 2 then (finOf 128 ix).map fun c => .termSource c t (BitVec.ofNat 16 (v 2)) else none
  | 2 => if used 1 3 then (finOf 128 ix).map fun c => .termGain c t (BitVec.ofNat 24 (v 3)) else none
  | 3 => if used 0 3 then (finOf 128 ix).map fun c => .outGain c (BitVec.ofNat 24 (v 3)) else none
  | 4 => if used 0 3 then (finOf 64 ix).map fun g => .groupGain g (BitVec.ofNat 24 (v 3)) else none
  | 5 => if used 0 1 then some (.corner (BitVec.ofNat 16 ix) (BitVec.ofNat 8 (v 1))) else none
  | 6 => if used 0 4 then (finOf 128 ix).map fun c => .delay c (v 3) (eb e 43) else none
  | 7 => if used 0 4 then (finOf 128 ix).map fun c => .limiter c (v 2) (leAt e 42 2) else none
  | 8 => if used 0 4 then (finOf 8 ix).map fun p => .slotMask p (BitVec.ofNat 32 (v 4)) else none
  | _ => none

/-- The objects of GAIN_TRAJECTORY. -/
def gainObjOf (e : List Byte) : Option GainObj :=
  let ix := leAt e 34 2
  match eb e 32 with
  | 2 => (finOf 128 ix).map fun c => .term c (eb e 36)
  | 3 => if eb e 36 = 0 then (finOf 128 ix).map fun c => .out c else none
  | 4 => if eb e 36 = 0 then (finOf 64 ix).map fun g => .group g else none
  | _ => none

/-- The start of a timed STREAM_WRITE; that of a frame whose mark hasn't come lies past every STC until it is resolved. -/
def startOf (w : When) : Option Nat :=
  match w with
  | .untimed => none
  | .stc b => some b
  | .frame _ _ => some (2 ^ 64)

/-- Whether an entry has no buffer. (DEDUCED, log entry 43.) -/
def noBuf (r : CmdRef) : Bool := decide (r.ptr = 0 ∧ r.len = 0)

/-- CHANNEL_CONTROL. -/
def controlOf (e : List Byte) (r : CmdRef) : Option Instr :=
  let ix := leAt e 34 2
  match eb e 32 with
  | 1 => (finOf 32 ix).map (.releaseGroup r)
  | 2 => (finOf 32 ix).map (.stopGroup r)
  | 3 => (finOf 128 ix).map (.stopChannel r)
  | 4 => (finOf 128 ix).map (.clearLatch r)
  | _ => none

/-- INJECT. -/
def injectOf (e b : List Byte) (r : CmdRef) : Option Instr :=
  match eb e 32 with
  | 0 =>
    if gapsZero e [(32, 1)] && decide (r.len % 64 = 0 ∧ 64 ≤ r.len ∧ r.len ≤ 8192) then
      let rs := (List.range (r.len / 64)).filterMap fun k => recordOf (slice b (64 * k) 64)
      if rs.length = r.len / 64 ∧ armFieldOk rs = true then some (.injectArm r rs) else none
    else none
  | 1 =>
    if gapsZero e [(32, 1), (34, 1), (36, 2), (38, 2)] && noBuf r then
      some (.injectStop r (BitVec.ofNat 8 (eb e 34)) (BitVec.ofNat 16 (leAt e 36 2)) (BitVec.ofNat 16 (leAt e 38 2)))
    else none
  | _ => none

/-- An I/O command, none where a field breaks Table 13-6 or a rule that needs no image. (DEDUCED, log entry 29.) -/
def ioOf (e b : List Byte) (r : CmdRef) (w : When) : Option Instr :=
  let c := finOf 128 (eb e 32)
  let untimed := decide (w = .untimed)
  match eb e 0 with
  | 0x20 =>
    if gapsZero e [(32, 2), (34, 1)] && decide (eb e 34 < 2 ∧ 4 ≤ r.len ∧ r.len ≤ 65536) then
      (finOf 128 (leAt e 32 2)).map fun h => .streamWrite r h (bit (eb e 34) 0) (w32s b (r.len / 4)) (startOf w)
    else none
  | 0x21 =>
    if untimed && gapsZero e [(32, 1), (36, 4)] && decide (r.len % 8 = 0 ∧ 8 ≤ r.len) then
      (finOf 16 (eb e 32)).map fun u => .captureRead r u (leAt e 36 4)
    else none
  | 0x22 =>
    let k := eb e 33
    if gapsZero e [(32, 1), (33, 1), (34, if k = 0 then 1 else 0)] && decide (k < 2 ∧ r.len = if k = 0 then 96 else 64)
        && tableWordsOk (decide (k = 1)) ((w64s b (if k = 0 then 12 else 8)).map (·.toNat)) then
      c.bind fun c => (finOf 8 (eb e 34)).map fun q => .tableWrite r c (decide (k = 1)) q (w64s b (if k = 0 then 12 else 8))
    else none
  | 0x23 =>
    let k := eb e 33
    if untimed && gapsZero e [(32, 1), (33, 1), (34, if k = 0 then 1 else 0)] && decide (r.len = if k = 1 then 64 else 96) then
      c.bind fun c => (finOf 3 k).bind fun k => (finOf 8 (eb e 34)).map fun q => .tableRead r c k q
    else none
  | 0x24 => if noBuf r then (setObjOf e).bind fun o => if setFieldOk o then some (.timedSet r o) else none else none
  | 0x25 =>
    if noBuf r && gapsZero e [(32, 1), (34, 2), (36, 1), (37, 1), (40, 3), (44, 4)]
        && decide (eb e 37 < 2 ∧ 1 ≤ leAt e 44 4 ∧ leAt e 44 4 ≤ 1048576) then
      (gainObjOf e).map fun o => .gainTrajectory r o (bit (eb e 37) 0) (BitVec.ofNat 24 (leAt e 40 3)) (leAt e 44 4)
    else none
  | 0x26 =>
    if untimed && gapsZero e [(32, 1), (33, 1)] && stepsOk (eb e 33) && decide (1152 ≤ r.len) then
      c.map fun c => .measureLoad r c (BitVec.ofNat 8 (eb e 33))
    else none
  | 0x27 => injectOf e b r
  | 0x28 => if noBuf r && gapsZero e [(32, 1), (34, 2)] then controlOf e r else none
  | 0x29 =>
    let o := leAt e 36 4
    let n := leAt e 40 4
    if gapsZero e [(36, 4), (40, 4)] && decide (o % 4 = 0 ∧ o < 0x7F00 ∧ 1 ≤ n ∧ n ≤ 8128 ∧ o + 4 * n ≤ 0x7F00 ∧ 16 + 4 * n ≤ r.len) then
      some (.telemetryRead r o n)
    else none
  | _ => none

/-! ### Admin commands (Table 14-2) -/

/-- An admin command, none where a field breaks Table 14-2. (DEDUCED, log entry 29.) -/
def adminOf (e b : List Byte) (r : CmdRef) (w : When) (late : Bool) : Option Instr :=
  let q := finOf 16384 (leAt e 32 2)
  let s4 := finOf 4 (eb e 32)
  let s2 := finOf 2 (eb e 32)
  let v := leAt e 40 8
  let timed := decide (w ≠ .untimed)
  if timed && decide (eb e 0 ≠ 0x0D) then none
  else match eb e 0 with
  | 0x01 =>
    if gapsZero e [(32, 1)] then (match eb e 32 with | 0 => some (.identify r) | 1 => some (.identifyLatency r) | _ => none) else none
  | 0x02 =>
    if gapsZero e [(32, 1), (36, 4)] && decide (leAt e 36 4 % 4 = 0 ∧ 1 ≤ eb e 32 ∧ eb e 32 ≤ 9) then some (.getLog r (BitVec.ofNat 8 (eb e 32)) (leAt e 36 4)) else none
  | 0x03 => if gapsZero e [(32, 1)] then some (.getFeature r (BitVec.ofNat 8 (eb e 32))) else none
  | 0x04 =>
    if gapsZero e [(32, 1), (40, 8)] && featureOk (eb e 32) v (b.take r.len) then
      some (.setFeature r (BitVec.ofNat 8 (eb e 32)) (BitVec.ofNat 64 v) (b.take r.len))
    else none
  | 0x05 =>
    if noBuf r && gapsZero e [(32, 2), (34, 1), (35, 1), (36, 2), (38, 2), (40, 2), (48, 8), (56, 8)] && decide (eb e 35 < 2) then
      q.bind fun q => (finOf 4 (eb e 34)).map fun k =>
        .createQueue r ⟨q, k, bit (eb e 35) 0, leAt e 36 2, leAt e 38 2, leAt e 40 2, BitVec.ofNat 64 (leAt e 48 8), BitVec.ofNat 64 (leAt e 56 8)⟩
    else none
  | 0x06 => if noBuf r && gapsZero e [(32, 2)] then q.map (.deleteQueue r) else none
  | 0x07 => if noBuf r && gapsZero e [(32, 2), (34, 2)] then q.map fun q => .abort r q (BitVec.ofNat 16 (leAt e 34 2)) else none
  | 0x08 => if noBuf r && gapsZero e [(32, 2)] then some (.flush r (BitVec.ofNat 16 (leAt e 32 2))) else none
  | 0x09 => if gapsZero e [(36, 4)] then some (.fwDownload r (leAt e 36 4) (b.take r.len)) else none
  | 0x0A =>
    if noBuf r && gapsZero e [(32, 1), (33, 1)] then
      s2.bind fun k => match eb e 33 with
        | 0 => some (.fwCommit r k)
        | 1 => some (.fwCommitBoot r k)
        | 2 => some (.fwMarkBoot r k)
        | _ => none
    else none
  | 0x0B => if noBuf r && gapsZero e [(32, 1)] then s2.map (.fwActivate r) else none
  | 0x0C =>
    if gapsZero e [(32, 1), (33, 1), (36, 4)] && decide (eb e 33 < 2) then
      s4.map fun k => .imageLoad r k (bit (eb e 33) 0) (leAt e 36 4) (b.take r.len)
    else none
  | 0x0D =>
    if noBuf r && gapsZero e [(32, 1), (33, 1)] then
      s4.bind fun k => match eb e 33 with
        | 0 => some (.imageActivate r k w late)
        | 1 => some (.imageActivateMark r k w late)
        | 2 => some (.imageMark r k)
        | 3 => some (.imageClearMark r k)
        | _ => none
    else none
  | 0x0E => if noBuf r && gapsZero e [(32, 2)] then q.map (.queueReset r) else none
  | _ => none

/-! ### An entry -/

/-- Whether an opcode is known on a queue (R393, R396). -/
def opKnown (q op : Nat) : Bool := decide (0x20 ≤ op ∧ op ≤ 0x29) || (decide (q = 0) && decide (1 ≤ op ∧ op ≤ 0x0E))

/-- The name of an entry's command. -/
def refOf (q : QId) (session : Nat) (e : List Byte) : CmdRef :=
  ⟨q, BitVec.ofNat 16 (leAt e 2 2), BitVec.ofNat 64 (leAt e 16 8), leAt e 24 4, session⟩

/-- Parse an entry whose opcode is known: none where reserved bits, ranges or rules that depend on no image are broken.
(DEDUCED, log entry 29; DEDUCED, log entry 43.) -/
def parseEntry (r : CmdRef) (e b : List Byte) : Option Entry :=
  let fixed := decide (leAt e 4 4 = 0 ∧ leAt e 28 4 = 0 ∧ r.ptr.toNat % 8 = 0 ∧ r.len % 4 = 0 ∧ r.len ≤ 1048576)
  if !fixed then none
  else (whenOf e).bind fun w =>
    let late := bit (eb e 1) 2
    let op := eb e 0
    (if op < 0x20 then adminOf e b r w late else ioOf e b r w).map fun c => ⟨op, c, w, late⟩

end Sys2Proof.Machine
end

