-- ==== Sys2Proof/Machine/Queue.lean ====
section
/-!
DEFINITION. The queue engine (R388 to R428, R442, R513): doorbells, arbitration and fetch, posting of completions with their
interrupts, and the loss of the host (R459, Table 14-12).
-/

namespace Sys2Proof.Machine

/-! ### Doorbells (R388, R390, R391, R427) -/

/-- Count an error of the doorbells or of BAR0 accesses (Table 13-16). -/
def qifErr (d : Dev) (q kind : Nat) : Dev :=
  { d with qif := { d.qif with errQueue := q, errKind := kind, errCount := satN 0xFFFF (d.qif.errCount + 1) } }

/-- A write of a ring index: ignored and counted where the queue is absent or the index lies past its ring. -/
def ringWrite (d : Dev) (q : QId) (v : W32) (depth : Queue → Nat) (f : Nat → Queue → Queue) : Dev :=
  match Mem.find d.qif.queues q.val with
  | none => qifErr d q.val 2
  | some x =>
    let i := bits v.toNat 0 12
    if depth x ≤ i then qifErr d q.val 1 else { d with qif := { d.qif with queues := Mem.put d.qif.queues q.val (f i x) } }

/-- A write to `QIF_SQ_TAIL[q]`. -/
def tailWrite (d : Dev) (q : QId) (v : W32) : Dev := ringWrite d q v (·.sqDepth) fun i x => { x with sqTail := i }

/-- A write to `QIF_CQ_HEAD[q]`. -/
def headWrite (d : Dev) (q : QId) (v : W32) : Dev := ringWrite d q v (·.cqDepth) fun i x => { x with cqHead := i }

/-- SQ_TAIL_WRITE (R390). -/
def execSqTailWrite (q : QId) (value : W32) (s : State) : Host.Outcome State Fault Refusal := onDev (fun d => tailWrite d q value) s

/-- CQ_HEAD_WRITE (R391). -/
def execCqHeadWrite (q : QId) (value : W32) (s : State) : Host.Outcome State Fault Refusal := onDev (fun d => headWrite d q value) s

/-- BAR_ACCESS_ERROR (R388): a write of another size or alignment; an aligned 32-bit write is none. -/
def execBarAccessError (offset size : Nat) (s : State) : Host.Outcome State Fault Refusal :=
  onDev (fun d => if size = 4 ∧ offset % 4 = 0 then d else qifErr d 0 3) s

/-! ### Arbitration (R392, R398, R399, R413, R513) -/

/-- Completions of a queue that are posted and not yet consumed. -/
def cqUsed (q : Queue) : Nat := (q.cqTail + q.cqDepth - q.cqHead) % q.cqDepth

/-- Commands fetched from a queue whose completion isn't posted yet. -/
def owed (d : Dev) (k : Nat) : Nat :=
  ((liveFlights d).filter fun f => decide (f.ref.q.val = k)).length + (d.qif.outbox.filter fun c => decide (c.q.val = k)).length

/-- Whether a queue is eligible and holds an unfetched entry. -/
def eligible (d : Dev) (k : Nat) (q : Queue) : Bool :=
  decide (q.blocked = none ∧ q.deleting = false ∧ q.sqHead ≠ q.sqTail ∧ owed d k + cqUsed q + 2 ≤ q.cqDepth)
    && !d.qif.swaits.any fun w => decide (w.ref.q.val = k)

/-- The queues of a class that may be fetched from, ascending. -/
def ready (d : Dev) (cls : Nat) : List Nat := (d.qif.queues.filter fun p => decide (p.2.cls = cls) && eligible d p.1 p.2).map (·.1)

/-- The queue of a class whose turn it is. -/
def turnOf (d : Dev) (cls : Nat) : Option Nat :=
  let l := ready d cls
  let last := d.qif.lastServed.getD cls 0
  match l.find? fun k => decide (last < k) with
  | some k => some k
  | none => l.head?

/-- Serve a class: its queue, with the turns left in the round. -/
def serve (d : Dev) (cls h m l : Nat) : Option (Nat × Dev) :=
  (turnOf d cls).map fun k =>
    (k, { d with qif := { d.qif with lastServed := d.qif.lastServed.set cls k, turnHigh := h, turnMed := m, turnLow := l } })

/-- The next fetch of a round with the turns given. -/
def roundPick (d : Dev) (h m l : Nat) : Option (Nat × Dev) :=
  if h ≠ 0 ∧ ready d 1 ≠ [] then serve d 1 (h - 1) m l
  else if m ≠ 0 ∧ ready d 2 ≠ [] then serve d 2 0 (m - 1) l
  else if l ≠ 0 ∧ ready d 3 ≠ [] then serve d 3 0 0 (l - 1)
  else none

/-- The queue of the next fetch: an urgent one, else by weighted rounds. -/
def pick (d : Dev) : Option (Nat × Dev) :=
  let q := d.qif
  if !q.en || !q.rdy || q.paused || !q.linkUp || decide (32768 ≤ journalUsed d) then none
  else if ready d 0 ≠ [] then serve d 0 q.turnHigh q.turnMed q.turnLow
  else (roundPick d q.turnHigh q.turnMed q.turnLow).or (roundPick d (q.wHigh + 1) (q.wMed + 1) (q.wLow + 1))

/-! ### Checks at the fetch (R396, R397, R403, R404, R406, R453, R462) -/

/-- Whether a command needs an image in force (R396, R462). -/
def needsImage (op : Nat) : Bool := [0x20, 0x22, 0x23, 0x24, 0x25, 0x26, 0x27, 0x28].contains op

/-- Channels and ports a command names. -/
def namedChs : Instr → List Nat
  | .tableWrite _ c _ _ _ | .tableRead _ c _ _ | .measureLoad _ c _ | .stopChannel _ c | .clearLatch _ c => [c.val]
  | .timedSet _ o => match o with
    | .termSource c _ _ | .termGain c _ _ | .outGain c _ | .delay c _ _ | .limiter c _ _ => [c.val]
    | _ => []
  | .gainTrajectory _ o _ _ _ => match o with
    | .term c _ | .out c => [c.val]
    | .group _ => []
  | .injectArm _ rs => rs.filterMap fun
    | .tap _ _ _ c _ => some c.val
    | .cap _ _ c _ _ _ _ _ => some c.val
    | _ => none
  | _ => []
def namedPorts : Instr → List Nat
  | .timedSet _ (.slotMask p _) => [p.val]
  | _ => []

/-- Channels and ports of the configuration presented (Table 17-2). -/
def memberChs (m : Nat) : Nat := if m = 0x80 then 128 else if m = 0x20 then 32 else if m = 8 then 8 else if m = 2 then 2 else 0
def memberPorts (m : Nat) : Nat := if m = 0x80 then 8 else if m = 0x20 then 4 else if m = 8 then 2 else if m = 2 then 1 else 0

/-- Whether a command names a resource outside the configuration presented (R2). -/
def outside (d : Dev) (c : Instr) : Bool :=
  (namedChs c).any (fun k => decide (memberChs d.growth.member ≤ k)) || (namedPorts c).any fun p => decide (memberPorts d.growth.member ≤ p)

/-- Whether a command writes a mark (R453). -/
def marks : Instr → Bool
  | .imageActivateMark _ _ _ _ | .imageMark _ _ | .imageClearMark _ _ => true
  | _ => false

/-- Whether a command of this name was fetched and its completion is not written yet (R397, R447, Table 13-5). -/
def cidBusy (d : Dev) (r : CmdRef) : Bool :=
  (flightOf d r).isSome || d.qif.outbox.any fun c => decide (c.q = r.q ∧ c.cid = r.cid)

/-- Complete an entry whose CID is in flight already: neither command is affected otherwise (R397). -/
def refuseDup (d : Dev) (r : CmdRef) (op status : Nat) : Dev :=
  let r0 := Config.freeNat d.free % 2 ^ 32
  let r1 := Config.freeNat (d.free + 1) % 2 ^ 32
  let c : Completion := ⟨r.q, r.cid, d.qif.order, none, op, status, r0, r1, false⟩
  errLog { d.ticks 2 with qif := { d.qif with outbox := d.qif.outbox ++ [c], order := d.qif.order + 1 } }
    r.q.val r.cid.toNat op status .none r0 r1

/-- Whether a timed entry is late at its fetch: an IMAGE_ACTIVATE needs 4,800 Fi periods after it (R92, R403). (DEDUCED, log entry 27.) -/
def fetchLate (d : Dev) (x : Entry) : Bool :=
  match x.time with
  | .stc b => decide (b < nextStc d + if x.op = opImageActivate then 4800 else 0)
  | _ => false

/-- The first failure of an entry at its fetch, in the order of R396: what the device is not ready for, then the time, then what lies
outside the configuration presented (R2, R462). -/
def fetchFail (d : Dev) (x : Entry) : Option Nat :=
  if hostClosed d && !([opIdentify, opGetLog].contains x.op) then some stNotReady
  else if needsImage x.op && !imageOn d then some stNotReady
  else if decide (x.time ≠ .untimed) && decide (65536 ≤ cuesUsed d) then some stNotReady
  else if fetchLate d x && !x.late then some stLate
  else if outside d x.cmd then some stField
  else none

/-- A journal entry. -/
def entryOf (r : CmdRef) (x : Entry) (p : Prog) (at_ : Nat) (timed : Bool) : Flight :=
  let (f, o) := match x.time with | .frame f o => (f, o) | _ => (0, 0)
  ⟨r, x.op, 0, 0, x.cmd, p, at_, f, o, x.late, timed, false, false⟩

/-- Place an I/O command: at the next boundary, or in the cue store (R402 to R404). -/
def placeIo (d : Dev) (r : CmdRef) (x : Entry) : Dev :=
  match x.time with
  | .untimed => addFlight d (entryOf r x .due (nextStc d) false)
  | .stc b =>
    if nextStc d < b then addFlight d (entryOf r x .cue b true)
    else addFlight d (entryOf r x .due (nextStc d) (decide (nextStc d = b)))
  | .frame _ _ => addFlight d (entryOf r x .framed 0 true)

/-- A checked admin command as the journal takes it in: it waits for the stewards, and a late IMAGE_ACTIVATE with LATE_APPLY is
untimed (R92, R404). -/
def adminEntry (d : Dev) (r : CmdRef) (x : Entry) : Flight :=
  if fetchLate d x then { entryOf r x .waiting 0 false with cmd := setTime .untimed x.cmd }
  else { entryOf r x .waiting (match x.time with | .stc b => b | _ => 0) (decide (x.time ≠ .untimed)) with cmd := setTime x.time x.cmd }

/-- Take in a checked command. A STREAM_WRITE, a CAPTURE_READ, an ABORT and FW_ACTIVATE act at the fetch itself; other admin
commands wait for the stewards. -/
def accept (d : Dev) (r : CmdRef) (x : Entry) : Dev :=
  match x.cmd with
  | .abort _ q cid => doAbort (addFlight d (entryOf r x .started 0 false)) r q cid
  | .fwActivate _ k => doFwActivate (addFlight d (entryOf r x .started 0 false)) r k
  | .captureRead _ u s => doCaptureRead (addFlight d (entryOf r x .started 0 false)) r u s
  | .streamWrite _ h fin ss st =>
    let b := match x.time with | .stc b => some (max b (nextStc d)) | _ => st
    let e := match x.time with | .untimed => addFlight d (entryOf r x .started 0 false) | _ => placeIo d r x
    doStreamWrite e r h.val fin (ss.map fun w => signed 32 w.toNat) b
  | c =>
    if x.op < 0x20 then
      if marks c && !nvOpen d then tempRefuse d r x.op else adminNext (addFlight d (adminEntry d r x))
    else placeIo d r x

/-- Serve a fetched entry. -/
def fetchEntry (d : Dev) (q : QId) (e buf : List Byte) : Dev :=
  let r := refOf q d.qif.session e
  let op := eb e 0
  if !opKnown q.val op then (if cidBusy d r then refuseDup d r op stOpcode else refuse d r op stOpcode)
  else if cidBusy d r then refuseDup d r op stField
  else match parseEntry r e buf with
    | none => refuse d r op stField
    | some x0 =>
      let x := { x0 with time := resolveWhen d x0.time }
      match fetchFail d x with
      | some st => refuse d r op st
      | none => accept d r x

/-- COMMAND_FETCH: the entry the engine reads at the SQ head of the queue whose turn it is. -/
def fetchDev (d : Dev) (e buf : List Byte) : Dev :=
  match pick d with
  | none => d
  | some (k, d1) =>
    match finOf 16384 k with
    | none => d
    | some q =>
      let adv (x : Queue) : Queue := { x with sqHead := (x.sqHead + 1) % x.sqDepth }
      let qs := match Mem.find d1.qif.queues k with | some x => Mem.put d1.qif.queues k (adv x) | none => d1.qif.queues
      fetchEntry { d1 with qif := { d1.qif with queues := qs } } q e buf

/-- COMMAND_FETCH (R398). -/
def execCommandFetch (entry buffer : List Byte) (s : State) : Host.Outcome State Fault Refusal :=
  onDev (fun d => fetchDev d entry buffer) s

/-! ### Completions and interrupts (R391, R392, R395, R402, R407, R424, R426, R442) -/

/-- The 16 bytes of a completion (Table 13-4). -/
def cqeBytes (c : Completion) (q : Queue) : List Byte :=
  le 4 c.r0 ++ le 4 c.r1 ++ le 2 q.sqHead ++ le 2 c.q.val ++ le 2 c.cid.toNat ++ le 2 (b2n q.phase + 2 * c.status + 2 ^ 9 * b2n c.replayed)

/-- Signal a coalesced completion: at once when THRESH completions of its vector are unsignalled. -/
def coalesce (d : Dev) (v : Nat) : Dev :=
  let n := (match d.qif.msix.deferred.find? fun p => decide (p.1 = v) with | some p => p.2 | none => 0) + 1
  let rest := d.qif.msix.deferred.filter fun p => decide (p.1 ≠ v)
  let put (l : List (Nat × Nat)) : Dev := { d with qif := { d.qif with msix := { d.qif.msix with deferred := l } } }
  if d.qif.coalThresh ≤ n then signal (put rest) v else put ((v, n) :: rest)

/-- Signal a posted completion. -/
def cqSignal (d : Dev) (c : Completion) (q : Queue) : Dev :=
  if !q.ien then d
  else if d.qif.coalThresh = 0 ∨ q.cls = 0 ∨ c.status ≠ stSuccess then signal d q.vector
  else coalesce d q.vector

/-- The status that a replayed completion posts enters the replay record (Table 14-9). -/
def noteReplay (a : Admin) (c : Completion) : Admin :=
  if c.replayed then
    let upd (x : Nat × Nat × Nat × Nat × Nat) : Nat × Nat × Nat × Nat × Nat :=
      let (q, cid, op, act, st) := x
      if q = c.q.val ∧ cid = c.cid.toNat then (q, cid, op, act, c.status) else (q, cid, op, act, st)
    { a with replay := { a.replay with recs := a.replay.recs.map upd } }
  else a

/-- Whether a completion can be posted: its queue exists and its CQ has room, and during a firmware activation the queue engine
completed it, since the stewards write theirs at replay (R447, R449, R450). -/
def postable (d : Dev) (c : Completion) : Bool :=
  !(stewardsDown d && stewardOp c.opcode) && match Mem.find d.qif.queues c.q.val with
    | some q => decide (cqUsed q + 2 ≤ q.cqDepth)
    | none => false

/-- Write a completion at the CQ tail; the tail moves on, and the phase inverts with each pass. (DESIGN CHOICE, log entry 8.) -/
def postOne (d : Dev) (c : Completion) (q : Queue) : Dev :=
  let t := (q.cqTail + 1) % q.cqDepth
  let q1 := { q with cqTail := t, phase := if t = 0 then !q.phase else q.phase }
  let open_ (x : Queue) : Queue := if c.q.val = 0 ∧ c.opcode = opCreateQueue ∧ x.blocked = some c.cid then { x with blocked := none } else x
  let qs := (Mem.put d.qif.queues c.q.val q1).map fun p => (p.1, open_ p.2)
  let d1 := { d with
    qif := { d.qif with queues := qs, outbox := d.qif.outbox.erase c }
    admin := noteReplay { d.admin with hostMem := Mem.setBytes d.admin.hostMem (q.cqBase + 16 * q.cqTail) (cqeBytes c q) } c }
  cqSignal d1 c q

/-- COMPLETION_POST: the oldest completion that can be posted. -/
def postDev (d : Dev) : Dev :=
  if !d.qif.linkUp then d
  else match d.qif.outbox.find? (postable d) with
    | none => d
    | some c => match Mem.find d.qif.queues c.q.val with
      | some q => postOne d c q
      | none => d

/-- COMPLETION_POST (R391). -/
def execCompletionPost (s : State) : Host.Outcome State Fault Refusal := onDev postDev s

/-- COALESCE_TIMEOUT (R442). -/
def execCoalesceTimeout (vector : Fin 2048) (s : State) : Host.Outcome State Fault Refusal :=
  onDev (fun d =>
    let x := d.qif.msix
    if x.deferred.any fun p => decide (p.1 = vector.val) then
      signal { d with qif := { d.qif with msix := { x with deferred := x.deferred.filter fun p => decide (p.1 ≠ vector.val) } } } vector.val
    else d) s

/-- Send the messages whose vector is no longer masked. -/
def sendPending (d : Dev) : Dev :=
  let x := d.qif.msix
  if x.funcMasked then d
  else
    let go := x.pendBits.filter fun v => x.unmasked.contains v
    { d with qif := { d.qif with msix := { x with sent := go ++ x.sent, pendBits := x.pendBits.filter fun v => !x.unmasked.contains v } } }

/-- Clear the mask of a vector, or of the function. (PRESUMED, log entry 9.) -/
def unmaskDev (d : Dev) (v : Option Nat) : Dev :=
  let x := d.qif.msix
  let y := match v with
    | some k => { x with unmasked := if x.unmasked.contains k then x.unmasked else k :: x.unmasked }
    | none => { x with funcMasked := false }
  sendPending { d with qif := { d.qif with msix := y } }

/-- MSIX_UNMASK (R426). -/
def execMsixUnmask (vector : Option (Fin 2048)) (s : State) : Host.Outcome State Fault Refusal :=
  onDev (fun d => unmaskDev d (vector.map (·.val))) s

/-- A write to the MSI-X table: word 3 of an entry holds its mask bit. (DEDUCED, log entry 54.) -/
def msixWrite (d : Dev) (o v : Nat) : Dev :=
  let x := d.qif.msix
  let k := o / 16
  if o % 16 = 12 then
    if bit v 0 then { d with qif := { d.qif with msix := { x with unmasked := x.unmasked.filter (· != k) } } } else unmaskDev d (some k)
  else { d with qif := { d.qif with msix := { x with table := Mem.set x.table 0 (o / 4) v } } }

/-! ### Loss of the host (R459, R460, Table 14-12) -/

/-- Whether the activation in progress goes on without the host: committed, past staging, or in its welt period. -/
def actStands (d : Dev) : Bool :=
  match d.core.act with
  | none => false
  | some a => match a.ref with
    | none => true
    | some r => match a.phase with
      | .welt => true
      | p => match flightOf d r with
        | some f => if f.timed then isCommitted d f else decide (p = .stagedWait)
        | none => decide (p = .stagedWait)

/-- Whether a command's work outlives its host. -/
def stands (d : Dev) (f : Flight) : Bool :=
  if f.opcode = opImageActivate then actStands d && (match d.core.act with | some a => decide (a.ref = some f.ref) | none => false)
  else decide (f.opcode ≠ opMeasure) && (decide (f.prog = .due) || isCommitted d f)

/-- The queues, the journal and everything only the host waits for are gone; committed work goes on and completes nowhere. (DEDUCED, log entry 47.) -/
def hostLoss (d : Dev) : Dev :=
  let goes := d.qif.flights.filter fun f => !stands d f
  let d1 := if actStands d then d else { d with core := { d.core with act := none } }
  let d2 := goes.foldl (fun e f => if f.timed then streamUnstart e f.ref else e) d1
  let q := d2.qif
  let d3 := { d2 with
    qif := { q with
      en := false
      rdy := false
      queues := []
      flights := d.qif.flights.filter (stands d)
      outbox := []
      waiters := []
      swaits := []
      session := q.session + 1
      gone := []
      msix := { q.msix with deferred := [] } }
    relWait := []
    admin := { d2.admin with fwBuf := [], imgBuf := [] }
    mix := { d2.mix with muteDue := d2.mix.muteDue || d2.admin.policyMute } }
  forCh (ixs 128) (fun e c => measAbort e c stAborted) d3

/-- The host domain at its reset values; what survives a host reset is kept: the link's width and speed, and the work that stands. A
firmware activation goes on with PAUSED at its reset value (Tables 13-13, 14-12). (DEDUCED, log entry 47.) -/
def qifReset (q : Qif) : Qif :=
  { Qif.reset with
    width := q.width
    speed := q.speed
    flights := q.flights
    order := q.order
    session := q.session
    cfgReady := q.cfgReady
    linkUp := q.linkUp
    msix := { Qif.reset.msix with sent := q.msix.sent } }

/-- PERST# (R459, R535): a host reset; the link and configuration space are reset with it. (DEDUCED, log entry 47.) -/
def perstDev (d : Dev) : Dev :=
  let e := hostLoss d
  { e with qif := { qifReset e.qif with linkUp := false, cfgReady := false } }

def execPerst (s : State) : Host.Outcome State Fault Refusal := onDev perstDev s

/-- FUNCTION_LEVEL_RESET (R459, R535). -/
def flrDev (d : Dev) : Dev := let e := hostLoss d; { e with qif := qifReset e.qif }

def execFunctionLevelReset (s : State) : Host.Outcome State Fault Refusal := onDev flrDev s

/-- LINK_DOWN (R459). -/
def linkDownDev (d : Dev) : Dev := let e := hostLoss d; { e with qif := { e.qif with linkUp := false } }

def execLinkDown (s : State) : Host.Outcome State Fault Refusal := onDev linkDownDev s

/-- CONFIG_READY (R527). (DESIGN CHOICE, log entry 72.) -/
def execConfigReady (s : State) : Host.Outcome State Fault Refusal := onDev (fun d => { d with qif := { d.qif with cfgReady := true } }) s

/-- The options of Table 13-1: ×1, ×2 or ×4 at one of four speeds (Table 13-13). -/
def linkOk (width : BitVec 3) (speed : BitVec 4) : Bool :=
  decide ((width = 1 ∨ width = 2 ∨ width = 4) ∧ 1 ≤ speed.toNat ∧ speed.toNat ≤ 4)

/-- LINK_TRAINING (R386, R387): the link trains, or retrains to what its working lanes allow; a width or speed that Table 13-1 doesn't support changes nothing. (DESIGN CHOICE, log entry 72.) -/
def execLinkTraining (width : BitVec 3) (speed : BitVec 4) (s : State) : Host.Outcome State Fault Refusal :=
  onDev (fun d => if linkOk width speed then { d with qif := { d.qif with width := width, speed := speed, linkUp := true } } else d) s

/-! ### Enable (R428) -/

/-- Q0 as its registers define it: urgent, vector 0. -/
def queue0 (q : Qif) : Queue :=
  newQueue 0 q.aqIen 0 q.aqSq q.aqCq (q.asqLo.toNat + 2 ^ 32 * q.asqHi.toNat) (q.acqLo.toNat + 2 ^ 32 * q.acqHi.toNat) none

/-- Whether the admin configuration is valid. -/
def aqOk (q : Qif) : Bool :=
  ringOk q.aqSq (q.asqLo.toNat + 2 ^ 32 * q.asqHi.toNat) && ringOk q.aqCq (q.acqLo.toNat + 2 ^ 32 * q.acqHi.toNat)

/-- A write of 1 to `QIF_CTRL.EN`: with a valid admin configuration Q0 is created at once, and RDY follows once the stewards have
booted. -/
def enableDev (d : Dev) : Dev :=
  let q := d.qif
  if q.en then d
  else if aqOk q then readyQ0 { d with qif := { q with en := true, cfgErr := false, queues := Mem.put q.queues 0 (queue0 q) } }
  else { d with qif := { q with en := true, cfgErr := true } }

/-- QIF_ENABLE (R428). -/
def execQifEnable (s : State) : Host.Outcome State Fault Refusal := onDev enableDev s

/-- A write of 0 to `QIF_CTRL.EN`: while it reads 1, a loss of the host. -/
def disableDev (d : Dev) : Dev := if d.qif.en then hostLoss d else d

/-- QIF_DISABLE (R428, R459). -/
def execQifDisable (s : State) : Host.Outcome State Fault Refusal := onDev disableDev s

end Sys2Proof.Machine
end

