-- ==== Sys2Proof/Machine/Boundary.lean ====
section
/-!
DEFINITION. The Fi boundary (R58): the period that ends, the events that the boundary itself brings, and after the last of them the
commands due there in fetch order (R401 to R407); cues taking effect, the boundaries B and B + 1 of an image activation (R92 to R96),
and the carrier boundary, which ends what an Fi boundary brings.
-/

namespace Sys2Proof.Machine

/-! ### Commands due -/

/-- Run a host command at the present boundary. (DEDUCED, log entry 44.) -/
def runCmd (d : Dev) (c : Instr) : Dev :=
  match c with
  | .releaseGroup r g => doRelease d r g
  | .stopGroup r g => doStopGroup d r g
  | .stopChannel r c => doStopChannel d r c
  | .clearLatch r c => doClearLatch d r c
  | .tableWrite r c k q ws => doTableWrite d r c k q ws
  | .tableRead r c k q => doTableRead d r c k q
  | .timedSet r o => doTimedSet d r o
  | .gainTrajectory r o log g1 n => doTraj d r o log g1.toInt n
  | .injectArm r rs => doInjectArm d r rs
  | .injectStop r g t u => doInjectStop d r g t u
  | .telemetryRead r o n => doTelemetry d r o n
  | .measureLoad r c st => doMeasure d r c st.toNat
  | .identify r => doIdentify d r (identData d)
  | .identifyLatency r => doIdentify d r (pathPage d (pathRecs d))
  | .getLog r p o => doGetLog d r p o
  | .setFeature r fid v b => doSetFeature d r fid.toNat v.toNat b
  | _ => d

/-- Progress of a command once it has run at its boundary and not completed. -/
def ranProg (c : Instr) : Prog :=
  match c with
  | .gainTrajectory _ _ _ _ _ => .traj
  | .clearLatch _ _ => .checking
  | _ => .started

/-- A timed STREAM_WRITE completes at the boundary where its samples start (R412); a stream that the image no longer enables is no
object (R99). (DEDUCED, log entry 45.) -/
def startWrite (d : Dev) (f : Flight) (h : HStream) : Dev :=
  completeAt d f.ref opStream (if (look d.mix.streams h.val .reset).en then stSuccess else stField) d.tb.stc

/-- Run one due entry of the journal, and after an admin command those that it let start; while the stewards restart, a cue that takes
effect is counted (Table 14-9). -/
def runFlight (d : Dev) (f : Flight) : Dev :=
  let cue := decide (f.prog = .cue ∨ f.prog = .committed)
  let d1 := if cue && stewardsDown d then
      { d with admin := { d.admin with replay := { d.admin.replay with cuesDue := d.admin.replay.cuesDue + 1 } } } else d
  match d1.relWait.find? fun w => sameRef w.1 f.ref, f.cmd with
  | some w, _ => retryRelease d1 w
  | none, .streamWrite _ h _ _ _ => startWrite d1 f h
  | none, c =>
    let e := runCmd (d1.flight f.ref fun x => { x with prog := ranProg c }) c
    if f.opcode < 0x20 then adminNext e else e

/-- Whether an entry is due at the present boundary: IMAGE_ACTIVATE comes with WELT_OPEN, a STREAM_WRITE needs its samples, the
stewards' commands wait while they restart, and a release that waits for a safe stop needs its group out of it. (DEDUCED, log entry 45.) -/
def dueNow (d : Dev) (f : Flight) : Bool :=
  (decide (f.prog = .due ∨ f.prog = .cue ∨ f.prog = .committed) && decide (f.at_ ≤ d.tb.stc ∧ f.opcode ≠ opImageActivate)
    && (decide (f.opcode ≠ opStream) || f.written) && !(stewardsDown d && decide (f.opcode < 0x20)))
  || d.relWait.any fun w => sameRef w.1 f.ref && releaseReady d w

/-- Whether an entry is a cue that takes effect with CUE_EFFECT (R407). -/
def isCue (f : Flight) : Bool := decide (f.prog = .cue ∨ f.prog = .committed)

/-- The entries due, in fetch order. -/
def dueList (d : Dev) : List Flight := d.qif.flights.filter (dueNow d)

/-- Run the due entries one after another in fetch order, up to the first cue and at most `n`. An entry may become due as an earlier one
ends: an admin command that waited for the stewards acts at this boundary too. (DEDUCED, log entry 51.) -/
def runDueN : Nat → Dev → Dev
  | 0, d => d
  | n + 1, d =>
    match dueList d with
    | [] => d
    | f :: _ => if isCue f then d else runDueN n (runFlight d f)

/-- Run the due commands up to the first cue. -/
def runDue (d : Dev) : Dev := runDueN (2 * d.qif.flights.length) d

/-- Releases that wait and that no entry of the journal stands for. -/
def looseReleases (d : Dev) : Dev :=
  (d.relWait.filter fun w => (flightOf d w.1).isNone && releaseReady d w).foldl retryRelease d

/-- The commands of the present boundary, if they have not run yet: they come after every event that the boundary brings (R401). -/
def runCmds (d : Dev) : Dev :=
  if d.tb.cmdsDue then runDue (looseReleases { d with tb := { d.tb with cmdsDue := false, todo := [] } }) else d

/-- Run the commands of the boundary once the last of its events has come. -/
def settle (d : Dev) : Dev := if d.tb.todo = [] then runCmds d else d

/-- An event of the present boundary has come. -/
def boundaryDone (e : BdEvent) (d : Dev) : Dev :=
  if d.tb.cmdsDue then settle { d with tb := { d.tb with todo := d.tb.todo.erase e } } else d

/-- The first due cue takes effect, with the commands that follow it up to the next one, after every event of the boundary. (DEDUCED,
log entry 5.) -/
def cueDev (d : Dev) : Dev :=
  match dueList d with
  | [] => d
  | f :: _ => if isCue f && !d.tb.cmdsDue then runDue (runFlight d f) else d

/-- CUE_EFFECT (R407). -/
def execCueEffect (s : State) : Host.Outcome State Fault Refusal := onDev cueDev s

/-- Complete the writes whose samples start at this boundary and that no entry of the journal stands for. -/
def startsHere (d : Dev) : Dev :=
  d.mix.streams.toList.foldl (fun e s =>
    (s.starts.filter fun x => decide (x.at_ = d.tb.stc) && (flightOf d x.ref).isNone).foldl
      (fun e x => completeAt e x.ref opStream (if s.en then stSuccess else stField) x.at_) e) d

/-! ### The period that ends -/

/-- Whether a configured channel was unavailable in the period that ends (R508, R515). -/
def unavailableCh (d : Dev) (c : Ch) : Bool :=
  let x := d.chs[c]
  let t := d.core.tiles[etOf c]
  x.conf && (t.loading.isSome || t.holdSlices || decide (x.prot.oos ≠ 0) || x.lost)

/-- The availability count of the period that ends (R515). -/
def countUnavailable (d : Dev) : Dev :=
  { d with cob := { d.cob with unavailable := d.cob.unavailable + ((ixs 128).filter (unavailableCh d)).length } }

/-- The means of the period that ends, in acoustic polarity for the inverted channel of a polarity pair (R152, R266). (DESIGN CHOICE, log entry 6.) -/
def takeMean (d : Dev) (means : List FiMean) (c : Ch) : Dev :=
  let m := means.getD c.val ⟨0, 0⟩
  let neg := negates d c && !bridgedB d c
  d.sns c fun y => { y with
    meanVPrev := y.meanV
    meanV := if neg then -m.v else m.v
    meanI := if neg then -m.i else m.i }

/-- The output power of the period that ends: the even half reports for a bridged pair, and a report covers the part of the
outer period in which the channel is released (R275, R465, Table 15-6). (DEDUCED, log entry 69.) -/
def addPower (d : Dev) (c : Ch) : Dev :=
  let y := d.chs[c].sense
  let v := if bridgedB d c then (if c.val % 2 = 1 then 0 else y.meanV - d.chs[oddOf c].sense.meanV) else y.meanV
  d.sns c fun z => { z with powSum := if d.chs[c].prot.released ∧ d.chs[c].prot.drive ≠ .safeStop then z.powSum + v * y.meanI else z.powSum }

/-- `PWM_OUTER_STAT` of a lane after its Fi work (R262, R284); its UQ1.7 fields take one of the two neighbours. (DESIGN CHOICE, log entry 35.) -/
def outerNow (d : Dev) (p : LTile × Stitch × Ch) : Dev :=
  let (t, s, c) := p
  let l := c.val % 4
  let u := d.core.tiles[t]
  let o (j : Nat) : Rat := (u.rd (s.dst + j) l).rat
  let q (r : Rat) (k : Nat) : Nat := fieldSat 8 (ratGrid (r * 128) (Config.freeBit (d.free + k)))
  if u.lateFi || !bit (u.rd (s.dst + 23) l).num 0 then d
  else
    let gg := (slowInputs d c u s).2
    (d.ticks 3).stat c fun y => { y with
      gExc := q (o 7) 0
      gTh := q (o 8) 1
      gGrant := q gg 2
      bind := d.chs[c].sense.reportBind }

/-- Whether a failover lost a tile's Fi work of the period that ends (R509, R510). (DEDUCED, log entry 30.) -/
def lostWork (t : TileState) : Bool := t.loading.isSome || t.holdSlices

/-- Late Fi work (R89): the flags move on, and a late tile's transfers don't arrive (R34). Work that a failover lost counts as late;
an engine tile that still loads has lost the work of the period that opens as well. (DEDUCED, log entry 30.) -/
def shiftTiles (d : Dev) : Dev :=
  let ts := tab d.core.tiles fun k t => { t with
    lateFi := t.lateNext, lateNext := t.loading.isSome && decide (k.val < 16), skipFi := t.skipNext, skipNext := false, holdSlices := false
    before := none }
  let late (n : Nat) : Bool := (look ts n (TileState.reset 0)).lateFi
  let lost (p : Nat) : Bool := anyB d.core.tiles fun _ t => lostWork t && !t.failed && decide (t.phys = p)
  let slack := tab d.core.slack fun p r => if lost p.val then { r with lateFi := satN 0xFFFFFFFF (r.lateFi + 1) } else r
  { d with core := { d.core with tiles := ts, slack := slack, xferNow := d.core.xferNext.filter fun x => !late x.src, xferNext := [] } }

/-- Counters of rails and precharge that a boundary moves on (R156, R161, R312, R531). -/
def railsFi (d : Dev) : Dev :=
  let r := d.rails
  let on := decide (1 ≤ r.preState ∧ r.preState ≤ 3)
  { d with
    rails := { r with
      okLast := r.okSinceFi
      okSinceFi := true
      clampFiP := r.belowP && r.clampP
      clampFiN := r.belowN && r.clampN
      belowP := true
      belowN := true
      preFi := if on then r.preFi + 1 else 0
      stage3Fi := if on && decide (r.stageP = 3 ∧ r.stageN = 3) then r.stage3Fi + 1 else 0
      sinceDone := if r.preState = 4 then min 9600 (r.sinceDone + 1) else 0 }
    power := tab d.power fun _ p => { p with fiMinLast := p.fiMin.getD 0, fiMin := none } }

/-- The host-absent policy takes effect (R460). -/
def muteFi (d : Dev) : Dev :=
  if d.mix.muteDue then
    ({ d with mix := { d.mix with muted := true, muteDue := false } }).streamAll fun s => { s with fifo := [], running := false, starts := [] }
  else d

/-- Ramps, short checks and measurements count the period that ends (R163, R194, R291 to R297). -/
def countFi (d : Dev) : Dev :=
  let d1 := { d with groupRamp := tab d.groupRamp fun _ o => o.map (· + 1) }
  let d2 := d1.chAll fun _ x => { x with prot := { x.prot with check := x.prot.check.map fun k => { k with fi := k.fi + 1 } } }
  forCh ((ixs 128).filter fun c => d2.chs[c].meas.isSome) measFi d2

/-! ### The boundary -/

/-- STC at a boundary (R58). -/
def tickStc (d : Dev) : Dev :=
  let t := d.tb
  { d with tb := { t with stc := if t.started then t.stc + 1 else 0, started := true, m := 0 }, mix := { d.mix with gBefore := [] } }

/-- What a boundary brings before the commands due there. -/
def boundaryWork (d0 : Dev) (means : List FiMean) (sapBits : List (List Nat)) : Dev :=
  let d := { d0 with ports := { d0.ports with bitsIn := sapBits } }
  let d1 := if d.tb.started then countUnavailable (mixPeriod d) else d
  let d2 := tickStc (shiftTiles d1)
  let d3 := forCh (ixs 128) addPower (forCh (ixs 128) (fun e c => takeMean e means c) d2)
  let d4 := (excurs d3).foldl outerNow (shadowsCurrent d3 (switchDue d3))
  countFi (muteFi (railsFi (eviCount d4 6 0)))

/-- Whether a boundary of an image activation falls on the present Fi boundary (R92, R96). -/
def weltDue (d : Dev) : Bool := switchDue d || d.core.act.any (actDue d)

/-- The Re windows that close and open at the present boundary (R269): one closes 12,000 Fi periods after it opened, and the next
opens there. -/
def windowEvents (d : Dev) : List BdEvent :=
  (excurs d).flatMap fun p =>
    let c := p.2.2
    if d.chs[c].sense.winCnt = some 2400 then
      if bit ((d.core.tiles[p.1].rd (p.2.1.dst + 23) (c.val % 4)).num) 2 then [.windowClose c.val, .windowOpen c.val] else [.windowOpen c.val]
    else []

/-- The events that the present Fi boundary brings, each given by a row of its own. (DEDUCED, log entry 5.) -/
def boundaryEvents (d : Dev) : List BdEvent :=
  (if weltDue d then [.welt] else []) ++ (if d.tb.stc % 32 = 0 then [.outer, .grant] else []) ++ windowEvents d
    ++ (if d.tb.snapPend then [.snap] else []) ++ (if wanted d.tb ≠ 0 ∧ d.tb.stepping = false then [.select] else [])

/-- FI_BOUNDARY: without a running timebase there is none; the first needs FREERUN or LOCKED (R58), and every one after it comes with
the Nth carrier boundary (R41). Its commands run after the events that it still brings (R401). (DEDUCED, log entry 5.) -/
def fiDev (d : Dev) (means : List FiMean) (sapBits : List (List Nat)) : Dev :=
  if d.guard.audioReset || !d.tb.running || (!d.tb.started && decide (d.tb.state = .holdover)) || (d.tb.started && decide (d.tb.m < d.tb.n)) then d
  else
    let e := boundaryWork d means sapBits
    settle (startsHere { e with tb := { e.tb with todo := boundaryEvents e, cmdsDue := true } })

/-- FI_BOUNDARY (R58). -/
def execFiBoundary (means : List FiMean) (sapBits : List (List Nat)) (s : State) : Host.Outcome State Fault Refusal :=
  onDev (fun d => fiDev d means sapBits) s

/-! ### Its events -/

/-- WELT_OPEN (R94): boundary B of an activation; without an image in force the new one takes over here. -/
def execWeltOpen (s : State) : Host.Outcome State Fault Refusal := onDev (fun d => boundaryDone .welt (weltOpenDev d)) s

/-- WELT_SWITCH (R96): boundary B + 1. -/
def execWeltSwitch (s : State) : Host.Outcome State Fault Refusal := onDev (fun d => boundaryDone .welt (weltSwitchDev d)) s

/-- OUTER_BOUNDARY (R255). -/
def execOuterBoundary (s : State) : Host.Outcome State Fault Refusal := onDev (fun d => boundaryDone .outer (outerDev d)) s

/-- GRANT_CYCLE (R463). -/
def execGrantCycle (s : State) : Host.Outcome State Fault Refusal := onDev (fun d => boundaryDone .grant (grantDev d)) s

/-- RE_WINDOW_OPEN (R269). -/
def execReWindowOpen (c : Ch) (s : State) : Host.Outcome State Fault Refusal :=
  onDev (fun d => boundaryDone (.windowOpen c.val) (windowOpen d c)) s

/-- RE_WINDOW_CLOSE (R270). -/
def execReWindowClose (c : Ch) (s : State) : Host.Outcome State Fault Refusal :=
  onDev (fun d => boundaryDone (.windowClose c.val) (windowClose d c)) s

/-- SNAP_CAPTURE (R67). -/
def execSnapCapture (s : State) : Host.Outcome State Fault Refusal := onDev (fun d => boundaryDone .snap (snapCaptureDev d)) s

/-- REF_SELECT (R48). -/
def execRefSelect (s : State) : Host.Outcome State Fault Refusal := onDev (fun d => boundaryDone .select (refSelectDev d)) s

/-! ### The carrier boundary -/

/-- CARRIER_BOUNDARY (R117): the events of an Fi boundary that have not come by now don't hold its commands any longer. (DEDUCED, log
entry 5.) -/
def execCarrierBoundary (samples : List Sample) (rails : List RailSample) (s : State) : Host.Outcome State Fault Refusal :=
  onDev (fun d => carrierDev (if d.tb.running then runCmds d else d) samples rails) s

end Sys2Proof.Machine
end

