-- ==== Sys2Proof/Machine/Code.lean ====
section
/-!
DEFINITION. The code of memories, fabric and non-volatile store (R490 to R493): the Reed-Solomon code RS(35,32) over GF(2^8) with field
polynomial 0x11D and generator roots α^0, α^1 and α^2, and the groups of eight interleaved code words of the non-volatile store.
-/

namespace Sys2Proof.Machine

/-! ### The field -/

/-- Twice an element: α is 0x02. -/
def gfDouble (a : Nat) : Nat := if a < 128 then 2 * a else (2 * a) ^^^ 0x11D

/-- The product of `a` with the low `n` bits of `b`. -/
def gfMulBits : Nat → Nat → Nat → Nat
  | 0, _, _ => 0
  | n + 1, a, b => (if b % 2 = 1 then a else 0) ^^^ gfMulBits n (gfDouble a) (b / 2)

/-- Product of two elements. -/
def gfMul (a b : Nat) : Nat := gfMulBits 8 a b

/-- A power of α. -/
def gfPow : Nat → Nat
  | 0 => 1
  | k + 1 => gfDouble (gfPow k)

/-! ### Code words (R490) -/

/-- One step of the division by the generator polynomial x³ + 7x² + 14x + 8. -/
def rsStep (r : Nat × Nat × Nat) (b : Byte) : Nat × Nat × Nat :=
  let f := b.toNat ^^^ r.1
  (r.2.1 ^^^ gfMul f 7, r.2.2 ^^^ gfMul f 14, gfMul f 8)

/-- The check bytes of 32 data bytes. -/
def checkBytesOf (data : List Byte) : List Byte :=
  let r := data.foldl rsStep (0, 0, 0)
  [r.1, r.2.1, r.2.2].map (BitVec.ofNat 8)

/-- A code word: 32 data bytes, then their 3 check bytes. -/
def codeWord (data : List Byte) : List Byte :=
  let x := (data ++ zeros 32).take 32
  x ++ checkBytesOf x

/-- The value of a received word at α^j. -/
def syndrome (w : List Byte) (j : Nat) : Nat := w.foldl (fun s b => gfMul s (gfPow j) ^^^ b.toNat) 0

/-- What a read of a code word gives: its 32 data bytes and whether a byte was corrected, none where the code detects more than it
corrects. One byte in error at power k of the 35 has syndromes e, e·α^k and e·α^(2k) (R490, R491). -/
def rsRead (w : List Byte) : Option (List Byte × Bool) :=
  let s0 := syndrome w 0
  let s1 := syndrome w 1
  let s2 := syndrome w 2
  if s0 = 0 ∧ s1 = 0 ∧ s2 = 0 then some (w.take 32, false)
  else if s0 = 0 then none
  else match (List.range 35).find? fun k => decide (gfMul s0 (gfPow k) = s1 ∧ gfMul s1 (gfPow k) = s2) with
    | some k => some ((w.modify (34 - k) (· ^^^ BitVec.ofNat 8 s0)).take 32, true)
    | none => none

/-! ### Groups of the non-volatile store (R492) -/

/-- The 280 bytes of a group: eight code words, interleaved symbol by symbol. -/
def nvGroup (data : List Byte) : List Byte :=
  let ws := (List.range 8).map fun k => codeWord ((data.drop (32 * k)).take 32)
  (List.range 280).map fun j => (ws.getD (j % 8) []).getD (j / 8) 0

/-- Code word `k` of a group. -/
def nvWord (g : List Byte) (k : Nat) : List Byte := (List.range 35).map fun s => g.getD (8 * s + k) 0

/-- What a read of a group gives: its 256 data bytes and how many code words were corrected, none where one of them is uncorrectable. -/
def nvRead (g : List Byte) : Option (List Byte × Nat) :=
  (List.range 8).foldl (fun acc k =>
    acc.bind fun a => (rsRead (nvWord g k)).map fun r => (a.1 ++ r.1, a.2 + b2n r.2)) (some ([], 0))

/-! ### Errors -/

/-- Bytes as they are read with errors in some of them. -/
def withErrors (w : List Byte) (es : List SymErr) : List Byte := es.foldl (fun l e => l.modify e.at_ (· ^^^ e.err)) w

end Sys2Proof.Machine
end

