-- ==== Sys2Proof/Machine/Cobbler.lean ====
section
/-!
DEFINITION. Reliability (chapter 16): uncorrectable code words, scrub passes with the known-answer test and row remap, segment tests,
converter calibration, wear levelling, the telemetry interval, and tile failover (R490 to R518, R91).
-/

namespace Sys2Proof.Machine

/-! ### Out of service (R501) -/

/-- Take a channel out of service: the guard domain releases it, and the other half of its pair, at once and without a latch; its
short check and its measurement end. Each half that switched has a history record with cause 0x00. (DEDUCED, log entry 68.) -/
def outOfService (d : Dev) (c : Ch) (cause : Nat) : Dev :=
  if d.chs[c].prot.oos ≠ 0 then d
  else
    let d1 := measStop (checkAbandon d c) c stAborted
    let d2 := forCh (halves d1 c) (fun e h => if switching e.chs[h] then hist (guardOff e h) h.val 0 0 false else guardOff e h) d1
    settleStops (d2.ch c fun x => { x with prot := { x.prot with oos := cause } })

/-! ### Tile failover (R505 to R512) -/

/-- The channels of a logical tile: 8 of an engine tile, 32 of a mix tile. -/
def chansOf (t : LTile) : List Ch := if t.val < 16 then tileChs t else (ixs 128).filter fun c => decide (16 + c.val / 32 = t.val)

/-- The physical tiles of the kind of a logical tile. -/
def kindOf (t : LTile) : List Nat := if t.val < 16 then List.range 18 else [18, 19, 20, 21, 22]

/-- Whether a block address of a tile lies in a block that a stitch of the tile writes (R503). -/
def stateAddr (img : Image) (t a : Nat) : Bool :=
  let ds := ((img.all t).filter Stitch.writes).map (·.dst)
  (img.blk t).any fun b => decide (b.kind = 0 ∧ b.base ≤ a ∧ a < b.base + b.size) && ds.any fun x => decide (b.base ≤ x ∧ x < b.base + b.size)

/-- A tile's data half as the spare has it after loading: the copy that every command writes, overlaid with the state copy. (DEDUCED, log entry 64.) -/
def loadedData (img : Image) (t : Nat) (data copy : Mem Block) : Mem Block :=
  let as := ((data.map (·.1)) ++ copy.map (·.1)).eraseDups.filter (stateAddr img t)
  as.foldl (fun m a => Mem.set m Block.zero a (Mem.get copy Block.zero a)) data

/-- A tile as it stands when a spare has been chosen. A word that its sequence had not handed over says that the sequence had not
completed, and the copy is then that of the sequence before. (DEDUCED, log entry 64.) -/
def loadedTile (img : Option Image) (t : LTile) (half : Bool) (p : Nat) (u : TileState) : TileState :=
  let c := if half then u.copyPrev else u.copy
  { u with
    data := match img with | some i => loadedData i t.val u.data c | none => u.data
    copy := c
    copyPrev := c
    before := none
    shadow := []
    outerShadow := []
    phys := p
    loading := some p
    holdSlices := false
    skipFc := false
    skipFi := false
    lateNext := true }

/-- Mark a physical tile as retired. -/
def retireTile (d : Dev) (p : Nat) : Dev := { d with cob := { d.cob with etMtFailed := d.cob.etMtFailed.set p true } }

/-- Record the last failover. -/
def noteFailover (d : Dev) (t : LTile) (src dst cause : Nat) : Dev :=
  { d with cob := { d.cob with
    foLogical := t.val
    foFrom := src
    foTo := dst
    foCause := cause
    failovers := if dst = 0x1F then d.cob.failovers else satN 0xFF (d.cob.failovers + 1) } }

/-- A logical tile fails (R507, R511, R512): an activation is abandoned, measurements on its channels end, and the lowest-numbered
free spare of its kind starts loading; without one, or without a readable copy of the image, its channels go out of service.
(DEDUCED, log entry 64.) -/
def tileFail (d : Dev) (t : LTile) (cause : Nat) : Dev :=
  let u := d.core.tiles[t]
  if u.failed then d
  else
    let d1 := abandonAct (retireTile d u.phys)
    let d2 := forCh (chansOf t) (fun e c => measAbort e c stAborted) d1
    match (sparesOf d2 (kindOf t)).head? with
    | some p =>
      if u.copyBad then
        noteFailover (forCh (chansOf t) (fun e c => outOfService e c 1) (d2.tile t fun x => { x with failed := true })) t u.phys 0x1F cause
      else
        let half := (chansOf t).any fun c => decide (t.val < 16) && decide (d.chs[c].mod.handoff ≠ [])
        let d3 := forCh (if t.val < 16 then chansOf t else []) (fun e c => e.ch c fun x => { x with mod := { x.mod with handoff := [] } }) d2
        noteFailover (d3.tile t (loadedTile d.core.image t half p)) t u.phys p cause
    | none =>
      noteFailover (forCh (chansOf t) (fun e c => outOfService e c 1) (d2.tile t fun x => { x with failed := true })) t u.phys 0x1F cause

/-- TILE_FAILURE with a CAUSE of Table 16-4. -/
def tileFailureDev (d : Dev) (t : LTile) (cause : Nat) : Dev :=
  if d.guard.audioReset || decide (cause = 0) then d else tileFail d t cause

/-- TILE_FAILURE (R507). -/
def execTileFailure (t : LTile) (cause : Fin 5) (s : State) : Host.Outcome State Fault Refusal :=
  onDev (fun d => tileFailureDev d t cause.val) s

/-- FAILOVER_TAKEOVER: a spare engine tile takes over at a carrier boundary and runs no slice before the next Fi boundary; a spare mix
tile takes over at an Fi boundary (R508 to R510). (DEDUCED, log entry 64.) -/
def takeoverDev (d : Dev) (t : LTile) : Dev :=
  if d.core.tiles[t].loading.isSome then
    d.tile t fun u => { u with loading := none, holdSlices := decide (t.val < 16) }
  else d

/-- FAILOVER_TAKEOVER (R508). -/
def execFailoverTakeover (t : LTile) (s : State) : Host.Outcome State Fault Refusal := onDev (fun d => takeoverDev d t) s

/-- A physical tile fails: the logical tile it serves, or a spare, which is retired. -/
def physFail (d : Dev) (p : Phys) (cause : Nat) : Dev :=
  if retired d p.val then d
  else match finOf 20 (servedBy d p.val) with
    | some t => tileFail d t cause
    | none => retireTile d p.val

/-! ### Uncorrectable code words (R493, Table 16-1) -/

/-- Count an uncorrectable code word with its WHERE code. -/
def countUnc (d : Dev) (wher : Nat) : Dev :=
  { d with cob := { d.cob with uncorr := satN 0xFFFF (d.cob.uncorr + 1), wher := wher, uncTotal := d.cob.uncTotal + 1 } }

/-- An uncorrectable word of a tile's SRAM: a failure of the tile it serves, or a spare retired (WHERE 10). (DEDUCED, log entry 63.) -/
def eccTile (d : Dev) (p : Phys) (wher : Nat) : Dev :=
  if servedBy d p.val = 0xFF then retireTile (countUnc d 10) p.val else physFail (countUnc d wher) p 1

/-- Both copies of a journal entry or cue are lost: the command completes ABORTED and has no effect. (DEDUCED, log entry 63.) -/
def eccJournal (d : Dev) (f : Flight) : Dev :=
  let own (r : CmdRef) : Bool := sameRef r f.ref
  match f.opcode with
  | 0x26 => abortFlight d f
  | _ =>
    let d1 := { d with
      mix := { d.mix with trajs := d.mix.trajs.filter fun t => !own t.ref }
      relWait := d.relWait.filter fun w => !own w.1
      stops := d.stops.filter fun w => !own w.1 }
    let d2 := d1.chAll fun _ x => { x with prot := { x.prot with check := x.prot.check.map fun k => { k with refs := k.refs.filter fun r => !own r } } }
    abortFlight d2 f

/-- Whether a command's work goes on after its entry is gone, and would complete: those that run on after a loss of the host. -/
def runsOn (d : Dev) (f : Flight) : Bool :=
  stands d f || decide (f.prog = .traj ∨ f.prog = .checking ∨ f.opcode = opMeasure)
    || (decide (f.prog = .started) && decide (f.opcode ≠ opImageActivate ∧ f.opcode ≠ opFlush ∧ f.opcode ≠ opStream))

/-- Both copies of a queue context are lost: the queue goes with its commands and cues as at a loss of the host, on this queue only. The
record's CID, OPCODE and results have no stated value. (DEDUCED, log entry 63.) -/
def eccQueue (d : Dev) (q : QId) : Dev :=
  match Mem.find d.qif.queues q.val with
  | none => d
  | some _ =>
    let mine := (liveFlights d).filter fun f => decide (f.ref.q = q)
    let goes := mine.filter fun f => !stands d f
    let ofQ (r : CmdRef) : Bool := decide (r.q = q) && hostLive d r
    let d1 := goes.foldl (fun e f => if f.timed then streamUnstart e f.ref else e) d
    let drop := match d.core.act with
      | some a => (match a.ref with | some r => ofQ r && !actStands d | none => false)
      | none => false
    let d2 := { d1 with
      core := if drop then { d1.core with act := none } else d1.core
      relWait := d1.relWait.filter fun w => !ofQ w.1
      qif := { d1.qif with
        queues := Mem.erase d1.qif.queues q.val
        flights := d1.qif.flights.filter fun f => !goes.any fun g => sameRef g.ref f.ref
        outbox := d1.qif.outbox.filter fun c => decide (c.q ≠ q)
        waiters := d1.qif.waiters.filter fun w => !ofQ w.ref
        swaits := d1.qif.swaits.filter fun w => !ofQ w.ref
        gone := d1.qif.gone ++ (mine.filter (runsOn d)).map (·.ref) } }
    let d3 := forCh (ixs 128) (fun e c => match e.chs[c].meas with | some m => if ofQ m.ref then measAbort e c stAborted else e | none => e) d2
    let v (k n : Nat) : Nat := Config.freeNat (d3.free + k) % 2 ^ n
    errLog (d3.ticks 4) q.val (v 0 16) (v 1 8) stByReset .none (v 2 32) (v 3 32)

/-- The delay words of one code word take the last output of their DLY_RD. -/
def eccDelay (d : Dev) (c : Ch) (word : Nat) : Dev :=
  d.mixCh c.val fun m =>
    let ks := ((List.range 8).map (· + word / 8 * 8)).filter fun k => decide (k < m.lineSize)
    { m with delayHold := true, line := ks.foldl (fun l k => Mem.set l 0 k m.lastDelay) m.line }

/-- A record whose VALID is taken as 0. -/
def invalidRecord (r : List Byte) : List Byte :=
  let body := fit 252 (r.set 21 (BitVec.ofNat 8 (recFlags r / 2 * 2)))
  body ++ le 4 (crc32 body)

/-- An uncorrectable code word (Table 16-1). (DEDUCED, log entry 63.) -/
def eccDev (d : Dev) (place : EccPlace) : Dev :=
  match place with
  | .tileData p => if retired d p.val then d else eccTile d p 1
  | .tileSched p => if retired d p.val then d else eccTile d p 2
  | .spareTile p => if retired d p.val then d else eccTile d p 1
  | .fabric src dst ord third =>
    let d1 := countUnc d 3
    let other (x : XferBlk) : Bool := !decide (x.src = src.val ∧ x.dst = dst.val ∧ x.ord = ord)
    let d2 := { d1 with core := { d1.core with xferNow := d1.core.xferNow.filter other } }
    if third then tileFail d2 src 3 else d2
  | .delayLine c w => eccDelay (countUnc d 4) c w
  | .captureRing u k =>
    let d1 := countUnc d 5
    let mark (x : Cap) : Cap := { x with entries := if k < x.first then x.entries else x.entries.modify (k - x.first) fun e => { e with bad := true } }
    { d1 with awl := { d1.awl with caps := upd d1.awl.caps u mark } }
  | .streamFifo h =>
    let held (s : Stream) : Stream :=
      let f (x : HsSample) : HsSample := { x with v := s.last }
      { s with fifo := s.fifo.modify 0 f }
    (countUnc d 6).stream h.val held
  | .oneCopy => countUnc d 7
  | .journal q cid =>
    match (liveFlights d).find? fun f => decide (f.ref.q = q ∧ f.ref.cid = cid) with
    | some f => eccJournal (countUnc d 8) f
    | none => countUnc d 8
  | .queueContext q => eccQueue (countUnc d 8) q
  | .imageCopy t => (countUnc d 8).tile t fun u => { u with copyBad := true }
  | .nvFirmware k =>
    let d1 := countUnc d 9
    let spoil (f : FwSlot) : FwSlot := if f.st = 0 then f else { f with st := 2 }
    { d1 with admin := { d1.admin with fw := upd d1.admin.fw k spoil } }
  | .nvImage k header =>
    let d1 := countUnc d 9
    let spoil (x : ImgSlot) : ImgSlot := { x with ecc := if header ∨ x.ecc = 1 then 1 else 2 }
    { d1 with admin := { d1.admin with img := upd d1.admin.img k spoil } }
  | .nvRecord k =>
    let d1 := countUnc d 9
    match Mem.find d1.admin.records k.val with
    | some r => { d1 with admin := { d1.admin with records := Mem.put d1.admin.records k.val (invalidRecord r) } }
    | none => d1
  | .nvHealth => countUnc d 9

/-- The data bytes of a code word whose place the model knows: the delay words of a line, the entries of a capture ring; others count as
zero, since the outcome of a read of this linear code depends on its errors alone. (DEDUCED, log entry 63.) -/
def wordData (d : Dev) (place : EccPlace) : List Byte :=
  match place with
  | .delayLine c w => (List.range 8).flatMap fun k => le 4 (wrap 32 (Mem.get (mixAt d c.val).line 0 (w / 8 * 8 + k)))
  | .captureRing u k =>
    let x := d.awl.caps[u]
    (List.range 4).flatMap fun j => match x.entries[k / 4 * 4 + j - x.first]? with | some e => capBytes e | none => zeros 8
  | _ => zeros 32

/-- The data bytes of a group of the non-volatile store: those of a load record, others as zero. -/
def groupData (d : Dev) (place : EccPlace) : List Byte :=
  match place with
  | .nvRecord k => (Mem.find d.admin.records k.val).getD (zeros 256)
  | _ => zeros 256

/-- Whether a place lies in the non-volatile store. -/
def inNv : EccPlace → Bool
  | .nvFirmware _ | .nvImage _ _ | .nvRecord _ | .nvHealth => true
  | _ => false

/-- What a read with errors gives at a place: how many code words it corrects, none where the code detects more (R490 to R492). -/
def readAt (d : Dev) (place : EccPlace) (errs : List SymErr) : Option Nat :=
  if inNv place then (nvRead (withErrors (nvGroup (groupData d place)) errs)).map (·.2)
  else (rsRead (withErrors (codeWord (wordData d place)) errs)).map fun r => b2n r.2

/-- A read that finds errors: what the code corrects is rewritten in place and counted (R491), an uncorrectable word acts as Table 16-1
gives. -/
def eccReadDev (d : Dev) (place : EccPlace) (errs : List SymErr) : Dev :=
  if d.guard.audioReset then d
  else match readAt d place errs with
    | some n => { d with cob := { d.cob with corrected := d.cob.corrected + n } }
    | none => eccDev d place

/-- ECC_UNCORRECTABLE (R493). -/
def execEccUncorrectable (found : EccRead) (s : State) : Host.Outcome State Fault Refusal :=
  onDev (fun d => eccReadDev d found.place found.errs) s

/-! ### Scrub passes (R491, R495 to R497) -/

/-- Whether two code words lie in one row. -/
def sameRow (a b : RowAddr) : Bool := decide (a.mem = b.mem ∧ a.word / 8 = b.word / 8)

/-- Redirect a hard-error row to a spare row of its memory, while one is left. (DEDUCED, log entry 62.) -/
def remapRow (d : Dev) (r : RowAddr) : Dev :=
  let n := d.cob.spareRows.getD r.mem.val 0
  if n = 0 then d
  else { d with cob := { d.cob with
    spareRows := d.cob.spareRows.set r.mem.val (n - 1)
    hardRows := d.cob.hardRows.filter fun x => !sameRow x r } }

/-- What a scrub pass reads at a place with errors: true where a byte was corrected, none where the word is uncorrectable. -/
def scrubRead (errs : List SymErr) : Option Bool := (rsRead (withErrors (codeWord []) errs)).map (·.2)

/-- A scrub pass in the Cobbler's windows (R29): a code word corrected in two successive passes marks its row as hard, rows are remapped
unless only the minimum runs, an uncorrectable word of a tile acts as Table 16-1 gives, and a known-answer mismatch fails its tile. (DEDUCED,
log entry 62.) -/
def scrubDev (d : Dev) (dur : Nat) (found : List (RowAddr × List SymErr)) (kat : List Phys) : Dev :=
  if d.guard.audioReset || !cobWorks d then d
  else
    let b := d.cob
    let corrected := (found.filter fun x => decide (scrubRead x.2 = some true)).map (·.1)
    let again := corrected.filter fun r => b.lastRows.contains r && !b.hardRows.any (sameRow r)
    let hard := again.foldl (fun l r => if l.any (sameRow r) then l else l ++ [r]) b.hardRows
    let d1 := { d with cob := { b with
      lastPass := satN 0xFFF dur
      latePass := b.latePass || decide (400 < dur)
      passes := (b.passes + 1) % 2 ^ 16
      corrected := b.corrected + corrected.length
      lastRows := corrected
      hardRows := hard } }
    let d2 := if d.shank.throttle then d1 else hard.foldl remapRow d1
    let lost := (found.filter fun x => decide (scrubRead x.2 = none)).filterMap fun x => finOf 23 x.1.mem.val
    let d3 := lost.foldl (fun e p => if retired e p.val then e else eccTile e p 1) d2
    kat.foldl (fun e p => physFail e p 4) d3

/-- SCRUB_PASS (R495). -/
def execScrubPass (dur10ms : Nat) (found : List (RowAddr × List SymErr)) (kat : List Phys) (s : State) : Host.Outcome State Fault Refusal :=
  onDev (fun d => scrubDev d dur10ms found kat) s

/-! ### Segment test (R498, R499) -/

/-- The result of one switch's test of segment `k`: outside 50 % to 150 %, or without a gate, the segment is retired, and the spare comes
in at the channel's next count 0 (R141); a switch with fewer than 10 segments takes its channel out of service. -/
def segResult (k : Nat) (d : Dev) (r : SegResult) : Dev :=
  let j := b2n r.low
  let x := d.chs[r.ch]
  let s := x.seg.getD j 0
  let bad := !r.gate || decide (r.pct < 50 ∨ 150 < r.pct)
  let s1 := if bad then s ||| (1#12 <<< k) else s
  let swap := segSpare s1 && !segSpare s
  let d1 := d.ch r.ch fun y => { y with seg := y.seg.set j s1, segSwap := y.segSwap.set j (y.segSwap.getD j false || swap), ron := y.ron.set j r.ron, coss := y.coss.set j r.coss }
  if bad && decide (segCond s1 < 10) then outOfService d1 r.ch 2 else d1

/-- SEGMENT_TEST: one segment of every switch each second, not while only the minimum runs. (DEDUCED, log entry 62.) -/
def segmentDev (d : Dev) (rs : List SegResult) : Dev :=
  if d.guard.audioReset || d.shank.throttle then d
  else
    let d1 := rs.foldl (segResult d.cob.segPos) d
    { d1 with cob := { d1.cob with segPos := (d1.cob.segPos + 1) % 12 } }

/-- SEGMENT_TEST (R499). -/
def execSegmentTest (results : List SegResult) (s : State) : Host.Outcome State Fault Refusal := onDev (fun d => segmentDev d results) s

/-! ### Converter calibration (R500) -/

/-- Lane after `k` in the round of eight converters and the spare. -/
def nextLane (k : Nat) : Nat := if k < 8 then k + 1 else 0

/-- Whether a calibration retires its converter (Table 16-3). -/
def calFails (r : CalResult) : Bool := decide (5000 < r.offset.natAbs ∨ 10000 < r.gain.natAbs ∨ 2000 < r.diff.natAbs)

/-- The channel that the spare in permanent use serves: the retired lane whose channel is not out of service for it. -/
def spareLane (d : Dev) (t : PTile) (failed : BitVec 9) (cause : Nat) : Option Ch :=
  (List.range 8).findSome? fun j =>
    let c : Ch := Fin.ofNat 128 (8 * t.val + j)
    if failed.getLsbD j && decide (d.chs[c].prot.oos ≠ cause) then some c else none

/-- One calibration: the next converter of the round. With the spare in permanent use a channel's converter is calibrated only while
the channel is unreleased. (DEDUCED, log entry 62.) -/
def calDev (d : Dev) (t : PTile) (current : Bool) (r : CalResult) : Dev :=
  if d.guard.audioReset || d.shank.throttle then d
  else
    let p := d.power[t]
    let k := nextLane (if current then p.calI else p.calV)
    let failed := if current then p.iFailed else p.vFailed
    let used := if current then p.iSpare else p.vSpare
    let cause := if current then 4 else 3
    let c : Option Ch := if k < 8 then some (Fin.ofNat 128 (8 * t.val + k)) else if used then spareLane d t failed cause else none
    let busy := used && (match c with | some x => d.chs[x].prot.released | none => false)
    let d1 := { d with power := d.power.set t (if current then { p with calI := k } else { p with calV := k }) }
    if failed.getLsbD k || busy || !calFails r then d1
    else
      let f1 := failed ||| (1#9 <<< k)
      let swap := decide (k < 8) && !used && !failed.getLsbD 8
      let q := d1.power[t]
      let q1 := if current then { q with iFailed := f1, iSpare := used || swap } else { q with vFailed := f1, vSpare := used || swap }
      let d2 := { d1 with power := d1.power.set t q1 }
      match c with
      | some x => if swap then d2 else outOfService d2 x cause
      | none => d2

/-- SENSE_CALIBRATION (R500). -/
def execSenseCalibration (t : PTile) (current : Bool) (res : CalResult) (s : State) : Host.Outcome State Fault Refusal :=
  onDev (fun d => calDev d t current res) s

/-! ### Wear levelling and telemetry -/

/-- WEAR_LEVEL_MOVE (R494): a write of the EX128's own, in the Cobbler's windows (R29) and not while only the minimum runs. -/
def execWearLevelMove (block : Nat) (s : State) : Host.Outcome State Fault Refusal :=
  onDev (fun d => if d.guard.audioReset || d.shank.throttle || !cobWorks d then d else nvOwn d (.move block)) s

/-- TELEMETRY_INTERVAL: the interval minima restart (R91), and TJ_MAX takes the highest reading of the interval that ends. -/
def telemetryDev (d : Dev) : Dev :=
  if d.guard.audioReset || d.shank.throttle || !cobWorks d then d
  else
    { d with
      core := { d.core with slack := tab d.core.slack fun _ r => { r with fcMinInt := 0xFFFF, fiMinInt := 0xFFFFFFFF } }
      shank := { d.shank with tjMax := d.shank.tjRun, tjRun := (readings d (List.range 54)).foldl max (-550) } }

/-- TELEMETRY_INTERVAL (R91). -/
def execTelemetryInterval (s : State) : Host.Outcome State Fault Refusal := onDev telemetryDev s

end Sys2Proof.Machine
end

