-- ==== Sys2Proof/Machine/Bringup.lean ====
section
/-!
DEFINITION. Resets, stepped growth and precharge (chapter 17): what each reset keeps (Table 17-4), the growth steps (R524 to R526), the
keyed audio reset (R536, R537), precharge (R528 to R534) and AUTO_RELEASE.
-/

namespace Sys2Proof.Machine

/-! ### Non-volatile writes at a reset (R446, R484) -/

/-- Undo a write that did not take place. (DEDUCED, log entry 50.) -/
def nvUndo (d : Dev) (j : NvJob) : Dev :=
  match j with
  | .record k old _ => { d with admin := { d.admin with records := Mem.put d.admin.records k old } }
  | _ => d

/-- The writes in progress at an audio reset: they are made in order, and how many of them are whole is free; each other one leaves the
contents before it. Writes that wait for the window have not started. (DEDUCED, log entry 50.) -/
def nvEnd (d : Dev) : Dev :=
  let l := d.admin.nv
  let n := Config.freeNat d.free % (l.length + 1)
  let d1 := { d.tick with admin := { d.admin with nv := [], nvDeferred := [] } }
  (l.drop n ++ d.admin.nvDeferred).reverse.foldl nvUndo ((l.take n).foldl nvApply d1)

/-- A guard reset or a loss of power cuts the writes in progress off: each leaves the contents before it (R446). -/
def nvCut (d : Dev) : Dev :=
  (d.admin.nv ++ d.admin.nvDeferred).reverse.foldl nvUndo { d with admin := { d.admin with nv := [], nvDeferred := [] } }

/-! ### What an audio reset keeps (R182, R183, R498, R533, R535) -/

/-- A channel: guard protection constants, latch and history counts, retired segments, and out of service for a retirement. (DEDUCED, log entry 56.) -/
def resetChan (saved : List Nat) (c : Ch) (x : Chan) : Chan :=
  let k := x.cfg
  { Chan.reset with
    cfg := { ChanCfg.reset with
      ilim := k.ilim, blank := k.blank, tripCount := k.tripCount, tripWindow := k.tripWindow, dcThresh := k.dcThresh, dcTime := k.dcTime }
    prot := { Prot.reset with
      latched := x.prot.latched
      cause := x.prot.cause
      perIdx := x.prot.perIdx
      tripAt := x.prot.tripAt
      trips := x.prot.trips
      dcNeg := x.prot.dcNeg
      oos := if x.prot.oos = 1 then 0 else x.prot.oos }
    seg := x.seg
    ron := x.ron
    coss := x.coss
    wear := saved.getD c.val 0 }

/-- A power tile: its retired converters and the spares in use. -/
def resetPower (p : Power) : Power :=
  { Power.reset with vSpare := p.vSpare, iSpare := p.iSpare, vFailed := p.vFailed, iFailed := p.iFailed }

/-- Precharge is kept when complete, and abandoned otherwise; the guard's own counts go on. (DEDUCED, log entry 56.) -/
def resetRails (r : Rails) : Rails :=
  let busy := decide (1 ≤ r.preState ∧ r.preState ≤ 3)
  { Rails.reset with
    preState := if busy then 0 else r.preState
    preFail := if busy then 3 else r.preFail
    preDone := r.preDone
    prsntMs := r.prsntMs
    supplyMs := r.supplyMs
    hsvP := r.hsvP
    hsvN := r.hsvN
    sinceDone := if r.preState = 4 then 9600 else 0 }

/-- The host domain as after a function-level reset, with the link kept. -/
def resetQif (q : Qif) : Qif :=
  { Qif.reset with
    width := q.width
    speed := q.speed
    cfgReady := q.cfgReady
    linkUp := q.linkUp
    session := q.session + 1
    msix := { Qif.reset.msix with sent := q.msix.sent } }

/-- Stewards: the stores of Table 17-4, the history copied since guard reset, and the host's memory, which is not the part's. -/
def resetAdmin (a : Admin) : Admin :=
  { Admin.reset with
    fw := a.fw
    fwRunning := a.fwRunning
    fwBoot := a.fwBoot
    img := a.img
    autoSlot := a.autoSlot
    keys := a.keys
    trips := a.trips
    tripTotal := a.tripTotal
    records := a.records
    recFree := a.recFree
    hostMem := a.hostMem }

/-- A sensor: in use, broken and retired are health data. -/
def resetTherm (x : Therm) : Therm := { Therm.reset x.inUse with retired := x.retired }

/-- Health data of the Cobbler. (DEDUCED, log entry 56.) -/
def resetCob (b : Cobbler) : Cobbler :=
  { Cobbler.reset with
    unavailable := b.unavailable
    etMtFailed := b.etMtFailed
    failovers := b.failovers
    spareRows := b.spareRows
    nvWear := b.nvWear
    tsenseSpares := b.tsenseSpares
    wearSaved := b.wearSaved }

/-- Give each logical tile whose own physical tile is retired the lowest-numbered spare that is left (R21, R22, R498); without one its
channels are out of service (Table 16-3). -/
def mapTile (d : Dev) (t : LTile) : Dev :=
  let u := d.core.tiles[t]
  if !retired d u.phys then d
  else match (sparesOf d (kindOf t)).head? with
    | some p => d.tile t fun x => { x with phys := p }
    | none => forCh (chansOf t) (fun e c => e.ch c fun x => { x with prot := { x.prot with oos := if x.prot.oos = 0 then 1 else x.prot.oos } })
        (d.tile t fun x => { x with failed := true })

/-- The part while audio reset is asserted. (DEDUCED, log entry 56.) -/
def audioDown (d0 : Dev) : Dev :=
  let d := nvEnd d0
  let e : Dev := { Dev.reset with
    chs := tab d.chs (resetChan d.cob.wearSaved)
    power := tab d.power fun _ p => resetPower p
    rails := resetRails d.rails
    guard := { d.guard with audioReset := true, arst := false, keyArmed := false }
    qif := resetQif d.qif
    admin := resetAdmin d.admin
    shank := { Shank.reset with sensors := tab d.shank.sensors fun _ x => resetTherm x }
    cob := resetCob d.cob
    free := d.free }
  trackUnbound ((List.finRange 20).foldl mapTile e)

/-! ### Guard reset (R182, R521, R523, R538, R561) -/

/-- The guard domain after its reset, with the straps and pin levels it samples. (DEDUCED, log entry 57.) -/
def resetGuard (g : Guard) (p : GuardPins) : Guard :=
  { Guard.reset with
    safe := p.safeLow
    prsnt := p.prsnt
    trip := p.trip
    gpioIn := p.gpio
    dbgPermit := p.dbgPermit
    smbAddr := p.smbAddr
    serial := g.serial
    jtag := g.jtag
    jtagRefused := g.jtagRefused }

/-- A guard reset: every channel released, the hot-swap gates off, audio reset asserted, the guard domain, the link and the
configuration space at their reset values. (PRESUMED, log entry 10; DEDUCED, log entry 57.) -/
def guardReset (d : Dev) (p : GuardPins) : Dev :=
  let e := audioDown (nvCut d)
  { e with
    chs := tab e.chs fun _ x => { x with cfg := ChanCfg.reset, prot := { Prot.reset with oos := x.prot.oos } }
    rails := Rails.reset
    guard := resetGuard d.guard p
    qif := { e.qif with width := 0, speed := 0, cfgReady := false, linkUp := false }
    admin := { e.admin with trips := [], tripTotal := 0 }
    cob := { e.cob with unavailable := 0 } }

/-- VAUX_RISE (R182): the test logic powers up with it. -/
def execVauxRise (pins : GuardPins) (s : State) : Host.Outcome State Fault Refusal :=
  onDev (fun d =>
    let e := guardReset d pins
    { e with guard := { e.guard with jtag := .idcode, jtagRefused := false } }) s

/-- AUX_POR (R538). -/
def execAuxPor (pins : GuardPins) (s : State) : Host.Outcome State Fault Refusal := onDev (fun d => guardReset d pins) s

/-- The levels that stand at the guard's pins. (DEDUCED, log entry 57.) -/
def pinsNow (g : Guard) : GuardPins := ⟨g.dbgPermit, g.smbAddr, g.safe, g.prsnt, g.trip, g.gpioIn⟩

/-- VAUX_LOSS (R561): below 2.80 V the guard domain resets internally and every switch is held off. -/
def execVauxLoss (s : State) : Host.Outcome State Fault Refusal := onDev (fun d => guardReset d (pinsNow d.guard)) s

/-- The guard domain is ready 2 ms after VAUX: from then on it runs its operations, so an input that stands asserted acts now.
(DEDUCED, log entry 57.) -/
def guardReadyDev (d : Dev) : Dev :=
  if d.guard.ready then d
  else
    let g := d.guard
    let d1 := { d with guard := { g with ready := true, safe := false, trip := 0 } }
    let d2 := if g.safe then safeDev d1 else d1
    (ixs 8).foldl (fun e p => if g.trip.getLsbD p.val then tripPinDev e p else e) d2

/-- GUARD_READY (R521). -/
def execGuardReady (s : State) : Host.Outcome State Fault Refusal := onDev guardReadyDev s

/-! ### Audio reset (R522, R536, R537) -/

/-- Audio reset is released with the guard domain ready: the timebase starts and growth begins with the base step. -/
def audioUpDev (d : Dev) : Dev :=
  if d.guard.ready && d.guard.audioReset then
    { d with guard := { d.guard with audioReset := false }, tb := { d.tb with running := true } }
  else d

/-- AUDIO_RESET_RELEASE (R522). -/
def execAudioResetRelease (s : State) : Host.Outcome State Fault Refusal := onDev audioUpDev s

/-- A main supply out of range: guard release of every channel, then audio reset. -/
def supplyFaultDev (d : Dev) : Dev := if d.guard.audioReset then d else audioDown (releaseAll d 0)

/-- SUPPLY_FAULT (R522). -/
def execSupplyFault (s : State) : Host.Outcome State Fault Refusal := onDev supplyFaultDev s

/-- A write to `GRD_ARST`: 0x4152 arms the key; 0x5354 no more than 1 ms later starts the keyed reset with a safe stop of every
channel; any other write resets the sequence. Ignored while an audio reset is in progress. (DEDUCED, log entry 55.) -/
def arstDev (d : Dev) (v : W32) (late : Bool) : Dev :=
  let g := d.guard
  let k := bits v.toNat 0 16
  if g.audioReset || g.arst then d
  else if k = 0x4152 then { d with guard := { g with keyArmed := true } }
  else if k = 0x5354 ∧ g.keyArmed = true ∧ late = false then
    stopFrom { d with guard := { g with keyArmed := false, arst := true, keyCount := satN 0xFFFF (g.keyCount + 1) } } (ixs 128)
  else { d with guard := { g with keyArmed := false } }

/-- ARST_KEY (R536). -/
def execArstKey (value : W32) (late : Bool) (s : State) : Host.Outcome State Fault Refusal := onDev (fun d => arstDev d value late) s

/-- 20 µs after the safe stop of a keyed reset: guard release of every channel still switching, one record each, then audio reset.
(DEDUCED, log entry 55.) -/
def audioResetDev (d : Dev) : Dev :=
  if d.guard.arst then audioDown (backstopRelease d 0) else d

/-- AUDIO_RESET (R537). -/
def execAudioReset (s : State) : Host.Outcome State Fault Refusal := onDev audioResetDev s

/-! ### Stepped growth (R524 to R526) -/

/-- Take a failed physical tile out of use: a spare of its kind takes its place; an unused spare is only retired. (DEDUCED, log entry 58.) -/
def badTile (d : Dev) (bad : List BadPart) (p : Phys) : Option Dev :=
  if retired d p.val then some d
  else match finOf 20 (servedBy d p.val) with
    | none => some (retireTile d p.val)
    | some t =>
      let ok (k : Nat) : Bool := !bad.any fun b => match b with | .tile q => decide (q.val = k) | _ => false
      match ((sparesOf d (kindOf t)).filter ok).head? with
      | some k => some (retireTile (d.tile t fun x => { x with phys := k }) p.val)
      | none => none

/-- Retire a segment: the switch's spare takes its place. -/
def badSegment (d : Dev) (c : Ch) (low : Bool) (k : Nat) : Option Dev :=
  let j := b2n low
  let s := d.chs[c].seg.getD j 0
  if s.getLsbD k then some d
  else if k = 11 ∧ segSpare s = false ∨ k ≠ 11 ∧ s.toNat = 0 then
    some (d.ch c fun x => { x with seg := x.seg.set j (s ||| (1#12 <<< k)), segSwap := x.segSwap.set j (x.segSwap.getD j false || decide (k ≠ 11)) })
  else none

/-- Retire a converter: the tile's spare of its kind takes its place. -/
def badConverter (d : Dev) (t : PTile) (current : Bool) (k : Nat) : Option Dev :=
  let p := d.power[t]
  let failed := if current then p.iFailed else p.vFailed
  let used := if current then p.iSpare else p.vSpare
  let put (f : BitVec 9) (u : Bool) : Option Dev :=
    some { d with power := d.power.set t (if current then { p with iFailed := f, iSpare := u } else { p with vFailed := f, vSpare := u }) }
  if failed.getLsbD k then some d
  else if k = 8 then (if used then none else put (failed ||| (1#9 <<< k)) false)
  else if used || failed.getLsbD 8 then none
  else put (failed ||| (1#9 <<< k)) true

/-- Retire a sensor: the spare of its place comes into use (R477). -/
def badSensor (d : Dev) (i : Sensor) : Option Dev :=
  let x := d.shank.sensors[i]
  let out (e : Dev) : Dev := setSensor e i.val fun y => { y with retired := true, inUse := false }
  if x.retired then some d
  else if !x.inUse then some (out d)
  else if spareFree d i.val then
    let e := setSensor (out d) (spareOf i.val) fun y => { y with inUse := true }
    some { e with cob := { e.cob with tsenseSpares := e.cob.tsenseSpares - 1 } }
  else none

/-- Redirect a row with a hard error (R497). -/
def badRow (d : Dev) (r : RowAddr) : Option Dev := if d.cob.spareRows.getD r.mem.val 0 = 0 then none else some (remapRow d r)

/-- A failed resource: replaced, or none where it has no spare (R525). -/
def badPart (d : Dev) (all : List BadPart) (b : BadPart) : Option Dev :=
  match b with
  | .tile p => badTile d all p
  | .segment c low k => badSegment d c low k.val
  | .converter t current k => badConverter d t current k.val
  | .sensor sn => badSensor d sn
  | .row r => badRow d r
  | .other => none

/-- Replace failed resources one after the other; whether each had a spare. (DEDUCED, log entry 58.) -/
def badParts (all : List BadPart) : List BadPart → Dev → Dev × Bool
  | [], d => (d, true)
  | b :: rest, d =>
    match badPart d all b with
    | some e => badParts all rest e
    | none => let r := badParts all rest d; (r.1, false)

/-- MEMBER after each passed step (Table 17-2). (DEDUCED, log entry 58.) -/
def memberOf (step : Nat) : Nat :=
  match step with
  | 0 => 0
  | 1 => 0x02
  | 2 => 0x08
  | 3 => 0x20
  | _ => 0x80

/-- A growth step ends: its failed resources are replaced; it passes where each had a spare, and otherwise growth stops with the
configuration of the last step. Steps after the base step wait for the stewards. (DEDUCED, log entry 58.) -/
def growthDev (d : Dev) (bad : List BadPart) : Dev :=
  let g := d.growth
  if d.guard.audioReset || decide (g.growth ≠ 0) || (decide (1 ≤ g.step) && !d.admin.booted) then d
  else
    let (d1, ok) := badParts bad bad d
    if ok then
      { d1 with growth := ⟨memberOf (g.step + 1), if g.step + 1 = 4 then 1 else 0, g.step + 1⟩ }
    else
      { d1 with growth := { g with growth := 2 } }

/-- GROWTH_STEP (R526). -/
def execGrowthStep (bad : List BadPart) (s : State) : Host.Outcome State Fault Refusal := onDev (fun d => growthDev d bad) s

/-- The stewards boot after the base step, from the slot marked for boot where it holds valid firmware; Q0 becomes ready if EN is
set (R428). -/
def stewardsDev (d : Dev) : Dev :=
  let a := d.admin
  let ok (k : Nat) : Bool := decide ((look a.fw k ⟨0, [], 0, 0, 0, 0, 0⟩).st = 1)
  if d.guard.audioReset || a.booted || decide (d.growth.step ≠ 1) then d
  else
    let run := if ok a.fwBoot then a.fwBoot else if ok (1 - a.fwBoot) then 1 - a.fwBoot else a.fwRunning
    readyQ0 { d with admin := { a with booted := true, fwRunning := run } }

/-- STEWARDS_BOOTED (R428). -/
def execStewardsBooted (s : State) : Host.Outcome State Fault Refusal := onDev stewardsDev s

/-! ### Precharge (R528 to R534) -/

/-- The conditions of R530 but for the hold. (DEDUCED, log entry 59.) -/
def preReady (d : Dev) : Bool :=
  !d.guard.audioReset && d.tb.started && imageOn d && !d.guard.thermLatch
    && decide (100 ≤ d.rails.prsntMs ∧ 100 ≤ d.rails.supplyMs ∧ d.rails.preState = 0)

/-- PRECHARGE_START: both rails at 1.0 A, or held while a sensor is too hot. The image in force gives I_IN and PRE_TIMEOUT. (DEDUCED, log entry 59.) -/
def preStartDev (d : Dev) : Dev :=
  if !preReady d then d
  else if guardHot d then { d with guard := { d.guard with hold := true } }
  else { d with
    guard := { d.guard with hold := false }
    rails := { d.rails with
      preState := 1
      stageP := 1
      stageN := 1
      preFail := 0
      preFi := 0
      stage3Fi := 0
      iInNow := d.rails.iIn
      preTimeNow := d.rails.preTimeout
      icapP := none
      icapN := none
      sumCnt := 0 } }

/-- PRECHARGE_START (R530). -/
def execPrechargeStart (s : State) : Host.Outcome State Fault Refusal := onDev preStartDev s

/-- CBULK in 10 µF from I_IN in 0.1 A and the rise (µs, mV) (R311). (DEDUCED, log entry 38.) -/
def cbulkOf (iIn us mv : Nat) (up : Bool) : Nat := fieldSat 16 (gridDiv ((iIn : Int) * us * 10) mv up)

/-- R_SRC in 0.1 mΩ from I_IN and the fall of the supply side in mV (R311): not measured below 2.0 A or without the step. (DEDUCED, log entry 38.) -/
def rsrcOf (iIn : Nat) (fall : Option Nat) (up : Bool) : Nat :=
  match fall with
  | some mv => if iIn < 20 then 0xFFFF else fieldSat 16 (gridDiv ((mv : Int) * 100) ((iIn : Int) - 10) up)
  | none => 0xFFFF

/-- The measurements of a rail that ends stage 2. (DEDUCED, log entry 38.) -/
def preMeasure (d : Dev) (neg : Bool) (rise : Option (Nat × Nat)) (fall : Option Nat) : Dev :=
  let r := d.rails
  let rs := rsrcOf r.iInNow fall (Config.freeBit d.free)
  let old := if neg then r.cbulkN else r.cbulkP
  let cb := match rise with
    | some (us, mv) => if mv = 0 then old else cbulkOf r.iInNow us mv (Config.freeBit (d.free + 1))
    | none => old
  { d.ticks 2 with rails := if neg then { r with supRsrcN := rs, cbulkN := cb } else { r with supRsrcP := rs, cbulkP := cb } }

/-- PRECHARGE_STAGE: a rail reaches the end of its stage; the register shows the stage of the rail that is behind. (DEDUCED, log entry 18.) -/
def preStageDev (d : Dev) (neg : Bool) (rise : Option (Nat × Nat)) (fall : Option Nat) : Dev :=
  let r := d.rails
  let st := if neg then r.stageN else r.stageP
  if r.preState = 0 ∨ 4 ≤ r.preState ∨ 3 ≤ st then d
  else
    let d1 := if st = 2 then preMeasure d neg rise fall else d
    let x := d1.rails
    let y := if neg then { x with stageN := st + 1 } else { x with stageP := st + 1 }
    { d1 with rails := { y with preState := min y.stageP y.stageN } }

/-- PRECHARGE_STAGE (R531). -/
def execPrechargeStage (neg : Bool) (rise : Option (Nat × Nat)) (fall : Option Nat) (s : State) : Host.Outcome State Fault Refusal :=
  onDev (fun d => preStageDev d neg rise fall) s

/-- PRECHARGE_COMPLETE: both rails have been in stage 3 for 1 ms. -/
def preDoneDev (d : Dev) : Dev :=
  let r := d.rails
  if r.preState = 3 ∧ 96 ≤ r.stage3Fi then
    { d with
      rails := { r with preState := 4, preDone := satN 0xFFFF (r.preDone + 1), stage3Fi := 0, sinceDone := 0, sumCnt := 0 }
      admin := { d.admin with autoArmed := true } }
  else d

/-- PRECHARGE_COMPLETE (R531). -/
def execPrechargeComplete (s : State) : Host.Outcome State Fault Refusal := onDev preDoneDev s

/-- PRECHARGE_FAIL: TIMEOUT, or SHORT while a rail is in stage 1; the gates turn off. A time that ends with an Fi period may come
just before the boundary that counts it. -/
def preFailDev (d : Dev) (timeout : Bool) : Dev :=
  let r := d.rails
  let run := decide (1 ≤ r.preState ∧ r.preState ≤ 3)
  let due := if timeout then decide (96 * r.preTimeNow ≤ r.preFi + 1) else decide (1920 ≤ r.preFi + 1) && decide (r.stageP = 1 ∨ r.stageN = 1)
  if run && due then
    { d with rails := { r with preState := 5, preFail := if timeout then 2 else 1, stageP := 0, stageN := 0, stage3Fi := 0 } }
  else d

/-- PRECHARGE_FAIL (R532). -/
def execPrechargeFail (timeout : Bool) (s : State) : Host.Outcome State Fault Refusal := onDev (fun d => preFailDev d timeout) s

/-- A write to `HSW_PRE_CTRL`: RETRY clears a failure. (DEDUCED, log entry 59.) -/
def preRetryDev (d : Dev) (v : W32) : Dev :=
  if v.getLsbD 0 && decide (d.rails.preState = 5) then { d with rails := { d.rails with preState := 0, preFail := 0 } } else d

/-- PRECHARGE_RETRY (R532). -/
def execPrechargeRetry (value : W32) (s : State) : Host.Outcome State Fault Refusal := onDev (fun d => preRetryDev d value) s

/-- Release one group named in AUTO_RELEASE: a refusal is logged; its CID and results have no stated value. (DEDUCED, log entry 53.) -/
def autoGroup (d : Dev) (g : RGroup) : Dev :=
  match releaseGroupNow d g with
  | none => d
  | some (e, st) =>
    if st = stSuccess ∨ st = stLatched then e
    else
      let v (k n : Nat) : Nat := Config.freeNat (e.free + k) % 2 ^ n
      errLog (e.ticks 3) 0xFFFF (v 0 16) opChannel st .none (v 1 32) (v 2 32)

/-- AUTO_RELEASE at the first Fi boundary after precharge completes. (DEDUCED, log entry 53.) -/
def autoReleaseDev (d : Dev) : Dev :=
  if d.guard.audioReset || !d.admin.autoArmed || !preDone d then d
  else
    let gs := (ixs 32).filter fun g => d.admin.autoRelease.getLsbD g.val
    gs.foldl autoGroup { d with admin := { d.admin with autoArmed := false } }

/-- AUTO_RELEASE (R534). -/
def execAutoRelease (s : State) : Host.Outcome State Fault Refusal := onDev autoReleaseDev s

end Sys2Proof.Machine
end

