-- ==== Sys2Proof/Machine/Smbus.lean ====
section
/-!
DEFINITION. Register writes over BAR0 and the SMBus (R13, R549 to R557, R541 to R544, Table 17-6), and the JTAG port (R545).
-/

namespace Sys2Proof.Machine

/-! ### REGISTER_WRITE -/

/-- A write to a register of the audio domain with a behaviour of its own; a free bit settles a write near a reload. -/
def audioWrite (d : Dev) (o : Nat) (w : W32) : Dev :=
  let c : Ch := Fin.ofNat 128 (o % 0x200 / 4)
  if hostClosed d then d
  else if o = 0x1010 then (if w.getLsbD 0 then { d with tb := { d.tb with snapPend := true, snapReady := false } } else d)
  else if o = 0x1100 then (if w.getLsbD 0 then haltDev d else { d with halt := false })
  else if o = 0x1120 then (if w.getLsbD 0 then d.chAll fun _ x => { x with mod := { x.mod with collisions := 0 } } else d)
  else if 0x2400 ≤ o ∧ o < 0x2600 then manEnableDev d c w
  else if 0x2600 ≤ o ∧ o < 0x2800 then manWordDev d.tick c false w (Config.freeBit d.free)
  else if 0x2800 ≤ o ∧ o < 0x2A00 then manWordDev d.tick c true w (Config.freeBit d.free)
  else writeAudio d o w.toNat

/-- A write to a register below 0x0_7F00. Whether a write of the key comes within its millisecond is free here. (DEDUCED, log entry 54.) -/
def regWrite (d : Dev) (o : Nat) (w : W32) (late : Bool) : Dev :=
  if 0x0120 ≤ o ∧ o < 0x0130 then grdClearDev d (Fin.ofNat 4 ((o - 0x0120) / 4)) w
  else if o = 0x0108 then arstDev d w late
  else if o = 0x0804 then preRetryDev d w
  else if o = 0x5000 then (if w.getLsbD 0 then enableDev d else disableDev d)
  else if audioReg o then audioWrite d o w
  else writeGuardHost d o w.toNat

/-- The queue whose doorbells stand at an offset from 0x1_0000 up: eight bytes each. -/
def doorbellQueue (o : Nat) : QId := Fin.ofNat 16384 (o / 8 + 8192)

/-- A doorbell (Table 13-17); nothing stands past the last one. (DEDUCED, log entry 54.) -/
def doorbell (d : Dev) (o : Nat) (w : W32) : Dev :=
  if 0x30000 ≤ o then d
  else if o % 8 = 0 then tailWrite d (doorbellQueue o) w
  else headWrite d (doorbellQueue o) w

/-- A 32-bit write over BAR0 (Table 13-2); one that is not aligned is an error of the access. (DEDUCED, log entry 54.) -/
def barWrite (d : Dev) (o : Nat) (w : W32) : Dev :=
  if o % 4 ≠ 0 then qifErr d 0 3
  else if o < 0x7F00 then regWrite d.tick o w (Config.freeBit d.free)
  else if o < 0x8000 then d
  else if o < 0x10000 then msixWrite d (o % 0x8000) w.toNat
  else doorbell d o w

/-- REGISTER_WRITE (R13). -/
def execRegisterWrite (offset : BitVec 18) (value : W32) (s : State) : Host.Outcome State Fault Refusal :=
  onDev (fun d => barWrite d offset.toNat value) s

/-! ### SMBus (R541 to R544) -/

/-- Change the guard domain. -/
def Dev.grd (d : Dev) (f : Guard → Guard) : Dev := { d with guard := f d.guard }

/-- Run a transaction the guard domain takes: it is ready, and no byte came with a wrong PEC. (DEDUCED, log entry 60.) -/
def smbTake (pec : Bool) (f : Dev → Dev) (s : State) : Host.Outcome State Fault Refusal :=
  onDev (fun d => if d.guard.ready && pec then f d else d) s

/-- SET_PTR: a pointer that is no multiple of 4 below 0x0_7F00 leaves a free legal one. (DEDUCED, log entry 60.) -/
def setPtrDev (d : Dev) (v : Nat) : Dev :=
  if v % 4 = 0 ∧ v < 0x7F00 then d.grd fun g => { g with smbPtr := v }
  else d.tick.grd fun g => { g with smbPtr := 4 * (Config.freeNat d.free % 8128) }

/-- SET_PTR (R542). -/
def execSetPtr (v : BitVec 16) (pec : Bool) (s : State) : Host.Outcome State Fault Refusal := smbTake pec (fun d => setPtrDev d v.toNat) s

/-- Whether the audio domain serves the SMBus: out of reset, and not stopped at a failed base step (R526). -/
def smbServes (d : Dev) : Bool := !d.guard.audioReset && !decide (d.growth = ⟨0, 2, d.growth.step⟩)

/-- READ: the guard domain's own registers always; every other one only while the audio domain answers. -/
def smbReadDev (d : Dev) (answers : Bool) : Dev :=
  let o := d.guard.smbPtr
  let put (v : Nat) (lost : Bool) : Dev := d.grd fun g => { g with smbOut := le 4 v, smbPtr := (o + 4) % 2 ^ 16, smbNotServed := lost }
  if o < 0x1000 then put ((readGuard d o).getD 0) false
  else if 0x7F00 ≤ o then (put (Config.freeNat d.free % 2 ^ 32) false).tick
  else if answers && smbServes d then put (readReg d o) false
  else put 0xFFFFFFFF true

/-- SMB_READ (R543). -/
def execSmbRead (answers : Bool) (pec : Bool) (s : State) : Host.Outcome State Fault Refusal := smbTake pec (fun d => smbReadDev d answers) s

/-- The registers that WRITE reaches (Table 17-6). -/
def smbWritable (o : Nat) : Bool := [0x0120, 0x0124, 0x0128, 0x012C, 0x0104, 0x0108, 0x0804].contains o

/-- WRITE: an allowed register is written; any other write is ignored and flagged. -/
def smbWriteDev (d : Dev) (w : W32) (late : Bool) : Dev :=
  let o := d.guard.smbPtr
  let d1 := if smbWritable o then regWrite d o w late else d
  d1.grd fun g => { g with smbPtr := (o + 4) % 2 ^ 16, smbIgnored := !smbWritable o }

/-- SMB_WRITE (R542). -/
def execSmbWrite (value : W32) (late : Bool) (pec : Bool) (s : State) : Host.Outcome State Fault Refusal :=
  smbTake pec (fun d => smbWriteDev d value late) s

/-- SET_HIST: an index above 63 leaves a free legal one. (DEDUCED, log entry 60.) -/
def setHistDev (d : Dev) (v : Nat) : Dev :=
  if v < 64 then d.grd fun g => { g with smbHist := v } else d.tick.grd fun g => { g with smbHist := Config.freeNat d.free % 64 }

/-- SET_HIST (R542). -/
def execSetHist (v : Byte) (pec : Bool) (s : State) : Host.Outcome State Fault Refusal := smbTake pec (fun d => setHistDev d v.toNat) s

/-- HIST: the record at the index, 0 newest; where none is held the bytes are free. (DEDUCED, log entry 60.) -/
def histDev (d : Dev) : Dev :=
  let k := d.guard.smbHist
  let next (bs : List Byte) : Dev := d.grd fun g => { g with smbOut := bs, smbHist := (k + 1) % 256 }
  match d.guard.history[k]? with
  | some r => next (histBytes r)
  | none => (next ((List.range 16).map fun j => BitVec.ofNat 8 (Config.freeNat (d.free + j)))).ticks 16

/-- HIST (R542). -/
def execHist (pec : Bool) (s : State) : Host.Outcome State Fault Refusal := smbTake pec histDev s

/-- STATUS. -/
def smbStatusDev (d : Dev) : Dev :=
  d.grd fun g => { g with smbOut := le 1 (packBits [smbServes d, g.smbIgnored, g.smbNotServed]) }

/-- SMB_STATUS (R542). -/
def execSmbStatus (pec : Bool) (s : State) : Host.Outcome State Fault Refusal := smbTake pec smbStatusDev s

/-- The Alert Response Address: while it drives SMBALERT# low the part answers with its address, whose last bit no rule gives, and
releases it. -/
def alertDev (d : Dev) : Dev :=
  if d.guard.ready && d.guard.smbAlert then
    d.tick.grd fun g => { g with smbAlert := false, smbOut := le 1 (2 * (0x58 + g.smbAddr.toNat) + b2n (Config.freeBit d.free)) }
  else d

/-- ALERT_RESPONSE (R544). -/
def execAlertResponse (s : State) : Host.Outcome State Fault Refusal := onDev alertDev s

/-! ### JTAG (R545) -/

/-- Whether the port offers an instruction. (PRESUMED, log entry 10; DEDUCED, log entry 61.) -/
def jtagOffers (d : Dev) (i : JtagInstr) : Bool :=
  match i with
  | .bypass | .idcode | .samplePreload => true
  | .extest => !preDone d
  | .debug | .halt => d.guard.dbgPermit

/-- An instruction loaded on the port; one that is refused leaves the port in BYPASS. (PRESUMED, log entry 10; DEDUCED, log entry 61.) -/
def jtagDev (d : Dev) (i : JtagInstr) : Dev :=
  d.grd fun g => { g with jtag := if jtagOffers d i then i else .bypass, jtagRefused := !jtagOffers d i }

/-- JTAG_INSTRUCTION (R545). -/
def execJtagInstruction (i : JtagInstr) (s : State) : Host.Outcome State Fault Refusal := onDev (fun d => jtagDev d i) s

end Sys2Proof.Machine
end

