-- ==== Sys2Proof/Machine/Dispatch.lean ====
section
/-!
DEFINITION. One arm for each command of the table: its meaning.
-/

namespace Sys2Proof.Machine

/-- The effect of a command on everything but the queue. -/
def exec (i : Instr) (s : State) : Host.Outcome State Fault Refusal :=
  match i with
  | .carrierBoundary samples rails => Sys2Proof.Machine.execCarrierBoundary samples rails s
  | .fiBoundary means sapBits => Sys2Proof.Machine.execFiBoundary means sapBits s
  | .outerBoundary => Sys2Proof.Machine.execOuterBoundary s
  | .dutyHandover ch near => Sys2Proof.Machine.execDutyHandover ch near s
  | .tilePeriodComplete t fi count => Sys2Proof.Machine.execTilePeriodComplete t fi count s
  | .takeUp ch => Sys2Proof.Machine.execTakeUp ch s
  | .midPeriodTakeUp ch => Sys2Proof.Machine.execMidPeriodTakeUp ch s
  | .gateEdge ch => Sys2Proof.Machine.execGateEdge ch s
  | .periodEvent ch => Sys2Proof.Machine.execPeriodEvent ch s
  | .cmpEvent ch b ticks smp => Sys2Proof.Machine.execCmpEvent ch b ticks smp s
  | .eviSignal u => Sys2Proof.Machine.execEviSignal u s
  | .manEnableWrite ch value => Sys2Proof.Machine.execManEnableWrite ch value s
  | .manWordWrite ch period value near => Sys2Proof.Machine.execManWordWrite ch period value near s
  | .haltRequest jtag => Sys2Proof.Machine.execHaltRequest jtag s
  | .haltEnd => Sys2Proof.Machine.execHaltEnd s
  | .cntClr value => Sys2Proof.Machine.execCntClr value s
  | .releaseGroup r g => Sys2Proof.Machine.execReleaseGroup r g s
  | .stopGroup r g => Sys2Proof.Machine.execStopGroup r g s
  | .stopChannel r ch => Sys2Proof.Machine.execStopChannel r ch s
  | .clearLatch r ch => Sys2Proof.Machine.execClearLatch r ch s
  | .grdClearWrite m mask => Sys2Proof.Machine.execGrdClearWrite m mask s
  | .rampComplete g => Sys2Proof.Machine.execRampComplete g s
  | .safeStopEnd ch => Sys2Proof.Machine.execSafeStopEnd ch s
  | .clampRelease neg => Sys2Proof.Machine.execClampRelease neg s
  | .class1Trip ch low at_ => Sys2Proof.Machine.execClass1Trip ch low at_ s
  | .tripPinAssert p => Sys2Proof.Machine.execTripPinAssert p s
  | .dcThresholdCross ch neg => Sys2Proof.Machine.execDcThresholdCross ch neg s
  | .dcTrip ch => Sys2Proof.Machine.execDcTrip ch s
  | .carrierLoss ch => Sys2Proof.Machine.execCarrierLoss ch s
  | .safeAssert => Sys2Proof.Machine.execSafeAssert s
  | .guardBackstop => Sys2Proof.Machine.execGuardBackstop s
  | .prsntDeassert => Sys2Proof.Machine.execPrsntDeassert s
  | .thermalShutdown sn => Sys2Proof.Machine.execThermalShutdown sn s
  | .railOvRelease neg => Sys2Proof.Machine.execRailOvRelease neg s
  | .railUvRelease neg => Sys2Proof.Machine.execRailUvRelease neg s
  | .shortCheckObserveEnd ch => Sys2Proof.Machine.execShortCheckObserveEnd ch s
  | .shortCheckDriveEnd ch => Sys2Proof.Machine.execShortCheckDriveEnd ch s
  | .shortCheckEnd ch => Sys2Proof.Machine.execShortCheckEnd ch s
  | .stewardPoll answered hsvP hsvN levels => Sys2Proof.Machine.execStewardPoll answered hsvP hsvN levels s
  | .refQualified e rate => Sys2Proof.Machine.execRefQualified e rate s
  | .refDisqualified e => Sys2Proof.Machine.execRefDisqualified e s
  | .refSelect => Sys2Proof.Machine.execRefSelect s
  | .refRevert => Sys2Proof.Machine.execRefRevert s
  | .slewEnd => Sys2Proof.Machine.execSlewEnd s
  | .lockAcquired => Sys2Proof.Machine.execLockAcquired s
  | .holdExpired => Sys2Proof.Machine.execHoldExpired s
  | .zaithWord w phase => Sys2Proof.Machine.execZaithWord w phase s
  | .frameLost => Sys2Proof.Machine.execFrameLost s
  | .snapReq => Sys2Proof.Machine.execSnapReq s
  | .snapCapture => Sys2Proof.Machine.execSnapCapture s
  | .autoLoad => Sys2Proof.Machine.execAutoLoad s
  | .stagingEnd => Sys2Proof.Machine.execStagingEnd s
  | .weltOpen => Sys2Proof.Machine.execWeltOpen s
  | .weltSwitch => Sys2Proof.Machine.execWeltSwitch s
  | .generatorStop g => Sys2Proof.Machine.execGeneratorStop g s
  | .captureEntry u => Sys2Proof.Machine.execCaptureEntry u s
  | .reWindowOpen ch => Sys2Proof.Machine.execReWindowOpen ch s
  | .reWindowClose ch => Sys2Proof.Machine.execReWindowClose ch s
  | .grantCycle => Sys2Proof.Machine.execGrantCycle s
  | .thermalSample sn reading fault => Sys2Proof.Machine.execThermalSample sn reading fault s
  | .sensorBroken sn => Sys2Proof.Machine.execSensorBroken sn s
  | .sensorRetire sn => Sys2Proof.Machine.execSensorRetire sn s
  | .nvWindowOpen => Sys2Proof.Machine.execNvWindowOpen s
  | .healthSave => Sys2Proof.Machine.execHealthSave s
  | .scrubPass dur10ms found kat => Sys2Proof.Machine.execScrubPass dur10ms found kat s
  | .segmentTest results => Sys2Proof.Machine.execSegmentTest results s
  | .senseCalibration t current res => Sys2Proof.Machine.execSenseCalibration t current res s
  | .wearLevelMove block => Sys2Proof.Machine.execWearLevelMove block s
  | .telemetryInterval => Sys2Proof.Machine.execTelemetryInterval s
  | .eccUncorrectable found => Sys2Proof.Machine.execEccUncorrectable found s
  | .tileFailure t cause => Sys2Proof.Machine.execTileFailure t cause s
  | .failoverTakeover t => Sys2Proof.Machine.execFailoverTakeover t s
  | .measureLoad r ch steps => Sys2Proof.Machine.execMeasureLoad r ch steps s
  | .measurePrecheckEnd ch => Sys2Proof.Machine.execMeasurePrecheckEnd ch s
  | .measureDcEnd ch => Sys2Proof.Machine.execMeasureDcEnd ch s
  | .measureCableEnd ch => Sys2Proof.Machine.execMeasureCableEnd ch s
  | .sweepPointEnd ch => Sys2Proof.Machine.execSweepPointEnd ch s
  | .measureSwitchingEnd ch => Sys2Proof.Machine.execMeasureSwitchingEnd ch s
  | .fitComplete ch => Sys2Proof.Machine.execFitComplete ch s
  | .storeComplete ch => Sys2Proof.Machine.execStoreComplete ch s
  | .deleteComplete ch => Sys2Proof.Machine.execDeleteComplete ch s
  | .measureResultWrite ch => Sys2Proof.Machine.execMeasureResultWrite ch s
  | .supplyMeasureEnd tileP tileN => Sys2Proof.Machine.execSupplyMeasureEnd tileP tileN s
  | .partnerMeasure p bclk rateMilliHz => Sys2Proof.Machine.execPartnerMeasure p bclk rateMilliHz s
  | .sapFrame p bits clocks => Sys2Proof.Machine.execSapFrame p bits clocks s
  | .sapFrameTimeout p => Sys2Proof.Machine.execSapFrameTimeout p s
  | .sapPhaseEval p => Sys2Proof.Machine.execSapPhaseEval p s
  | .sapSlip p => Sys2Proof.Machine.execSapSlip p s
  | .streamRoom h => Sys2Proof.Machine.execStreamRoom h s
  | .trajectoryEnd q cid => Sys2Proof.Machine.execTrajectoryEnd q cid s
  | .sqTailWrite q value => Sys2Proof.Machine.execSqTailWrite q value s
  | .cqHeadWrite q value => Sys2Proof.Machine.execCqHeadWrite q value s
  | .barAccessError offset size => Sys2Proof.Machine.execBarAccessError offset size s
  | .registerWrite offset value => Sys2Proof.Machine.execRegisterWrite offset value s
  | .commandFetch entry buffer => Sys2Proof.Machine.execCommandFetch entry buffer s
  | .completionPost => Sys2Proof.Machine.execCompletionPost s
  | .cueCommit q cid => Sys2Proof.Machine.execCueCommit q cid s
  | .cueEffect => Sys2Proof.Machine.execCueEffect s
  | .coalesceTimeout vector => Sys2Proof.Machine.execCoalesceTimeout vector s
  | .msixUnmask vector => Sys2Proof.Machine.execMsixUnmask vector s
  | .qifEnable => Sys2Proof.Machine.execQifEnable s
  | .qifDisable => Sys2Proof.Machine.execQifDisable s
  | .streamWrite r h fin samples start => Sys2Proof.Machine.execStreamWrite r h fin samples start s
  | .captureRead r u start => Sys2Proof.Machine.execCaptureRead r u start s
  | .tableWrite r ch cond region words => Sys2Proof.Machine.execTableWrite r ch cond region words s
  | .tableRead r ch kind region => Sys2Proof.Machine.execTableRead r ch kind region s
  | .timedSet r obj => Sys2Proof.Machine.execTimedSet r obj s
  | .gainTrajectory r obj log g1 steps => Sys2Proof.Machine.execGainTrajectory r obj log g1 steps s
  | .injectArm r recs => Sys2Proof.Machine.execInjectArm r recs s
  | .injectStop r gens taps units => Sys2Proof.Machine.execInjectStop r gens taps units s
  | .telemetryRead r offset count => Sys2Proof.Machine.execTelemetryRead r offset count s
  | .identify r => Sys2Proof.Machine.execIdentify r s
  | .identifyLatency r => Sys2Proof.Machine.execIdentifyLatency r s
  | .getLog r page offset => Sys2Proof.Machine.execGetLog r page offset s
  | .getFeature r fid => Sys2Proof.Machine.execGetFeature r fid s
  | .setFeature r fid value buf => Sys2Proof.Machine.execSetFeature r fid value buf s
  | .createQueue r cfg => Sys2Proof.Machine.execCreateQueue r cfg s
  | .deleteQueue r qid => Sys2Proof.Machine.execDeleteQueue r qid s
  | .abort r sqid tcid => Sys2Proof.Machine.execAbort r sqid tcid s
  | .flush r scope => Sys2Proof.Machine.execFlush r scope s
  | .flushDone q cid => Sys2Proof.Machine.execFlushDone q cid s
  | .queueReset r qid => Sys2Proof.Machine.execQueueReset r qid s
  | .queueResetDone q cid => Sys2Proof.Machine.execQueueResetDone q cid s
  | .fwDownload r offset chunk => Sys2Proof.Machine.execFwDownload r offset chunk s
  | .fwCommit r slot => Sys2Proof.Machine.execFwCommit r slot s
  | .fwCommitBoot r slot => Sys2Proof.Machine.execFwCommitBoot r slot s
  | .fwMarkBoot r slot => Sys2Proof.Machine.execFwMarkBoot r slot s
  | .fwActivate r slot => Sys2Proof.Machine.execFwActivate r slot s
  | .fwRunning => Sys2Proof.Machine.execFwRunning s
  | .fwFallback => Sys2Proof.Machine.execFwFallback s
  | .imageLoad r slot final offset chunk => Sys2Proof.Machine.execImageLoad r slot final offset chunk s
  | .imageActivate r slot time late => Sys2Proof.Machine.execImageActivate r slot time late s
  | .imageActivateMark r slot time late => Sys2Proof.Machine.execImageActivateMark r slot time late s
  | .imageMark r slot => Sys2Proof.Machine.execImageMark r slot s
  | .imageClearMark r slot => Sys2Proof.Machine.execImageClearMark r slot s
  | .nvWriteComplete => Sys2Proof.Machine.execNvWriteComplete s
  | .perst => Sys2Proof.Machine.execPerst s
  | .functionLevelReset => Sys2Proof.Machine.execFunctionLevelReset s
  | .linkDown => Sys2Proof.Machine.execLinkDown s
  | .configReady => Sys2Proof.Machine.execConfigReady s
  | .vauxRise pins => Sys2Proof.Machine.execVauxRise pins s
  | .auxPor pins => Sys2Proof.Machine.execAuxPor pins s
  | .guardReady => Sys2Proof.Machine.execGuardReady s
  | .audioResetRelease => Sys2Proof.Machine.execAudioResetRelease s
  | .supplyFault => Sys2Proof.Machine.execSupplyFault s
  | .growthStep bad => Sys2Proof.Machine.execGrowthStep bad s
  | .arstKey value late => Sys2Proof.Machine.execArstKey value late s
  | .audioReset => Sys2Proof.Machine.execAudioReset s
  | .prechargeStart => Sys2Proof.Machine.execPrechargeStart s
  | .prechargeStage neg rise fall => Sys2Proof.Machine.execPrechargeStage neg rise fall s
  | .prechargeComplete => Sys2Proof.Machine.execPrechargeComplete s
  | .autoRelease => Sys2Proof.Machine.execAutoRelease s
  | .prechargeFail timeout => Sys2Proof.Machine.execPrechargeFail timeout s
  | .prechargeRetry value => Sys2Proof.Machine.execPrechargeRetry value s
  | .setPtr v pec => Sys2Proof.Machine.execSetPtr v pec s
  | .smbRead answers pec => Sys2Proof.Machine.execSmbRead answers pec s
  | .smbWrite value late pec => Sys2Proof.Machine.execSmbWrite value late pec s
  | .setHist v pec => Sys2Proof.Machine.execSetHist v pec s
  | .hist pec => Sys2Proof.Machine.execHist pec s
  | .smbStatus pec => Sys2Proof.Machine.execSmbStatus pec s
  | .alertResponse => Sys2Proof.Machine.execAlertResponse s
  | .safeDeassert => Sys2Proof.Machine.execSafeDeassert s
  | .tripPinDeassert p => Sys2Proof.Machine.execTripPinDeassert p s
  | .prsntAssert => Sys2Proof.Machine.execPrsntAssert s
  | .dcTimerRestart ch => Sys2Proof.Machine.execDcTimerRestart ch s
  | .vauxLoss => Sys2Proof.Machine.execVauxLoss s
  | .linkTraining width speed => Sys2Proof.Machine.execLinkTraining width speed s
  | .stewardsBooted => Sys2Proof.Machine.execStewardsBooted s
  | .jtagInstruction ir => Sys2Proof.Machine.execJtagInstruction ir s

end Sys2Proof.Machine
end

