-- ==== Sys2Proof/Machine/Step.lean ====
section
/-!
DEFINITION. The step: the command at the front of the queue is served; on an empty queue the block idles (DESIGN CHOICE: log entry 2).
-/

namespace Sys2Proof.Machine

/-- One step of the block. (DESIGN CHOICE, log entry 2.) -/
def step (s : State) : Host.Outcome State Fault Refusal :=
  match s.pending with
  | [] => .next s
  | c :: rest => exec c { s with pending := rest }

/-- `s` with the command a word spells at the front of its queue; no row of the table has bits, so no word spells one. (DESIGN CHOICE, log entry 2.) -/
def State.withFetchWord (s : State) (nbits w : Nat) : State :=
  match decodeTableWord nbits w with
  | some c => { s with pending := c :: s.pending }
  | none => s

end Sys2Proof.Machine
end

