-- ==== Sys2Proof/Safety.lean ====
section
/-!
DEFINITION. What counts as a safe state of the part: no channel can have both switches on, no latched or out-of-service channel is
released.
-/

namespace Sys2Proof.Machine

/-- The gates `hs` and `ls` with the edges programmed for them: never both on, now or after any of the edges, which stand in
the order of their positions (R111, R112). -/
def edgesSound : Bool → Bool → List Edge → Bool
  | hs, ls, [] => !(hs && ls)
  | hs, ls, e :: es =>
    !(hs && ls) && es.all (fun x => decide (e.pos ≤ x.pos)) && edgesSound (if e.high then e.on else hs) (if e.high then ls else e.on) es

/-- The gates of a channel's modulator are sound. -/
def Mod.sound (m : Mod) : Bool := edgesSound m.hs m.ls m.plan

/-- A channel is sound: its gates are, and while it is released it is neither latched nor out of service (R161, R176, R181, R501). -/
def Chan.sound (x : Chan) : Bool := x.mod.sound && (!x.prot.released || (!x.prot.latched && decide (x.prot.oos = 0)))

/-- Every channel of a bank is sound. -/
def Sound (chs : Bank Chan 128) : Prop := ∀ c : Ch, chs[c].sound = true

/-- A safe state of the part: every channel is sound. -/
abbrev Safe (d : Dev) : Prop := Sound d.chs

end Sys2Proof.Machine
end

