-- ==== Sys2Proof/Certificates/Slice0/Obligations.lean ====
section
/-!
DEFINITION. The statements for the provers, in the order of the specification's chapters. Numbers of opcodes and statuses are those of Tables 13-6, 14-1 and 14-2.
-/

open Sys2Proof Sys2Proof.Machine

/-- A step takes the command at the front of the queue and is exec of that command on the state with the queue's rest, for every command and state;
with an empty queue the block idles and the state stands (the model's choice, log entry 2). -/
def Obligations.StepServesFront : Prop :=
  (∀ (c : Instr) (s : State), step { s with pending := c :: s.pending } = exec c s) ∧
  ∀ d : Dev, step ⟨[], d⟩ = .next ⟨[], d⟩

/-- Every command completes: exec answers a next state for every command and operands in every state, and it leaves the commands that wait in the
queue as they were (the model's form of the table: no command of the specification stops the block). The model's own choices and readings in it: log
entry 2. -/
def Obligations.EveryCommandAnswers : Prop :=
  ∀ (c : Instr) (q : List Instr) (d : Dev), ∃ u : Dev, exec c ⟨q, d⟩ = .next ⟨q, u⟩

/-- The state at reset, as the specification's register tables give it. Commands: none wait. Guard (Tables 6-6 to 6-8): audio reset is asserted, the
history is empty, no event stands, and each channel has ILIM 130, blanking 12, TRIP_COUNT 16, window 64, DC_TIME 50 and DC_THRESH 200 in their units.
Modulator (Tables 4-9 to 4-17): dead time 40, feed-forward on with reference 18,000, the word 0x40_0000, period 256, e1 and e2 0, gates off, no
collision. Timebase (Tables 2-6 to 2-9): FREERUN, N 18, sources 1, 2 and 3, no event. Rails: threshold 195.00 V with 5.00 V hysteresis in 10 mV,
precharge off. Queues: EN and RDY 0, no queue, weights 15, 3 and 0. Measurement class 4, not measured. Shank: continuous 1,280, peak 3,200, throttle
threshold 120.0 °C. Growth: none. Gains of group masters 1. -/
def Obligations.ResetValues : Prop :=
  let d := State.reset.dev
  State.reset.pending = [] ∧
  d.guard.audioReset = true ∧ d.guard.ready = false ∧ d.guard.history = [] ∧ d.guard.event = 0 ∧ d.guard.thermLatch = false ∧
  (∀ c : Ch, let x := d.chs[c]
    x.cfg.ilim = 130 ∧ x.cfg.blank = 12 ∧ x.cfg.tripCount = 16 ∧ x.cfg.tripWindow = 64 ∧ x.cfg.dcTime = 50 ∧ x.cfg.dcThresh = 200 ∧
    x.cfg.deadTime = 40 ∧ x.cfg.ffEn = true ∧ x.cfg.ffRef = 18000 ∧ x.mod.duty = 0x400000#24 ∧ x.mod.period = 256 ∧ x.mod.e1 = 0 ∧ x.mod.e2 = 0 ∧
    x.mod.hs = false ∧ x.mod.ls = false ∧ x.mod.plan = [] ∧ x.mod.collisions = 0 ∧ x.prot.released = false ∧ x.prot.latched = false ∧
    x.prot.oos = 0 ∧ x.measClass = 4) ∧
  d.tb.state = .freerun ∧ d.tb.n = 18 ∧ d.tb.src = [1, 2, 3] ∧ d.tb.event = 0 ∧ d.tb.snapReady = false ∧
  d.rails.riseThr = 19500 ∧ d.rails.riseHyst = 500 ∧ d.rails.preState = 0 ∧ d.rails.clampP = false ∧ d.rails.clampN = false ∧
  d.qif.en = false ∧ d.qif.rdy = false ∧ d.qif.queues = [] ∧ d.qif.errCount = 0 ∧ (d.qif.wHigh, d.qif.wMed, d.qif.wLow) = (15, 3, 0) ∧
  d.shank.pCont = 1280 ∧ d.shank.pPeak = 3200 ∧ d.shank.thrSet = 1200 ∧ d.shank.throttle = false ∧
  d.core.image = none ∧ d.admin.telemetryMs = 1000 ∧ d.growth.member = 0 ∧ d.growth.growth = 0 ∧
  (∀ g : RGroup, d.groupRel[g] = false) ∧ ∀ g : Fin 64, d.mix.groups[g].gain = 0x100000

/-- The state at reset is safe: no channel's two switches are or can come to be on together, and no channel is released, so none that is latched or
out of service is (R111, R112, R161, R181). -/
def Obligations.ResetIsSafe : Prop :=
  Safe State.reset.dev

/-- Every step keeps a safe state safe, whatever the command: if no channel's switches can both be on, now or after any edge programmed for the
period, and no latched or out-of-service channel is released, the same holds of the state after the step (R111, R112, R161, R176, R181, R501). -/
def Obligations.StepKeepsSafe : Prop :=
  ∀ s t : State, Safe s.dev → step s = .next t → Safe t.dev

/-- REF_QUALIFIED sets the entry's QUAL bit (and `REFIN_RATE` for REFIN), and notes the Fi boundary from which the source stays qualified, exactly
where the entry names a source, a serial port only while it is an enabled slave (R44, R45, R47). REF_DISQUALIFIED of a qualified entry clears its QUAL
bit; the loss of the source Fi is locked to sets REF_LOSS, and HOLDOVER is entered where the active source isn't qualified any more and no other is,
or `AUTO_FALLBACK` is 0, in no other case (R46, R48, R53, Table 2-2); everything outside the timebase and the event's message stands. The model's own
choices and readings in it: log entry 4. -/
def Obligations.SourcesQualifyAndAreLost : Prop :=
  (∀ (q : List Instr) (d : Dev) (e : Fin 3) (rate : Fin 8),
     let x := entrySrc d.tb e.val
     let port := (look d.ports.sap d.tb.sapSel Sap.reset).fmt
     (d.guard.audioReset = false → x ≠ 0 → (x = 3 → port.master = false ∧ port.en = true) →
       exec (.refQualified e rate) ⟨q, d⟩ = .next ⟨q, { d with tb := { d.tb with
         qual := d.tb.qual ||| (1#3 <<< e.val)
         qualAt := if entryQual d.tb e.val then d.tb.qualAt else d.tb.qualAt.set x.toNat (hereStc d)
         refinRate := if x = 2 then (if d.tb.refinMode then 0 else rate.val) else d.tb.refinRate } }⟩) ∧
     ((d.guard.audioReset = true ∨ x = 0 ∨ (x = 3 ∧ (port.master = true ∨ port.en = false))) →
       exec (.refQualified e rate) ⟨q, d⟩ = .next ⟨q, d⟩)) ∧
  (∀ (q : List Instr) (d : Dev) (e : Fin 3),
     let x := entrySrc d.tb e.val
     let t := { d.tb with qual := d.tb.qual &&& ~~~(1#3 <<< e.val) }
     let held := d.tb.state = .locked ∧ srcQual t d.tb.active = false ∧ (d.tb.autoFallback = false ∨ bestSrc t = 0)
     (entryQual d.tb e.val = false → exec (.refDisqualified e) ⟨q, d⟩ = .next ⟨q, d⟩) ∧
     (entryQual d.tb e.val = true → ∃ u : Dev, exec (.refDisqualified e) ⟨q, d⟩ = .next ⟨q, u⟩ ∧
       u = { d with tb := u.tb, qif := u.qif } ∧
       u.tb.qual = t.qual ∧ u.tb.src = d.tb.src ∧ u.tb.stc = d.tb.stc ∧ u.tb.n = d.tb.n ∧
       (x = 2 → u.tb.refinRate = 0) ∧ (x = 1 → u.tb.marksPresent = false) ∧
       (d.tb.state = .locked ∧ d.tb.active = x → u.tb.event.getLsbD 0 = true ∧ u.tb.lost = x) ∧
       (held → u.tb.state = .holdover ∧ u.tb.active = 0 ∧ u.tb.slewing = false ∧ u.tb.lost = d.tb.active) ∧
       (¬held → u.tb.state = d.tb.state ∧ u.tb.active = d.tb.active)))

/-- REF_SELECT and REF_REVERT: while a release group is released the rate slews to the new source and the timebase is LOCKED at once, otherwise Fi
steps and LOCK_ACQUIRED makes it LOCKED; a change of source sets REF_SWITCH; SLEW_END ends a slew (R49 to R52). REF_REVERT, with `REVERT` set and Fi
locked, goes to the first entry's source that has higher priority than the active one and has stayed qualified for 960,000 Fi periods, which are 10 s.
In audio reset, during a step, or with nothing to select, REF_SELECT selects nothing; once it was the last event its Fi boundary brings, the commands
due there run (R401, `boundaryDone`). REF_REVERT, SLEW_END and LOCK_ACQUIRED do nothing outside their conditions. FRAME_LOST marks the frame marks
absent and sets its bit, once per absence (R64); outside HOLDOVER HOLD_EXPIRED does nothing, and without a request SNAP_CAPTURE takes none. The
model's own choices and readings in it: log entries 4, 12. -/
def Obligations.SourceSelection : Prop :=
  (∀ (q : List Instr) (d : Dev) (e : Fin 3),
     let x := wanted d.tb
     let b := entrySrc d.tb e.val
     let free := d.guard.audioReset = false ∧ d.tb.stepping = false ∧ x ≠ 0
     let stays := fun k : Fin 3 => entryQual d.tb k.val = true ∧ srcRank d.tb (entrySrc d.tb k.val) < srcRank d.tb d.tb.active ∧
       d.tb.qualAt.getD (entrySrc d.tb k.val).toNat 0 + 960000 ≤ d.tb.stc
     let back := d.tb.revert = true ∧ d.tb.state = .locked ∧ stays e ∧ ∀ k : Fin 3, k < e → ¬stays k
     let switched := fun y : BitVec 2 => if y = d.tb.active then d else setTb d 1
     let slewed := fun y : BitVec 2 => { switched y with tb := { (switched y).tb with
       state := .locked, active := y, slewing := true, stepping := false, target := 0 } }
     let stepped := fun y : BitVec 2 => { switched y with tb := { (switched y).tb with stepping := true, target := y } }
     (free → anyGroup d = true → exec .refSelect ⟨q, d⟩ = .next ⟨q, boundaryDone .select (slewed x)⟩) ∧
     (free → anyGroup d = false → exec .refSelect ⟨q, d⟩ = .next ⟨q, boundaryDone .select (stepped x)⟩) ∧
     (¬free → exec .refSelect ⟨q, d⟩ = .next ⟨q, boundaryDone .select d⟩) ∧
     (back → exec .refRevert ⟨q, d⟩ = .next ⟨q, if anyGroup d then slewed b else stepped b⟩) ∧
     (d.tb.revert = false ∨ d.tb.state ≠ .locked ∨ (∀ k : Fin 3, ¬stays k) → exec .refRevert ⟨q, d⟩ = .next ⟨q, d⟩) ∧
     (d.tb.stepping = true → exec .lockAcquired ⟨q, d⟩ = .next ⟨q, { d with tb := { d.tb with
       stepping := false, state := .locked, active := d.tb.target, target := 0 } }⟩) ∧
     (d.tb.stepping = false → exec .lockAcquired ⟨q, d⟩ = .next ⟨q, d⟩) ∧
     (d.tb.slewing = true → exec .slewEnd ⟨q, d⟩ = .next ⟨q, { d with tb := { d.tb with
       slewing := false, state := .locked } }⟩) ∧
     (d.tb.slewing = false → exec .slewEnd ⟨q, d⟩ = .next ⟨q, d⟩)) ∧
  (∀ (q : List Instr) (d : Dev),
     (d.tb.marksPresent = true → exec .frameLost ⟨q, d⟩ = .next ⟨q, setTb { d with tb := { d.tb with
       marksPresent := false, period := 0, marks := [] } } 4⟩) ∧
     (d.tb.marksPresent = false → exec .frameLost ⟨q, d⟩ = .next ⟨q, d⟩) ∧
     (d.tb.state ≠ .holdover → exec .holdExpired ⟨q, d⟩ = .next ⟨q, d⟩) ∧
     (d.tb.snapPend = false → exec .snapCapture ⟨q, d⟩ = .next ⟨q, boundaryDone .snap d⟩))

/-- HOLD_EXPIRED while in HOLDOVER sets its event bit, with its interrupt, and changes nothing else, so that Fi keeps the held frequency (R54). A
write of 1 to REQ sets READY to 0 and leaves the data fields; the next Fi boundary's SNAP_CAPTURE loads every snapshot field, increments SEQ and sets
READY (R67). After the last event that an Fi boundary brings, which SNAP_CAPTURE may be, the commands due there run (`boundaryDone`). -/
def Obligations.HoldoverMarksAndSnapshot : Prop :=
  ∀ (q : List Instr) (d : Dev),
    (d.tb.state = .holdover → exec .holdExpired ⟨q, d⟩ = .next ⟨q, setTb d 2⟩) ∧
    (d.guard.audioReset = false → exec .snapReq ⟨q, d⟩ = .next ⟨q, { d with tb := { d.tb with
      snapPend := true, snapReady := false } }⟩) ∧
    (d.tb.snapPend = true → exec .snapCapture ⟨q, d⟩ = .next ⟨q, boundaryDone .snap { d with tb := { d.tb with
      snapPend := false
      snapReady := true
      snapSeq := (d.tb.snapSeq + 1) % 256
      snapStc := d.tb.stc
      snapFrame := d.tb.markFrame
      snapPhase := d.tb.markPhase
      snapValid := d.tb.markValid
      snapMstc := d.tb.markStc } }⟩)

/-- ZAITH_WORD: every word gets its answering word, the next of eight, and no channel, group, rail or guard register changes; one whose CRC-8 is wrong
changes nothing else; a right one with index 2 stores the partner's identity, and one with an index from 3 on stores nothing; with its MARK bit it
also keeps the mark's place until the cycle's frame count is complete, index 0 being the count's low part and index 1, after it, its high part and the
rate (R568 to R570). In audio reset a word does nothing. The model's own choices and readings in it: log entries 4, 11. -/
def Obligations.ZaithWordTakenIn : Prop :=
  ∀ (q : List Instr) (d : Dev) (w : W64) (phase : Nat),
    (d.guard.audioReset = true → exec (.zaithWord w phase) ⟨q, d⟩ = .next ⟨q, d⟩) ∧
    (d.guard.audioReset = false →
      let answer := fun t : Timebase => { t with ztx := ztxWord t, ztxIdx := (t.ztxIdx + 1) % 8 }
      let right := zaithCrc w.toNat = bits w.toNat 56 8
      let idx := bits w.toNat 5 3
      let marked := if w.getLsbD 4 then { d.tb with markWait := some (markPlace d phase), markCycle := false } else d.tb
      (∃ u : Dev, exec (.zaithWord w phase) ⟨q, d⟩ = .next ⟨q, u⟩ ∧ u.tb.ztxIdx = (d.tb.ztxIdx + 1) % 8 ∧ u.chs = d.chs ∧
        u.groupRel = d.groupRel ∧ u.rails = d.rails ∧ u.guard = d.guard) ∧
      (¬right → exec (.zaithWord w phase) ⟨q, d⟩ = .next ⟨q, { d with tb := answer d.tb }⟩) ∧
      (right → idx = 2 → exec (.zaithWord w phase) ⟨q, d⟩ = .next ⟨q, { d with tb := answer { marked with
        partner := bits w.toNat 8 32 } }⟩) ∧
      (right → 3 ≤ idx → exec (.zaithWord w phase) ⟨q, d⟩ = .next ⟨q, { d with tb := answer marked }⟩) ∧
      (right → idx = 0 → exec (.zaithWord w phase) ⟨q, d⟩ = .next ⟨q, { d with tb := answer { marked with
        frameLow := bits w.toNat 8 32, lowSeen := true, markCycle := marked.markWait.isSome } }⟩) ∧
      (right → idx = 1 → d.tb.lowSeen = false → exec (.zaithWord w phase) ⟨q, d⟩ = .next ⟨q, { d with tb := answer { marked with
        zaithRate := bit (bits w.toNat 8 32) 16, lowSeen := false } }⟩) ∧
      (right → idx = 1 → d.tb.lowSeen = true → marked.markCycle = false → d.qif.flights = [] → ∃ u : Dev,
        exec (.zaithWord w phase) ⟨q, d⟩ = .next ⟨q, u⟩ ∧ u = { d with tb := u.tb, qif := u.qif } ∧
        u.tb.frameCount = d.tb.frameLow + 2 ^ 32 * (bits w.toNat 8 32 % 2 ^ 16) ∧ u.tb.frameSeen = true ∧
        u.tb.zaithRate = bit (bits w.toNat 8 32) 16 ∧ u.tb.stc = d.tb.stc ∧
        (d.tb.frameSeen = true → d.tb.frameCount + 1 < u.tb.frameCount → u.tb.event.getLsbD 3 = true)) ∧
      (∀ (stc ph : Nat), right → idx = 1 → d.tb.lowSeen = true → w.getLsbD 4 = false → d.tb.markWait = some (stc, ph) →
        d.tb.markCycle = true → d.qif.flights = [] → ∃ u : Dev, exec (.zaithWord w phase) ⟨q, d⟩ = .next ⟨q, u⟩ ∧
        u.tb.markValid = true ∧ u.tb.marksPresent = true ∧ u.tb.markStc = stc ∧ u.tb.markPhase = ph ∧ u.tb.markWait = none ∧
        u.tb.markFrame = d.tb.frameLow + 2 ^ 32 * (bits w.toNat 8 32 % 2 ^ 16)))

/-- FI_BOUNDARY: the first one of the timebase, in FREERUN or LOCKED, is STC 0, every later one, which comes with the Nth carrier boundary, advances
STC by 1, whatever commands take effect there, and the carrier boundaries of the new period are counted from 0 (R58). -/
def Obligations.FiBoundaryAdvancesStc : Prop :=
  ∀ (q : List Instr) (d : Dev) (means : List FiMean) (sapBits : List (List Nat)),
    (d.guard.audioReset = false → d.tb.running = true → (d.tb.started = true ∨ d.tb.state ≠ .holdover) →
      (d.tb.started = true → d.tb.n ≤ d.tb.m) → ∃ u : Dev,
      exec (.fiBoundary means sapBits) ⟨q, d⟩ = .next ⟨q, u⟩ ∧
      u.tb.stc = (if d.tb.started then d.tb.stc + 1 else 0) ∧ u.tb.started = true ∧ u.tb.m = 0 ∧ u.tb.running = true)

/-- CARRIER_BOUNDARY, one of the N of an Fi period of a running timebase, after the commands of the Fi boundary that still wait (`runCmds`, R401): the
boundary count advances by one, every counter runs, the power tiles take the rail samples, a rail above the rise threshold asserts its clamp (R155), a
waiting safe stop opens (R164), and no channel is latched or cleared; past the last one, in audio reset or without a running timebase nothing else
happens (R58, R103). What a carrier boundary does to the modulator of a channel in its loop (R107, R117, R119, R577, Table 4-3): a word that waits in
the shadow becomes the pending word together with the rail sample before it, without one the pending word is repeated with the rails it was accepted
with, a collision takes either word, and a word the loop left out counts as late; a channel without a loop in the image has half duty. FI_BOUNDARY in
audio reset, without a running timebase, before the first one while in HOLDOVER, or with fewer than N carrier boundaries since the last one (R41) does
nothing. The model's own choices and readings in it: log entries 4, 14. -/
def Obligations.CarrierBoundaries : Prop :=
  (∀ (q : List Instr) (d : Dev) (samples : List Sample) (rails : List RailSample),
     let e := if d.tb.running then runCmds d else d
     (e.guard.audioReset = false → e.tb.running = true → e.tb.m < e.tb.n → ∃ u : Dev,
       exec (.carrierBoundary samples rails) ⟨q, d⟩ = .next ⟨q, u⟩ ∧
       u.tb = { e.tb with m := e.tb.m + 1 } ∧
       (∀ t : PTile, u.power[t].rail = rails.getD t.val ⟨0, 0⟩) ∧
       (∀ c : Ch, u.chs[c].mod.counting = true ∧ u.chs[c].prot.latched = e.chs[c].prot.latched ∧
         u.chs[c].prot.released = e.chs[c].prot.released ∧ u.chs[c].prot.ssPend = false ∧
         (e.chs[c].prot.ssPend = true → u.chs[c].prot.drive = .safeStop)) ∧
       ((∃ t : PTile, (e.rails.riseThr : Int) < 10 * (rails.getD t.val ⟨0, 0⟩).pvp) → u.rails.clampP = true) ∧
       ((∃ t : PTile, (e.rails.riseThr : Int) < -10 * (rails.getD t.val ⟨0, 0⟩).pvn) → u.rails.clampN = true) ∧
       u.groupRel = e.groupRel ∧ u.groupRamp = e.groupRamp ∧ u.shank = e.shank ∧ u.cob = e.cob ∧ u.growth = e.growth) ∧
     (e.guard.audioReset = true ∨ e.tb.running = false ∨ e.tb.n ≤ e.tb.m →
       exec (.carrierBoundary samples rails) ⟨q, d⟩ = .next ⟨q, e⟩)) ∧
  (∀ (x : Chan) (man : Mod) (rails : RailSample) (take : Bool),
     x.mod.halted = false → x.mod.manual = false → x.mod.manPend = none → x.prot.ssPend = false → x.prot.drive = .loop →
     let y := boundaryMod x man rails take
     (x.mod.nearPrev = none → x.mod.shadowNew = true → y.mod.pending = x.mod.shadow ∧ y.mod.pendRails = rails ∧ y.mod.shadowNew = false) ∧
     (x.mod.nearPrev = none → x.mod.shadowNew = false → x.cfg.inUse = true → y.mod.pending = x.mod.pending ∧
       y.mod.pendRails = if x.mod.wordIn then x.mod.pendRails else rails) ∧
     (x.mod.nearPrev = none → x.mod.shadowNew = false → x.cfg.inUse = false → y.mod.pending = halfDuty ∧ y.mod.pendRails = rails) ∧
     (∀ prev : Option Q23, x.mod.nearPrev = some prev → x.cfg.inUse = true → y.mod.collPend = true ∧ y.mod.nearPrev = none ∧
       y.mod.pending = if take then x.mod.shadow else prev.getD x.mod.pending) ∧
     (x.mod.nearPrev = none → x.mod.handoff = [] ∨ x.cfg.inUse = false → y.late = x.late) ∧
     (x.mod.handoff ≠ [] → x.cfg.inUse = true → x.late < 0xFFFFFFFF → y.late = x.late + 1) ∧
     y.prot = x.prot ∧ y.cfg = x.cfg ∧ y.mod.hs = x.mod.hs ∧ y.mod.ls = x.mod.ls ∧ y.mod.plan = x.mod.plan) ∧
  (∀ (q : List Instr) (d : Dev) (means : List FiMean) (sapBits : List (List Nat)),
     d.guard.audioReset = true ∨ d.tb.running = false ∨ (d.tb.started = false ∧ d.tb.state = .holdover) ∨
       (d.tb.started = true ∧ d.tb.m < d.tb.n) →
       exec (.fiBoundary means sapBits) ⟨q, d⟩ = .next ⟨q, d⟩)

/-- TAKE_UP of a channel in its loop, which no measurement holds: the word w in use, or its feed-forward d' where the channel's feed-forward is on, is
requantized by R109 over the period of 4,096 fine steps, second order, with errors reset to 0 where y leaves 0 to 4,095; only this channel's
modulator, the event counters, the capture units and the model's free counter change. Units of e1 and e2 are 2^(-11) fine step. Every take-up of a
running, unhalted channel begins a channel period (R175) with the compare values written since in force, and leaves channels outside its pair, the
guard, the rails and the timebase alone; a channel whose counter doesn't run yet, or that is halted, has none (R103, R135). MID_PERIOD_TAKE_UP: with
`UPD` set for the middle of the period, a running, unhalted channel whose drive takes its word there takes its pending word up at count 128, by R106
and R109, and only its modulator, the capture units and the model's free counter change; a channel set for count 0, or one that is halted, stopped or
driven by hand, does nothing there (R117, R121, R135). The model's own choices and readings in it: log entry 4. -/
def Obligations.TakeUps : Prop :=
  (∀ (q : List Instr) (d : Dev) (c : Ch),
     let x := d.chs[c]
     (x.mod.counting = true → x.mod.halted = false → ∃ u : Dev, exec (.takeUp c) ⟨q, d⟩ = .next ⟨q, u⟩ ∧
       u.chs[c].prot.perIdx = x.prot.perIdx + 1 ∧ u.chs[c].mod.cmpANow = x.mod.cmpA ∧ u.chs[c].mod.cmpBNow = x.mod.cmpB ∧
       u.chs[c].segSwap = [false, false] ∧ u.chs[c].cfg = x.cfg ∧ u.chs[c].prot.latched = x.prot.latched ∧
       (∀ k : Ch, k ≠ c → k ≠ lead d c → u.chs[k] = d.chs[k]) ∧ u.guard = d.guard ∧ u.rails = d.rails ∧ u.tb = d.tb ∧
       u.power = d.power ∧ u.groupRel = d.groupRel) ∧
     (x.mod.counting = false ∨ x.mod.halted = true → exec (.takeUp c) ⟨q, d⟩ = .next ⟨q, d⟩) ∧
     (x.mod.counting = true → x.mod.halted = false → x.mod.exitHold = 0 → x.prot.drive = .loop →
       d.chs[lead d c].meas = none → x.cfg.updMid = false → ∃ (u : Dev) (r1 : Bool),
         let w := wordMag x.mod.pending
         let (w', sat) := if x.cfg.ffEn then feedForward w x.cfg.ffRef x.mod.pendRails r1 else (w, false)
         let v : Int := (w' : Int) - 2 * x.mod.e1 + x.mod.e2
         let y : Int := Int.fdiv (v + 2 ^ 10) (2 ^ 11)
         exec (.takeUp c) ⟨q, d⟩ = .next ⟨q, u⟩ ∧
         u = { d with chs := u.chs, evi := u.evi, awl := u.awl, free := u.free } ∧
         (∀ k : Ch, k ≠ c → u.chs[k] = d.chs[k]) ∧
         u.chs[c].mod.duty = BitVec.ofNat 24 w' ∧ u.chs[c].mod.period = 256 ∧ u.chs[c].mod.flags.ffSat = sat ∧
         (y < 0 → u.chs[c].mod.edge = 0 ∧ u.chs[c].mod.e1 = 0 ∧ u.chs[c].mod.e2 = 0) ∧
         (4095 < y → u.chs[c].mod.edge = 4095 ∧ u.chs[c].mod.e1 = 0 ∧ u.chs[c].mod.e2 = 0) ∧
         (0 ≤ y ∧ y ≤ 4095 → (u.chs[c].mod.edge : Int) = y ∧ u.chs[c].mod.e1 = y * 2 ^ 11 - v ∧ u.chs[c].mod.e2 = x.mod.e1) ∧
         u.chs[c].mod.shadow = x.mod.shadow ∧ u.chs[c].mod.collisions = x.mod.collisions ∧ u.chs[c].cfg = x.cfg ∧
         u.chs[c].prot = { x.prot with perIdx := x.prot.perIdx + 1 })) ∧
  (∀ (q : List Instr) (d : Dev) (c : Ch),
     let x := d.chs[c]
     let takes := x.mod.counting = true ∧ x.mod.halted = false ∧ x.mod.exitHold = 0 ∧ x.cfg.updMid = true ∧
       (x.prot.drive = .loop ∨ x.prot.drive = .off ∨ (x.prot.drive = .measure ∧ x.prot.sweep = true))
     (takes → ∃ (u : Dev) (r1 r2 : Bool),
         let w := wordMag x.mod.pending
         let w' := if x.cfg.ffEn then (feedForward w x.cfg.ffRef x.mod.pendRails r1).1 else w
         exec (.midPeriodTakeUp c) ⟨q, d⟩ = .next ⟨q, u⟩ ∧
         u = { d with chs := u.chs, awl := u.awl, free := u.free } ∧ (∀ k : Ch, k ≠ c → u.chs[k] = d.chs[k]) ∧
         u.chs[c].mod.duty = BitVec.ofNat 24 w' ∧ u.chs[c].mod.period = 256 ∧ u.chs[c].prot = x.prot ∧ u.chs[c].cfg = x.cfg ∧
         (u.chs[c].mod.edge, u.chs[c].mod.e1, u.chs[c].mod.e2) = requantize w' 256 x.mod.e1 x.mod.e2 r2) ∧
     (¬takes → exec (.midPeriodTakeUp c) ⟨q, d⟩ = .next ⟨q, d⟩))

/-- The requantizer of R109 for every word, period and error state: the compare value stays below T, and inside that range the new error is the shaped
quantization error of at most half a fine step, so that y − x is a second difference of errors. -/
def Obligations.RequantizerShapesError : Prop :=
  ∀ (w p : Nat) (e1 e2 : Int) (up : Bool), w < 2 ^ 23 → 128 ≤ p → p ≤ 256 →
    let x := gridDiv ((w * (16 * p) * 2 ^ 11 : Nat) : Int) (2 ^ 23) up
    let r := requantize w p e1 e2 up
    r.1 < 16 * p ∧
    ((r.2.1 = 0 ∧ r.2.2 = 0) ∨
      (r.2.2 = e1 ∧ -(2 ^ 10) < r.2.1 ∧ r.2.1 ≤ 2 ^ 10 ∧ (r.1 : Int) * 2 ^ 11 - x = r.2.1 - 2 * e1 + e2))

/-- The edges a period programs never turn on one switch while the other is on: from gates that are not both on, every moment of the period `planFrom`
lays out has at most one switch on (R111, R112). -/
def Obligations.PlanNeverBothOn : Prop :=
  ∀ (y dt on t : Nat) (hs ls : Bool), ¬(hs = true ∧ ls = true) →
    let runs := fun (l : List Edge) => l.foldl (fun (g : Bool × Bool) e => if e.high then (e.on, g.2) else (g.1, e.on)) (hs, ls)
    (∀ k : Nat, let g := runs ((planFrom y dt on t hs ls).take k); ¬(g.1 = true ∧ g.2 = true)) ∧
    (on ≤ dt → ∀ now : Nat, let g := runs ((planFrom y dt on t hs ls).filter fun e => decide (e.pos ≤ now)); ¬(g.1 = true ∧ g.2 = true))

/-- GATE_EDGE performs the earliest programmed edge of the period and nothing else, a switch that turns on ending the hold of the sensed current
(R110, R111, R150); on a halted channel, with no edge programmed, or with the next edge past the period's end, nothing happens (R134, R174).
HALT_REQUEST with PERMIT 1, from the register or over JTAG, freezes exactly the channels of the halt mask, gates as they are, and without PERMIT or in
audio reset has no effect (R133, R134); HALT_END, once HALT is 0, realigns the frozen counters and puts into safe stop every released channel of which
a half that was halted is released (R136, R166); a write of 1 to CNT_CLR clears every collision counter and nothing else (R139). The model's own
choices and readings in it: log entry 4. -/
def Obligations.GateEdgesAndHalt : Prop :=
  (∀ (q : List Instr) (d : Dev) (c : Ch),
     let x := d.chs[c]
     (∀ (pos : Nat) (on : Bool) (rest : List Edge), x.mod.halted = false → x.mod.plan = ⟨pos, true, on⟩ :: rest → pos < 16 * x.mod.period →
       exec (.gateEdge c) ⟨q, d⟩ = .next ⟨q, d.ch c fun x => { x with mod := { x.mod with
         hs := on, plan := rest, held := if on then none else x.mod.held, edgeAt := if x.mod.hs = on then x.mod.edgeAt else pos } }⟩) ∧
     (∀ (pos : Nat) (on : Bool) (rest : List Edge), x.mod.halted = false → x.mod.plan = ⟨pos, false, on⟩ :: rest → pos < 16 * x.mod.period →
       exec (.gateEdge c) ⟨q, d⟩ = .next ⟨q, d.ch c fun x => { x with mod := { x.mod with
         ls := on, plan := rest, held := if on then none else x.mod.held, edgeAt := if x.mod.ls = on then x.mod.edgeAt else pos } }⟩) ∧
     (x.mod.halted = true ∨ x.mod.plan = [] ∨ (∃ e ∈ x.mod.plan.head?, 16 * x.mod.period ≤ e.pos) →
       exec (.gateEdge c) ⟨q, d⟩ = .next ⟨q, d⟩)) ∧
  (∀ (q : List Instr) (d : Dev) (jtag : Bool) (value : W32),
     let stops := fun c : Ch => ∃ h ∈ halves d c, d.chs[h].mod.halted = true ∧ d.chs[h].prot.released = true
     (d.guard.dbgPermit = true → d.guard.audioReset = false → ∃ u : Dev,
       exec (.haltRequest jtag) ⟨q, d⟩ = .next ⟨q, u⟩ ∧ u = { d with halt := true, chs := u.chs } ∧
       ∀ c : Ch, u.chs[c] = if haltNamed d c then { d.chs[c] with mod := { d.chs[c].mod with halted := true } } else d.chs[c]) ∧
     (d.guard.dbgPermit = false ∨ d.guard.audioReset = true → exec (.haltRequest jtag) ⟨q, d⟩ = .next ⟨q, d⟩) ∧
     (d.halt = false → ∃ u : Dev, exec .haltEnd ⟨q, d⟩ = .next ⟨q, u⟩ ∧ u = { d with chs := u.chs } ∧
       ∀ c : Ch, u.chs[c].mod = (if d.chs[c].mod.halted then { d.chs[c].mod with halted := false, phase := 0, plan := [] } else d.chs[c].mod) ∧
         u.chs[c].cfg = d.chs[c].cfg ∧ u.chs[c].prot.released = d.chs[c].prot.released ∧
         (stops c → d.chs[c].prot.released = true → u.chs[c].prot.drive = .safeStop ∧ u.chs[c].prot.ssPend = false) ∧
         (¬stops c ∨ d.chs[c].prot.released = false → u.chs[c].prot = d.chs[c].prot)) ∧
     (d.halt = true → exec .haltEnd ⟨q, d⟩ = .next ⟨q, d⟩) ∧
     (value.getLsbD 0 = true → d.guard.audioReset = false → ∃ u : Dev, exec (.cntClr value) ⟨q, d⟩ = .next ⟨q, u⟩ ∧
       u = { d with chs := u.chs } ∧
       ∀ c : Ch, u.chs[c] = { d.chs[c] with mod := { d.chs[c].mod with collisions := 0 } }) ∧
     (value.getLsbD 0 = false ∨ d.guard.audioReset = true → exec (.cntClr value) ⟨q, d⟩ = .next ⟨q, d⟩))

/-- PERIOD_EVENT and CMP_EVENT: the enabled event counters that select the event of the channel count it, saturating at DIV + 1, as long as the
channel's counter runs unhalted and the compare value lies below the period (R123, R124); outside 16 to 240 Fk ticks after a carrier boundary no
auxiliary sample reaches a capture unit, and nothing but counters and capture units changes; EVI_SIGNAL raises the vector once the count has passed
DIV and restarts it (R125). The model's own choices and readings in it: log entries 4, 16. -/
def Obligations.CounterEvents : Prop :=
  ∀ (q : List Instr) (d : Dev) (c : Ch) (ticks : Nat) (smp : Sample) (k : Fin 16),
    let m := d.chs[c].mod
    let runs := m.counting = true ∧ m.halted = false
    let counted := fun (e : Nat) => { d with evi := Vector.ofFn fun k : Fin 16 =>
      let (ch, ev, vec, en, div, cnt) := d.evi[k]
      if en = true ∧ ev = e ∧ (5 ≤ e ∨ ch = c.val) then (ch, ev, vec, en, div, min (cnt + 1) (div + 1)) else d.evi[k] }
    (runs → exec (.periodEvent c) ⟨q, d⟩ = .next ⟨q, counted 2⟩) ∧
    (¬runs → exec (.periodEvent c) ⟨q, d⟩ = .next ⟨q, d⟩) ∧
    (runs → m.cmpANow < m.period → (m.auxA = false ∨ ticks < 16 ∨ 240 < ticks) →
      exec (.cmpEvent c false ticks smp) ⟨q, d⟩ = .next ⟨q, counted 3⟩) ∧
    (runs → m.cmpBNow < m.period → (m.auxB = false ∨ ticks < 16 ∨ 240 < ticks) →
      exec (.cmpEvent c true ticks smp) ⟨q, d⟩ = .next ⟨q, counted 4⟩) ∧
    (∀ b : Bool, runs → (if b then m.cmpBNow else m.cmpANow) < m.period →
      ∃ u : Dev, exec (.cmpEvent c b ticks smp) ⟨q, d⟩ = .next ⟨q, u⟩ ∧ u = { counted (if b then 4 else 3) with awl := u.awl }) ∧
    (∀ b : Bool, ¬runs ∨ m.period ≤ (if b then m.cmpBNow else m.cmpANow) →
      exec (.cmpEvent c b ticks smp) ⟨q, d⟩ = .next ⟨q, d⟩) ∧
    (∀ (ch ev vec div cnt : Nat), d.evi[k] = (ch, ev, vec, true, div, cnt) → div < cnt →
      exec (.eviSignal k) ⟨q, d⟩ = .next ⟨q, signal { d with evi := d.evi.set k (ch, ev, vec, true, div, 0) } vec⟩) ∧
    (∀ (ch ev vec div cnt : Nat) (en : Bool), d.evi[k] = (ch, ev, vec, en, div, cnt) → en = false ∨ cnt ≤ div →
      exec (.eviSignal k) ⟨q, d⟩ = .next ⟨q, d⟩)

/-- Manual modulation. MAN_ENABLE_WRITE: an ENABLE that changes is accepted only where the image permits manual drive and the channel is released or
may be driven unreleased, and then waits, on both halves of a bridged pair, for the carrier boundary; the feed-forward bit is written either way, and
the odd half of a pair only holds the register's bits (R127, R128, R132). MAN_WORD_WRITE: the duty register or the period register, the period brought
within 128 to 256 Fk ticks, and in manual modulation, of an unhalted channel that is no odd half, the handshake of the word, a write less than one Fk
tick before the reload counting as a collision (R129, R130, R132). In audio reset neither does anything. DUTY_HANDOVER hands the oldest word the loop
has computed to the shadow word, replacing one that waits; a word less than one Fk tick before the reload, or at it, counts as a collision (R119,
R120); a halted, manual or safe-stopped channel discards the word (R129, R135, R167), and with no word computed nothing happens. The model's own
choices and readings in it: log entries 4, 14, 15. -/
def Obligations.ManualWordsAndHandover : Prop :=
  (∀ (q : List Instr) (d : Dev) (c : Ch) (value : W32) (near : Bool),
     let x := d.chs[c]
     let odd := bridgedB d c = true ∧ c.val % 2 = 1
     let en := value.getLsbD 0
     let accepted := en ≠ x.mod.manEnable ∧ (en = true → x.cfg.manPermit = true ∧ (x.prot.released = true ∨ manualAllowed d c = true))
     let hands := ¬odd ∧ x.mod.manual = true ∧ x.mod.halted = false ∧ x.prot.drive = .manual
     let p := max 128 (min 256 (value.toNat % 512))
     let hit := if near then min 0xFFFF (x.mod.collisions + 1) else x.mod.collisions
     (d.guard.audioReset = true → exec (.manEnableWrite c value) ⟨q, d⟩ = .next ⟨q, d⟩ ∧
       ∀ per : Bool, exec (.manWordWrite c per value near) ⟨q, d⟩ = .next ⟨q, d⟩) ∧
     (d.guard.audioReset = false → odd → exec (.manEnableWrite c value) ⟨q, d⟩ = .next ⟨q, d.ch c fun x => { x with mod := { x.mod with
       manEnable := en, manFF := value.getLsbD 1 } }⟩) ∧
     (d.guard.audioReset = false → ¬odd → accepted → ∃ u : Dev, exec (.manEnableWrite c value) ⟨q, d⟩ = .next ⟨q, u⟩ ∧
       u = { d with chs := u.chs } ∧ u.chs[c] = { x with mod := { x.mod with manFF := value.getLsbD 1, manEnable := en, manPend := some en } } ∧
       (∀ k ∈ halves d c, k ≠ c → u.chs[k] = { d.chs[k] with mod := { d.chs[k].mod with manPend := some en } }) ∧
       ∀ k : Ch, k ∉ halves d c → u.chs[k] = d.chs[k]) ∧
     (d.guard.audioReset = false → ¬odd → ¬accepted → exec (.manEnableWrite c value) ⟨q, d⟩ =
       .next ⟨q, d.ch c fun x => { x with mod := { x.mod with manFF := value.getLsbD 1 } }⟩) ∧
     (d.guard.audioReset = false → hands → exec (.manWordWrite c false value near) ⟨q, d⟩ = .next ⟨q, d.ch c fun x => { x with mod := { x.mod with
       manDuty := value.setWidth 24
       shadow := value.setWidth 24
       shadowNew := true
       nearPrev := if near then some (if x.mod.shadowNew then some x.mod.shadow else none) else none
       collisions := hit } }⟩) ∧
     (d.guard.audioReset = false → ¬hands → exec (.manWordWrite c false value near) ⟨q, d⟩ = .next ⟨q, d.ch c fun x => { x with mod := { x.mod with
       manDuty := value.setWidth 24 } }⟩) ∧
     (d.guard.audioReset = false → hands → exec (.manWordWrite c true value near) ⟨q, d⟩ = .next ⟨q, d.ch c fun x => { x with mod := { x.mod with
       manPeriod := p
       manShadowP := p
       manNewP := true
       nearPrevP := if near then some (if x.mod.manNewP then some x.mod.manShadowP else none) else none
       collisions := hit } }⟩) ∧
     (d.guard.audioReset = false → ¬hands → exec (.manWordWrite c true value near) ⟨q, d⟩ = .next ⟨q, d.ch c fun x => { x with mod := { x.mod with
       manPeriod := p } }⟩)) ∧
  (∀ (q : List Instr) (d : Dev) (c : Ch) (near : Bool),
     let x := d.chs[c]
     (∀ (w : Q23) (rest : List Q23), x.mod.handoff = w :: rest →
       (x.mod.halted = false → x.mod.manual = false → x.prot.drive ≠ .safeStop →
         exec (.dutyHandover c near) ⟨q, d⟩ = .next ⟨q, d.ch c fun x => { x with mod := { x.mod with
           handoff := rest
           shadow := w
           shadowNew := true
           nearPrev := if near then some (if x.mod.shadowNew then some x.mod.shadow else none) else none
           collisions := if near then min 0xFFFF (x.mod.collisions + 1) else x.mod.collisions } }⟩) ∧
       (x.mod.halted = true ∨ x.mod.manual = true ∨ x.prot.drive = .safeStop →
         exec (.dutyHandover c near) ⟨q, d⟩ = .next ⟨q, d.ch c fun x => { x with mod := { x.mod with handoff := rest } }⟩)) ∧
     (x.mod.handoff = [] → exec (.dutyHandover c near) ⟨q, d⟩ = .next ⟨q, d⟩))

/-- TILE_PERIOD_COMPLETE of a running logical tile with an image in force. Of an engine tile's Fc sequence: the tile's slack records keep the least
slack and the last count (R91); a sequence of more than 512 ticks skips the next one and counts a late word for those of the tile's eight channels
that count late words (R88, R90). Of Fi work: later than N carrier periods it counts as late and its results of the period are withheld (R89), and a
mix tile's of more than two periods skips the next (R90). Without an image, on a tile that doesn't run, or for an Fc sequence of a mix tile, nothing
happens. The model's own choices and readings in it: log entries 4, 30. -/
def Obligations.TilePeriodComplete : Prop :=
  ∀ (q : List Instr) (d : Dev) (t : LTile) (fi : Bool) (count : Nat),
    let p := d.core.tiles[t].phys
    let runs := imageOn d = true ∧ tileRuns d.core.tiles[t] = true
    let later := fun (x : Chan) => min 0xFFFFFFFF (x.late + 1)
    (runs → t.val < 16 → ∃ u : Dev, exec (.tilePeriodComplete t false count) ⟨q, d⟩ = .next ⟨q, u⟩ ∧
      u = { d with core := u.core, chs := u.chs } ∧
      (∀ k : Phys, k.val = p → u.core.slack[k].fcMin = min d.core.slack[k].fcMin (256 - count) ∧
        u.core.slack[k].fcLast = min 0xFFFF count) ∧
      (∀ k : Phys, k.val ≠ p → u.core.slack[k] = d.core.slack[k]) ∧
      (count ≤ 512 → u.chs = d.chs ∧ u.core.tiles = d.core.tiles) ∧
      (512 < count → u.core.tiles[t].skipFc = true ∧
        ∀ c : Ch, u.chs[c].late = if c.val / 8 = t.val ∧ countsLate d.chs[c] = true then later d.chs[c] else d.chs[c].late)) ∧
    (runs → ∃ u : Dev, exec (.tilePeriodComplete t true count) ⟨q, d⟩ = .next ⟨q, u⟩ ∧ u = { d with core := u.core, chs := u.chs } ∧
      (∀ k : Phys, k.val = p → u.core.slack[k].fiMin = min d.core.slack[k].fiMin (256 * d.tb.n - count)) ∧
      (256 * d.tb.n < count → u.core.tiles[t].lateNext = true) ∧
      (count ≤ 256 * d.tb.n → u.core.tiles[t].lateNext = d.core.tiles[t].lateNext) ∧
      (t.val < 16 ∨ count ≤ 512 * d.tb.n → u.chs = d.chs ∧ u.core.tiles[t].skipNext = d.core.tiles[t].skipNext) ∧
      (16 ≤ t.val → 512 * d.tb.n < count → u.core.tiles[t].skipNext = true ∧
        ∀ c : Ch, u.chs[c].late = if 16 + c.val / 32 = t.val ∧ countsLate d.chs[c] = true then later d.chs[c] else d.chs[c].late)) ∧
    (¬runs ∨ (fi = false ∧ 16 ≤ t.val) → exec (.tilePeriodComplete t fi count) ⟨q, d⟩ = .next ⟨q, d⟩)

/-- OUTER_BOUNDARY, every 32 Fi periods: each power tile's sag limiter moves on (R159), the power sums become the reports of the period that closes
(R275), the grant cycle to come is awaited, and nothing outside tiles, channels, power and the model's free counter changes; at any other boundary
nothing does (R255). After the last event that an Fi boundary brings, which it or a GRANT_CYCLE may be, the commands due there run (R401,
`boundaryDone`). GRANT_CYCLE at an outer boundary: the grants of the cycle before come into force, none of the new ones is below 1/64 (0x0200 in
UQ1.15, R466), the rise factor recovers by 1/128 up to 1 or falls to no less than 1/4 where a rail rose (R469), and the rise reports and the current
sums start anew; at any other boundary nothing happens (R463). The model's own choices and readings in it: log entries 19, 33. -/
def Obligations.OuterBoundaryAndGrants : Prop :=
  (∀ (q : List Instr) (d : Dev),
     (d.tb.started = true → d.tb.stc % 32 = 0 → ∃ u : Dev, exec .outerBoundary ⟨q, d⟩ = .next ⟨q, boundaryDone .outer u⟩ ∧
       u = { d with chs := u.chs, power := u.power, core := u.core, shank := { d.shank with fresh := false }, free := u.free } ∧
       (∀ t : PTile, u.power[t] = sagNext d.power[t] (preDone d)) ∧
       (∀ c : Ch, u.chs[c].sense.report = d.chs[c].sense.powSum ∧ u.chs[c].sense.powSum = 0 ∧ u.chs[c].prot = d.chs[c].prot ∧
         u.chs[c].mod = d.chs[c].mod)) ∧
     (d.tb.started = false ∨ d.tb.stc % 32 ≠ 0 → exec .outerBoundary ⟨q, d⟩ = .next ⟨q, boundaryDone .outer d⟩)) ∧
  (∀ (q : List Instr) (d : Dev),
     (d.guard.audioReset = false → d.tb.started = true → d.tb.stc % 32 = 0 → ∃ u : Dev,
       exec .grantCycle ⟨q, d⟩ = .next ⟨q, boundaryDone .grant u⟩ ∧
       u = { d with chs := u.chs, power := u.power, shank := u.shank, free := u.free,
                    rails := { d.rails with reportP := false, reportN := false } } ∧
       u.shank.govern = d.shank.grants ∧ (∀ c : Ch, 0x0200 ≤ u.shank.grants[c]) ∧ u.shank.fresh = true ∧
       (d.rails.reportP = false → d.rails.reportN = false → u.shank.fRise = min 128 (d.shank.fRise + 1) ∧
         u.shank.cycles = d.shank.cycles) ∧
       (d.rails.reportP = true ∨ d.rails.reportN = true → 32 ≤ u.shank.fRise) ∧
       (∀ t : PTile, u.power[t].sumP = 0 ∧ u.power[t].sumN = 0 ∧ u.power[t].cnt = 0) ∧
       (∀ c : Ch, u.chs[c] = { d.chs[c] with wear := u.chs[c].wear })) ∧
     (d.guard.audioReset = true ∨ d.tb.started = false ∨ d.tb.stc % 32 ≠ 0 → exec .grantCycle ⟨q, d⟩ = .next ⟨q, boundaryDone .grant d⟩))

/-- The Re windows of a channel whose image holds its EXCUR stitch (R269, R270): 2,400 Fi periods from the window origin RE_WINDOW_OPEN sets the
window bit of the lane's state word, with the pilot bit where the channel's pilot is enabled and it is the first window or the one before asked for
it; RE_WINDOW_CLOSE clears both and hands the window to THERMAL. Elsewhere neither does anything. After the last event that an Fi boundary brings the
commands due there run (R401, `boundaryDone`). -/
def Obligations.ReWindows : Prop :=
  ∀ (q : List Instr) (d : Dev) (c : Ch),
    let opened := fun (u : Dev) => Host.Outcome.next (φ := Fault) (ρ := Refusal) (State.mk q (boundaryDone (.windowOpen c.val) u))
    let closed := fun (u : Dev) => Host.Outcome.next (φ := Fault) (ρ := Refusal) (State.mk q (boundaryDone (.windowClose c.val) u))
    (excurOf d c = none ∨ d.chs[c].sense.winCnt = none → exec (.reWindowOpen c) ⟨q, d⟩ = opened d ∧ exec (.reWindowClose c) ⟨q, d⟩ = closed d) ∧
    ∀ (s : Stitch) (n : Nat), excurOf d c = some s → d.chs[c].sense.winCnt = some n →
      let t := etOf c
      let l := c.val % 4
      let st := (d.core.tiles[t].rd (s.dst + 23) l).num
      let ask := (d.core.tiles[t].rd (s.srcA + 6) l).num.testBit 5
      let pilot := d.chs[c].cfg.pilotEn && (decide (st / 65536 < 14400) || ask)
      (n = 2400 → st.testBit 2 = false → exec (.reWindowOpen c) ⟨q, d⟩ = opened ((d.tile t fun u => u.wr (s.dst + 23) l
        (.i (st - st / 2 % 4 * 2 + (if pilot then 2 else 0) + 4))).stat c fun y => { y with pilot := pilot })) ∧
      (n = 2400 → st.testBit 2 = true → ∃ u : Dev, exec (.reWindowClose c) ⟨q, d⟩ = closed u ∧
        u = { d with core := { d.core with tiles := u.core.tiles }, chs := u.chs } ∧ u.chs[c].sense.winClosed = true ∧ u.chs[c].stat.pilot = false ∧
        (∀ k : Ch, k ≠ c → u.chs[k] = d.chs[k]) ∧ (∀ k : LTile, k ≠ t → u.core.tiles[k] = d.core.tiles[k])) ∧
      (n ≠ 2400 ∨ st.testBit 2 = true → exec (.reWindowOpen c) ⟨q, d⟩ = opened d) ∧
      (n ≠ 2400 ∨ st.testBit 2 = false → exec (.reWindowClose c) ⟨q, d⟩ = closed d)

/-- RELEASE_GROUP. Refused NOT_READY, with nothing released, under each condition of R161: no image, precharge not complete, a rail outside its range
in the Fi period before, SAFE#, no presence, the thermal latch, or a TRIP pin that names one of its channels; INVALID_FIELD where the image has no
such group. While a channel of the group is in a safe stop the command waits. Otherwise every unreleased channel of the group that is neither latched
nor out of service is released, the group's ramp starts, the group counts as released (R581), and the command completes reporting the boundary with
CHANNEL_LATCHED where a channel stayed behind (R196, R414), with SUCCESS otherwise; channels outside the group's pairs stand. The model's own choices
and readings in it: log entries 44, 68. -/
def Obligations.ReleaseGroup : Prop :=
  ∀ (q : List Instr) (d : Dev) (r : CmdRef) (g : RGroup),
    let cs := groupChans d g
    let bad := fun c : Ch => ∃ h ∈ halves d c, d.chs[h].prot.latched = true ∨ d.chs[h].prot.oos ≠ 0
    (releaseRefused d g = true ↔ imageOn d = false ∨ d.rails.preState ≠ 4 ∨ d.rails.okLast = false ∨ d.guard.safe = true ∨ d.guard.prsnt = false ∨
      d.guard.thermLatch = true ∨ ∃ c ∈ cs, ∃ (p : Pin) (h : Ch), d.guard.trip.getLsbD p.val = true ∧ h ∈ halves d c ∧
        (d.guard.tripMask.getD p.val []).getD h.val false = true) ∧
    (releaseRefused d g = true →
      exec (.releaseGroup r g) ⟨q, d⟩ = .next ⟨q, completeAt d r 0x28 3 d.tb.stc⟩) ∧
    (releaseRefused d g = false → cs = [] →
      exec (.releaseGroup r g) ⟨q, d⟩ = .next ⟨q, completeAt d r 0x28 2 d.tb.stc⟩) ∧
    (releaseRefused d g = false → (∃ c ∈ cs, inStop d.chs[c] = true) →
      exec (.releaseGroup r g) ⟨q, d⟩ = .next ⟨q, { d with relWait := d.relWait ++ [(r, g.val)] }⟩) ∧
    (releaseRefused d g = false → (∀ c ∈ cs, inStop d.chs[c] = false) → cs ≠ [] → ∃ (u : Dev) (st : Nat),
      exec (.releaseGroup r g) ⟨q, d⟩ = .next ⟨q, completeAt u r 0x28 st d.tb.stc⟩ ∧
      ((∃ c ∈ cs, bad c) → st = 9) ∧ ((∀ c ∈ cs, ¬bad c) → st = 0) ∧
      u.groupRel[g] = true ∧ (∀ k : RGroup, k ≠ g → u.groupRel[k] = d.groupRel[k] ∧ u.groupRamp[k] = d.groupRamp[k]) ∧
      ((∃ c ∈ cs, ¬bad c ∧ d.chs[c].prot.released = false) → u.groupRamp[g] = some 0) ∧
      (∀ c ∈ cs, ¬bad c → u.chs[c].prot.released = true) ∧
      (∀ c ∈ cs, bad c → u.chs[c].prot.released = d.chs[c].prot.released) ∧
      (∀ c : Ch, u.chs[c].prot.latched = d.chs[c].prot.latched ∧ u.chs[c].prot.oos = d.chs[c].prot.oos) ∧
      (∀ k : Ch, (∀ c ∈ cs, k ≠ c ∧ k ≠ lead d c ∧ k ∉ halves d (lead d c)) → u.chs[k] = d.chs[k]) ∧
      u.guard = d.guard ∧ u.tb = d.tb ∧ u.power = d.power ∧ u.rails = d.rails ∧ u.cob = d.cob ∧ u.shank = d.shank)

/-- STOP_CHANNEL and STOP_GROUP with an image in force: every released channel named that is in no short check, with the other half of its bridged
pair, waits for its carrier boundary to enter safe stop or is in it, and the command waits for it (R164, R166, Table 13-9); the stop of a group also
ends its release and its ramp (R581). An unreleased channel's stop completes at once. No other channel changes, and no channel is latched or
unreleased at once. Without an image both are refused NOT_READY (R396). The end of a safe stop, of a release ramp and of a rail clamp. SAFE_STOP_END
after 16 half-duty periods turns both switches of the channel off and unreleases it (R164); RAMP_COMPLETE ends the group's ramp once its K Fi periods
have run (R163); CLAMP_RELEASE deasserts the clamp of its rail after a whole Fi period below the threshold less its hysteresis (R156). Each does
nothing outside its condition. The model's own choices and readings in it: log entries 4, 44. -/
def Obligations.StopsAndTheirEnds : Prop :=
  (∀ (q : List Instr) (d : Dev) (r : CmdRef) (c : Ch) (g : RGroup),
     let stopping := fun (u : Dev) (h : Ch) => u.chs[h].prot.released = true → u.chs[h].prot.drive = .safeStop ∨ u.chs[h].prot.ssPend = true
     (imageOn d = true → ∃ u : Dev, exec (.stopChannel r c) ⟨q, d⟩ = .next ⟨q, u⟩ ∧
       (∀ h ∈ halves d c, u.chs[h].conf = false ∧ u.chs[h].prot.released = d.chs[h].prot.released ∧
         u.chs[h].prot.latched = d.chs[h].prot.latched ∧ u.chs[h].cfg = d.chs[h].cfg ∧ (d.chs[c].prot.check = none → stopping u h)) ∧
       (∀ k : Ch, k ∉ halves d c → u.chs[k] = d.chs[k]) ∧
       ((∃ h ∈ halves d c, d.chs[h].prot.released = true) → (r, (halves d c).map (·.val), d.tb.stc) ∈ u.stops) ∧
       u = { d with chs := u.chs, stops := u.stops, qif := u.qif, admin := u.admin }) ∧
     (imageOn d = true → bridgedB d c = false → d.chs[c].prot.check = none → d.chs[c].mod.halted = false →
       d.chs[c].prot.released = true → d.chs[c].prot.drive ≠ .safeStop → d.stops = [] →
       exec (.stopChannel r c) ⟨q, d⟩ = .next ⟨q, { d with
         chs := d.chs.set c { d.chs[c] with conf := false, prot := { d.chs[c].prot with ssPend := true } }
         stops := [(r, [c.val], d.tb.stc)] }⟩) ∧
     (imageOn d = true → (∀ h ∈ halves d c, d.chs[h].prot.released = false) → d.stops = [] → ∃ u : Dev,
       exec (.stopChannel r c) ⟨q, d⟩ = .next ⟨q, completeAt u r 0x28 0 d.tb.stc⟩ ∧ u = { d with chs := u.chs }) ∧
     (imageOn d = true → ∃ u : Dev, exec (.stopGroup r g) ⟨q, d⟩ = .next ⟨q, u⟩ ∧
       u.groupRel = d.groupRel.set g false ∧ u.groupRamp = d.groupRamp.set g none ∧
       (∀ k ∈ groupChans d g, u.chs[k].conf = false ∧ u.chs[k].prot.released = d.chs[k].prot.released ∧
         u.chs[k].prot.latched = d.chs[k].prot.latched ∧ (d.chs[k].prot.check = none → stopping u k)) ∧
       (∀ k : Ch, (∀ c ∈ groupChans d g, k ∉ halves d c) → u.chs[k] = d.chs[k]) ∧
       u = { d with chs := u.chs, stops := u.stops, qif := u.qif, admin := u.admin, groupRel := u.groupRel, groupRamp := u.groupRamp }) ∧
     (imageOn d = false → exec (.stopChannel r c) ⟨q, d⟩ = .next ⟨q, refuse d r 0x28 3⟩ ∧
       exec (.stopGroup r g) ⟨q, d⟩ = .next ⟨q, refuse d r 0x28 3⟩)) ∧
  (∀ (q : List Instr) (d : Dev) (c : Ch) (g : RGroup),
     (d.chs[c].prot.drive = .safeStop → 16 ≤ d.chs[c].prot.ssCount → ∃ u : Dev, exec (.safeStopEnd c) ⟨q, d⟩ = .next ⟨q, u⟩ ∧
       u = { d with chs := u.chs, stops := u.stops, qif := u.qif, admin := u.admin } ∧ (∀ k : Ch, k ≠ c → u.chs[k] = d.chs[k]) ∧
       u.chs[c].mod.hs = false ∧ u.chs[c].mod.ls = false ∧ u.chs[c].mod.plan = [] ∧ u.chs[c].prot.released = false ∧
       u.chs[c].prot.drive = .off ∧ u.chs[c].prot.latched = d.chs[c].prot.latched) ∧
     (d.chs[c].prot.drive ≠ .safeStop ∨ d.chs[c].prot.ssCount < 16 → exec (.safeStopEnd c) ⟨q, d⟩ = .next ⟨q, d⟩) ∧
     (∀ k : Nat, d.groupRamp[g] = some k → d.rampLen[g] ≤ k →
       exec (.rampComplete g) ⟨q, d⟩ = .next ⟨q, { d with groupRamp := d.groupRamp.set g none }⟩) ∧
     (∀ k : Nat, d.groupRamp[g] = some k → k < d.rampLen[g] → exec (.rampComplete g) ⟨q, d⟩ = .next ⟨q, d⟩) ∧
     (d.groupRamp[g] = none → exec (.rampComplete g) ⟨q, d⟩ = .next ⟨q, d⟩) ∧
     (d.rails.clampP = true → d.rails.belowP = true → d.rails.clampFiP = true → exec (.clampRelease false) ⟨q, d⟩ =
       .next ⟨q, { d with rails := { d.rails with clampP := false, clampFiP := false } }⟩) ∧
     (d.rails.clampN = true → d.rails.belowN = true → d.rails.clampFiN = true → exec (.clampRelease true) ⟨q, d⟩ =
       .next ⟨q, { d with rails := { d.rails with clampN := false, clampFiN := false } }⟩) ∧
     (d.rails.clampP = false ∨ d.rails.belowP = false ∨ d.rails.clampFiP = false → exec (.clampRelease false) ⟨q, d⟩ = .next ⟨q, d⟩) ∧
     (d.rails.clampN = false ∨ d.rails.belowN = false ∨ d.rails.clampFiN = false → exec (.clampRelease true) ⟨q, d⟩ = .next ⟨q, d⟩))

/-- CLEAR_LATCH with an image in force, of a channel or of the bridged pair it belongs to: with no half latched, it completes at once; joining a
running check, it waits; refused under R193, a history record with cause 0x0E is written and it completes NOT_READY; otherwise step 1 of the short
check starts at the present boundary on every half, with the lower of ILIM and 2.0 A as the limit of its drive (R192 to R194, R197). Without an image
it is refused NOT_READY (R396). GRD_CLEAR_WRITE does the same for the channels it names, with no command to complete, and leaves other channels alone;
a mask of no bits does nothing. The model's own choices and readings in it: log entries 4, 44. -/
def Obligations.LatchClearStarts : Prop :=
  ∀ (q : List Instr) (d : Dev) (r : CmdRef) (c : Ch) (m : Fin 4) (mask : W32),
    let l := lead d c
    let latched := ∃ h ∈ halves d c, d.chs[h].prot.latched = true
    let starts := fun (u : Dev) (refs : List CmdRef) => u = { d with chs := u.chs } ∧ (∀ k : Ch, k ∉ halves d l → u.chs[k] = d.chs[k]) ∧
      ∀ h ∈ halves d l, u.chs[h] = { d.chs[h] with prot := { d.chs[h].prot with
        drive := .check, check := some ⟨1, min d.chs[h].cfg.ilim 40, false, false, 0, 0, 0, 0, d.tb.stc, if h = l then refs else []⟩ } }
    (imageOn d = true →
      (¬latched → exec (.clearLatch r c) ⟨q, d⟩ = .next ⟨q, completeAt d r 0x28 0 d.tb.stc⟩) ∧
      (∀ k : Check, latched → d.chs[l].prot.check = some k →
        exec (.clearLatch r c) ⟨q, d⟩ = .next ⟨q, d.ch l fun x => { x with prot := { x.prot with
          check := some { k with refs := k.refs ++ [r] } } }⟩) ∧
      (latched → d.chs[l].prot.check = none → clearRefused d l = true →
        exec (.clearLatch r c) ⟨q, d⟩ = .next ⟨q, completeAt (hist d c.val 0x0E 0 false) r 0x28 3 d.tb.stc⟩) ∧
      (latched → d.chs[l].prot.check = none → clearRefused d l = false → ∃ u : Dev,
        exec (.clearLatch r c) ⟨q, d⟩ = .next ⟨q, u⟩ ∧ starts u [r])) ∧
    (imageOn d = false → exec (.clearLatch r c) ⟨q, d⟩ = .next ⟨q, refuse (if latchedPair d c then hist d c.val 0x0E 0 false else d) r 0x28 3⟩) ∧
    (latched → d.chs[l].prot.check = none → clearRefused d l = false → c.val / 32 = m.val → ∃ u : Dev,
      exec (.grdClearWrite m (1#32 <<< (c.val % 32))) ⟨q, d⟩ = .next ⟨q, u⟩ ∧ starts u []) ∧
    (¬latched → c.val / 32 = m.val → exec (.grdClearWrite m (1#32 <<< (c.val % 32))) ⟨q, d⟩ = .next ⟨q, d⟩) ∧
    (∃ u : Dev, exec (.grdClearWrite m mask) ⟨q, d⟩ = .next ⟨q, u⟩ ∧
      (∀ k : Ch, u.chs[k].prot.latched = d.chs[k].prot.latched ∧ u.chs[k].prot.released = d.chs[k].prot.released ∧ u.chs[k].mod = d.chs[k].mod) ∧
      u = { d with chs := u.chs, guard := u.guard, admin := u.admin, free := u.free }) ∧
    exec (.grdClearWrite m 0) ⟨q, d⟩ = .next ⟨q, d⟩

/-- The short check of a channel, or of both halves of its bridged pair (R194, R195). After 10 ms of observation, 960 Fi periods, a conducting load
fails with cause 0x0B, the halves off and still latched, and otherwise step 2 drives the output; after 20 ms of drive its end judges a trip as 0x0A
and runs the half-duty ending; after its 16 periods on every half the check's outcome is the cause, and the latch is cleared exactly on 0x0C. Earlier,
in another step or without a check none of them acts. The verdict of the short check's drive (R194): a trip, or a mean current above 0.1 A from 0.1 V
(under 1 Ω), is a short, cause 0x0A; a mean current below −10 mA is a driven output, cause 0x0B; anything else passes, cause 0x0C. `sum` is the sum of
`cnt` current samples in units of 10 A / 2^23. The model's own choices and readings in it: log entries 4, 32. -/
def Obligations.ShortChecks : Prop :=
  (∀ (q : List Instr) (d : Dev) (c : Ch),
     let l := lead d c
     (d.chs[l].prot.check = none → exec (.shortCheckObserveEnd c) ⟨q, d⟩ = .next ⟨q, d⟩ ∧ exec (.shortCheckDriveEnd c) ⟨q, d⟩ = .next ⟨q, d⟩ ∧
       exec (.shortCheckEnd c) ⟨q, d⟩ = .next ⟨q, d⟩) ∧
     ∀ k : Check, d.chs[l].prot.check = some k →
       let ends := fun (u : Dev) (cause : Nat) => (∀ h ∈ halves d l, u.chs[h].mod.hs = false ∧ u.chs[h].mod.ls = false ∧
           u.chs[h].prot.released = false ∧ u.chs[h].prot.check = none ∧ u.chs[h].prot.cause = cause ∧
           u.chs[h].prot.latched = decide (cause ≠ 0x0C)) ∧
         u.tb = d.tb ∧ u.rails = d.rails ∧ ∀ j : Ch, j ∉ halves d l → u.chs[j] = d.chs[j]
       let goes := fun (u : Dev) (f : Check → Check) => u = { d with chs := u.chs } ∧ (∀ j : Ch, j ∉ halves d l → u.chs[j] = d.chs[j]) ∧
         ∀ h ∈ halves d l, u.chs[h] = { d.chs[h] with prot := { d.chs[h].prot with ssCount := 0, check := d.chs[h].prot.check.map f } }
       (k.step = 1 → 960 ≤ k.fi → checkAny d l (·.driven) = true → ∃ u : Dev, exec (.shortCheckObserveEnd c) ⟨q, d⟩ = .next ⟨q, u⟩ ∧ ends u 0x0B) ∧
       (k.step = 1 → 960 ≤ k.fi → checkAny d l (·.driven) = false → ∃ u : Dev, exec (.shortCheckObserveEnd c) ⟨q, d⟩ = .next ⟨q, u⟩ ∧
         goes u fun k => { k with step := 2, fi := 0, sum := 0, cnt := 0, tripped := false }) ∧
       (k.step = 2 → 1920 ≤ k.fi → ∃ u : Dev, exec (.shortCheckDriveEnd c) ⟨q, d⟩ = .next ⟨q, u⟩ ∧
         goes u fun j => { j with step := 4, outcome := checkJudge k (checkAny d l (·.tripped)) }) ∧
       (k.step = 4 → (∀ h ∈ halves d l, 16 ≤ d.chs[h].prot.ssCount) → ∃ u : Dev,
         exec (.shortCheckEnd c) ⟨q, d⟩ = .next ⟨q, u⟩ ∧ ends u k.outcome) ∧
       (k.step ≠ 1 ∨ k.fi < 960 → exec (.shortCheckObserveEnd c) ⟨q, d⟩ = .next ⟨q, d⟩) ∧
       (k.step ≠ 2 ∨ k.fi < 1920 → exec (.shortCheckDriveEnd c) ⟨q, d⟩ = .next ⟨q, d⟩) ∧
       (k.step ≠ 4 ∨ (∃ h ∈ halves d l, d.chs[h].prot.ssCount < 16) → exec (.shortCheckEnd c) ⟨q, d⟩ = .next ⟨q, d⟩)) ∧
  (∀ (k : Check) (tripped : Bool),
     (tripped = true → checkJudge k tripped = 0x0A) ∧
     (tripped = false → (k.cnt : Int) * 2 ^ 23 < 100 * k.sum → checkJudge k tripped = 0x0A) ∧
     (tripped = false → 100 * k.sum ≤ (k.cnt : Int) * 2 ^ 23 → 1000 * k.sum < -((k.cnt : Int) * 2 ^ 23) → checkJudge k tripped = 0x0B) ∧
     (tripped = false → 100 * k.sum ≤ (k.cnt : Int) * 2 ^ 23 → -((k.cnt : Int) * 2 ^ 23) ≤ 1000 * k.sum → checkJudge k tripped = 0x0C))

/-- CLASS1_TRIP. Where the switch is on, the comparator isn't blanked and the current lies above the channel's class 1 limit (R172, R173, R288): the
switch turns off and the other one turns on a dead time later (R174); the period counts as a trip period, once (R175); below TRIP_COUNT trip periods
in the window nothing else happens but that a check or a measurement notes the trip, at TRIP_COUNT both halves of the pair turn off, unreleased and
latched with cause 1 unless latched before, and `GRD_EVENT` bit 5 stands (R176, R197). A switch that is off, a comparator that is blanked, or a
current within the limit trips nothing. The DC protection. DC_THRESHOLD_CROSS starts the channel's timer with the sign it saw and DC_TIMER_RESTART
puts it back to zero (R187); at DC_TIME a running timer turns the channel, with the other half of its pair, off and latches it, with `GRD_EVENT` bit
6, and the timer is at zero again (R188); without a running timer DC_TRIP does nothing. CARRIER_LOSS of a switching, unhalted channel does the same
with bit 4 and marks the pair as lost (R184, R580). The halves that turn off are those of the pair's procedure where a short check of it runs. The
model's own choices and readings in it: log entries 4, 17. -/
def Obligations.Class1AndDcTrips : Prop :=
  (∀ (q : List Instr) (d : Dev) (c : Ch) (low : Bool) (pos ma : Nat),
     let x := d.chs[c]
     let on := if low then x.mod.ls else x.mod.hs
     let trips := on = true ∧ x.mod.edgeAt + 16 * (x.cfg.blank : Int) ≤ pos ∧ 50 * classLimit x < ma
     let counted := countTrip x.prot
     let n := winCount counted x.cfg.tripWindow
     let tripped := { x.mod with
       hs := if low then x.mod.hs else false
       ls := if low then false else x.mod.ls
       flags := { x.mod.flags with trip := true }
       tripPend := true
       tripSmp := true
       edgeAt := pos
       plan := if x.mod.halted ∨ (low = false ∧ 16 * x.mod.period ≤ pos + x.mod.dead) then [] else [⟨pos + x.mod.dead, low, true⟩] }
     (trips → n < x.cfg.tripCount → ∃ u : Dev, exec (.class1Trip c low ⟨pos, ma⟩) ⟨q, d⟩ = .next ⟨q, u⟩ ∧ u = { d with chs := u.chs } ∧
       u.chs[c].mod = tripped ∧ u.chs[c].prot = { counted with check := u.chs[c].prot.check } ∧ u.chs[c].cfg = x.cfg ∧
       (x.prot.check = none → u.chs[c].prot.check = none) ∧
       (∀ k : Ch, k ≠ c → u.chs[k].mod = d.chs[k].mod ∧ u.chs[k].prot = d.chs[k].prot ∧ (k ≠ lead d c → u.chs[k] = d.chs[k]))) ∧
     (trips → x.cfg.tripCount ≤ n → x.prot.latched = false → ∃ u : Dev,
       exec (.class1Trip c low ⟨pos, ma⟩) ⟨q, d⟩ = .next ⟨q, u⟩ ∧
       (∀ h ∈ halves d c, u.chs[h].mod.hs = false ∧ u.chs[h].mod.ls = false ∧ u.chs[h].prot.released = false ∧
         u.chs[h].prot.latched = true) ∧
       u.chs[c].prot.cause = 1 ∧ u.guard.event.getLsbD 5 = true ∧
       (∀ k : Ch, k ∉ halves d c → k ≠ lead d c → u.chs[k] = d.chs[k]) ∧ u.rails = d.rails ∧ u.tb = d.tb ∧ u.core = d.core) ∧
     (trips → x.cfg.tripCount ≤ n → x.prot.latched = true → ∃ u : Dev,
       exec (.class1Trip c low ⟨pos, ma⟩) ⟨q, d⟩ = .next ⟨q, u⟩ ∧ u.chs[c].mod = tripped ∧ u.chs[c].prot.latched = true ∧
       u.guard.event.getLsbD 5 = true ∧ u.rails = d.rails ∧ u.tb = d.tb ∧ u.core = d.core) ∧
     (¬trips → exec (.class1Trip c low ⟨pos, ma⟩) ⟨q, d⟩ = .next ⟨q, d⟩)) ∧
  (∀ (q : List Instr) (d : Dev) (c : Ch) (neg : Bool),
     let hs := if d.chs[lead d c].prot.check.isSome then halves d (lead d c) else halves d c
     let off := fun (u : Dev) => (∀ h ∈ hs, u.chs[h].mod.hs = false ∧ u.chs[h].mod.ls = false ∧ u.chs[h].prot.released = false ∧
         u.chs[h].prot.latched = true) ∧
       (∀ k : Ch, k ∉ hs → k ∉ halves d c → k ≠ c → k ≠ lead d c → u.chs[k] = d.chs[k]) ∧ u.rails = d.rails ∧ u.tb = d.tb
     exec (.dcThresholdCross c neg) ⟨q, d⟩ =
       .next ⟨q, d.ch c fun x => { x with prot := { x.prot with dcNeg := some neg } }⟩ ∧
     exec (.dcTimerRestart c) ⟨q, d⟩ = .next ⟨q, d.ch c fun x => { x with prot := { x.prot with dcNeg := none } }⟩ ∧
     (d.chs[c].prot.dcNeg.isSome = true → ∃ u : Dev, exec (.dcTrip c) ⟨q, d⟩ = .next ⟨q, u⟩ ∧ off u ∧
       u.chs[c].prot.dcNeg = none ∧ u.guard.event.getLsbD 6 = true) ∧
     (d.chs[c].prot.dcNeg = none → exec (.dcTrip c) ⟨q, d⟩ = .next ⟨q, d⟩) ∧
     (switching d.chs[c] = true → d.chs[c].mod.halted = false → ∃ u : Dev, exec (.carrierLoss c) ⟨q, d⟩ = .next ⟨q, u⟩ ∧ off u ∧
       (∀ h ∈ halves d c, u.chs[h].lost = true) ∧ u.guard.event.getLsbD 4 = true) ∧
     (switching d.chs[c] = false ∨ d.chs[c].mod.halted = true → exec (.carrierLoss c) ⟨q, d⟩ = .next ⟨q, d⟩))

/-- TRIP_PIN_ASSERT: the pin's status bit and its event bit stand, every released channel of its mask waits for its safe stop or is in it, and while
no short check runs no channel's latch changes (R178 to R180); a pin that stands asserted changes nothing. TRIP_PIN_DEASSERT clears the status bit
only (R179). SAFE_ASSERT and PRSNT_DEASSERT: every released channel waits for its safe stop or is in it, the event bit stands and a backstop is due
(R184, R540); their ends set the level back, PRSNT_ASSERT starting the 100 ms count (R161, R530). GUARD_BACKSTOP takes the oldest backstop: no channel
switches after it, and PRSNT_EARLY's turns the hot-swap gates off (R184, R533, R540). The model's own choices and readings in it: log entries 4, 17,
65. -/
def Obligations.PinsAndBackstop : Prop :=
  (∀ (q : List Instr) (d : Dev) (p : Pin),
     (d.guard.trip.getLsbD p.val = false → ∃ u : Dev, exec (.tripPinAssert p) ⟨q, d⟩ = .next ⟨q, u⟩ ∧
       u.guard.trip = d.guard.trip ||| (1#8 <<< p.val) ∧ u.guard.event.getLsbD (8 + p.val) = true ∧
       (∀ c : Ch, (d.guard.tripMask.getD p.val []).getD c.val false = true → u.chs[c].prot.released = true →
         u.chs[c].prot.drive = .safeStop ∨ u.chs[c].prot.ssPend = true) ∧
       ((∀ k : Ch, d.chs[k].prot.check = none) → ∀ c : Ch, u.chs[c].prot.latched = d.chs[c].prot.latched) ∧
       u.tb = d.tb ∧ u.rails = d.rails ∧ u.core = d.core ∧ u.groupRel = d.groupRel) ∧
     (d.guard.trip.getLsbD p.val = true → exec (.tripPinAssert p) ⟨q, d⟩ = .next ⟨q, d⟩) ∧
     exec (.tripPinDeassert p) ⟨q, d⟩ =
       .next ⟨q, { d with guard := { d.guard with trip := d.guard.trip &&& ~~~(1#8 <<< p.val) } }⟩) ∧
  (∀ (q : List Instr) (d : Dev),
     let stopping := fun u : Dev => ∀ c : Ch, u.chs[c].prot.released = true → u.chs[c].prot.drive = .safeStop ∨ u.chs[c].prot.ssPend = true
     (d.guard.safe = false → ∃ u : Dev, exec .safeAssert ⟨q, d⟩ = .next ⟨q, u⟩ ∧ u.guard.safe = true ∧
       u.guard.backstops = d.guard.backstops ++ [false] ∧ u.guard.event.getLsbD 0 = true ∧ stopping u ∧ u.tb = d.tb ∧ u.rails = d.rails) ∧
     (d.guard.safe = true → exec .safeAssert ⟨q, d⟩ = .next ⟨q, d⟩) ∧
     exec .safeDeassert ⟨q, d⟩ = .next ⟨q, { d with guard := { d.guard with safe := false } }⟩ ∧
     (d.guard.prsnt = true → ∃ u : Dev, exec .prsntDeassert ⟨q, d⟩ = .next ⟨q, u⟩ ∧ u.guard.prsnt = false ∧
       u.guard.backstops = d.guard.backstops ++ [true] ∧ u.guard.event.getLsbD 1 = true ∧ stopping u ∧ u.tb = d.tb ∧
       u.rails.prsntMs = 0) ∧
     (d.guard.prsnt = false → exec .prsntDeassert ⟨q, d⟩ = .next ⟨q, d⟩) ∧
     (d.guard.prsnt = true → exec .prsntAssert ⟨q, d⟩ = .next ⟨q, d⟩) ∧
     (d.guard.prsnt = false → exec .prsntAssert ⟨q, d⟩ =
       .next ⟨q, { d with guard := { d.guard with prsnt := true }, rails := { d.rails with prsntMs := 0 } }⟩) ∧
     (∀ (b : Bool) (rest : List Bool), d.guard.backstops = b :: rest → ∃ u : Dev,
       exec .guardBackstop ⟨q, d⟩ = .next ⟨q, u⟩ ∧ u.guard.backstops = rest ∧ (∀ c : Ch, switching u.chs[c] = false) ∧
       (b = true → d.rails.preState ≠ 5 → u.rails.preState = 0) ∧ (b = false → u.rails = d.rails) ∧ u.tb = d.tb) ∧
     (d.guard.backstops = [] → exec .guardBackstop ⟨q, d⟩ = .next ⟨q, d⟩))

/-- The guard releases of every channel. THERMAL_SHUTDOWN sets the latch of R186, RAIL_OV_RELEASE and RAIL_UV_RELEASE the rail's status bit with their
event bits; each leaves every channel with both switches off and unreleased, and thermal shutdown and undervoltage turn the hot-swap gates off while
overvoltage leaves them on (R181, R184 to R186, R533). Undervoltage acts only once precharge is complete. The model's own choices and readings in it:
log entries 4, 65. -/
def Obligations.GuardReleases : Prop :=
  ∀ (q : List Instr) (d : Dev) (sn : Sensor) (neg : Bool),
    let allOff := fun u : Dev => ∀ c : Ch, u.chs[c].mod.hs = false ∧ u.chs[c].mod.ls = false ∧ u.chs[c].mod.plan = [] ∧
      u.chs[c].prot.released = false ∧ u.chs[c].prot.drive = .off
    (∃ u : Dev, exec (.thermalShutdown sn) ⟨q, d⟩ = .next ⟨q, u⟩ ∧ allOff u ∧ u.guard.thermLatch = true ∧
      (d.rails.preState ≠ 5 → u.rails.preState = 0) ∧ u.tb = d.tb ∧ u.power = d.power) ∧
    (∃ u : Dev, exec (.railOvRelease neg) ⟨q, d⟩ = .next ⟨q, u⟩ ∧ allOff u ∧
      (if neg then u.guard.ovN else u.guard.ovP) = true ∧ u.guard.thermLatch = d.guard.thermLatch ∧
      u.guard.event.getLsbD 2 = true ∧ u.rails = d.rails ∧ u.tb = d.tb) ∧
    (preDone d = true → ∃ u : Dev, exec (.railUvRelease neg) ⟨q, d⟩ = .next ⟨q, u⟩ ∧ allOff u ∧
      (if neg then u.guard.uvN else u.guard.uvP) = true ∧ u.guard.event.getLsbD 3 = true ∧ u.rails.preState = 0 ∧ u.tb = d.tb) ∧
    (preDone d = false → exec (.railUvRelease neg) ⟨q, d⟩ = .next ⟨q, d⟩)

/-- STEWARD_POLL, the guard's millisecond: an answered poll ends the count of missed ones, an unanswered one lengthens it; guard time advances 1,000
µs and power-on time 1 ms; the rail comparators' levels are taken from the rails then (Table 6-10), and the supply sides and the 100 ms counts of
presence and supply follow (R530, R585, Table 17-10). The model's own choices and readings in it: log entry 4. -/
def Obligations.StewardPoll : Prop :=
  ∀ (q : List Instr) (d : Dev) (answered : Bool) (hsvP hsvN : Nat) (gpio : BitVec 6) (rail : RailSample),
    (d.guard.ready = true → ∃ u : Dev, exec (.stewardPoll answered hsvP hsvN ⟨gpio, rail⟩) ⟨q, d⟩ = .next ⟨q, u⟩ ∧
      u = { d with guard := u.guard, admin := { d.admin with trips := u.admin.trips }, rails := { d.rails with
        hsvP := hsvP
        hsvN := hsvN
        prsntMs := if d.guard.prsnt then min 100 (d.rails.prsntMs + 1) else 0
        supplyMs := if 1000 ≤ hsvP ∧ hsvP ≤ 2000 ∧ 1000 ≤ hsvN ∧ hsvN ≤ 2000 then min 100 (d.rails.supplyMs + 1) else 0 } } ∧
      u.guard = { d.guard with
        ovP := decide (2200 < rail.pvp)
        ovN := decide (rail.pvn < -2200)
        uvP := decide (d.rails.preState = 4 ∧ rail.pvp < 850)
        uvN := decide (d.rails.preState = 4 ∧ -850 < rail.pvn)
        missedPolls := if answered then 0 else d.guard.missedPolls + 1
        timeUs := d.guard.timeUs + 1000
        powerOnMs := d.guard.powerOnMs + 1
        gpioIn := gpio
        uncopied := u.guard.uncopied }) ∧
    (d.guard.ready = false → exec (.stewardPoll answered hsvP hsvN ⟨gpio, rail⟩) ⟨q, d⟩ = .next ⟨q, d⟩)

/-- The Awl's own events: GENERATOR_STOP stops a sweep that doesn't repeat once its length has run, its value then 0 (R248), and leaves any other
generator; CAPTURE_ENTRY appends the entry that waits to the unit's ring, dropping the oldest of a full one (R249, R250). INJECT_ARM and INJECT_STOP
with the host open and an image in force (R240 to R250, R287, R335, R409). Records with no node against them are all armed at the present boundary;
STOP stops the generators named with value 0, removes the taps and disarms the units; a unit that a measurement holds makes either NOT_READY, as do
more than 524,288 ring entries; an empty list or a record out of range, a node that isn't there or a generator with taps of both rates is
INVALID_FIELD with nothing armed. A closed host or no image is NOT_READY. The model's own choices and readings in it: log entries 4, 39. -/
def Obligations.GeneratorsAndCaptures : Prop :=
  (∀ (q : List Instr) (d : Dev) (g : Fin 8) (k : Fin 16),
     (∀ r : GenRec, d.awl.gens[g].cfg = some r → d.awl.gens[g].running = true → r.kind = .sweep → r.rept = false →
       r.len ≤ d.awl.gens[g].n → exec (.generatorStop g) ⟨q, d⟩ = .next ⟨q, { d with awl := { d.awl with
         gens := d.awl.gens.set g { d.awl.gens[g] with running := false, value := 0 } } }⟩) ∧
     (∀ r : GenRec, d.awl.gens[g].cfg = some r → (r.kind ≠ .sweep ∨ r.rept = true ∨ d.awl.gens[g].n < r.len) →
       exec (.generatorStop g) ⟨q, d⟩ = .next ⟨q, d⟩) ∧
     (d.awl.gens[g].cfg = none ∨ d.awl.gens[g].running = false → exec (.generatorStop g) ⟨q, d⟩ = .next ⟨q, d⟩) ∧
     (d.awl.caps[k].due = true → d.awl.caps[k].entries.length < d.awl.caps[k].ring → ∃ u : Dev,
       exec (.captureEntry k) ⟨q, d⟩ = .next ⟨q, u⟩ ∧ u = { d with awl := { d.awl with caps := u.awl.caps } } ∧
       u.awl.caps[k].entries = d.awl.caps[k].entries ++ [d.awl.caps[k].latch] ∧ u.awl.caps[k].due = false ∧
       u.awl.caps[k].written = d.awl.caps[k].written + 1) ∧
     (d.awl.caps[k].due = true → d.awl.caps[k].ring ≤ d.awl.caps[k].entries.length → ∃ u : Dev,
       exec (.captureEntry k) ⟨q, d⟩ = .next ⟨q, u⟩ ∧ u = { d with awl := { d.awl with caps := u.awl.caps } } ∧
       u.awl.caps[k].entries = d.awl.caps[k].entries.drop 1 ++ [d.awl.caps[k].latch] ∧
       u.awl.caps[k].first = d.awl.caps[k].first + 1) ∧
     (d.awl.caps[k].due = false → exec (.captureEntry k) ⟨q, d⟩ = .next ⟨q, d⟩)) ∧
  (∀ (q : List Instr) (d : Dev) (r : CmdRef) (img : Image) (recs : List InjectRec) (gens : Byte) (taps units : BitVec 16),
     let arm := exec (.injectArm r recs) ⟨q, d⟩
     let stop := exec (.injectStop r gens taps units) ⟨q, d⟩
     let done := fun (e : Dev) (status : Nat) => Host.Outcome.next (φ := Fault) (ρ := Refusal) (State.mk q (completeAt e r 0x27 status d.tb.stc))
     let a := recs.foldl (armRec recs) d.awl
     let nodes := recs.all (nodeOk d img) = true ∧ ratesMixed a = false
     let units_ := recs.any (recHeld d) = false ∧ ringSum a ≤ 524288
     let idle := (∀ g : Fin 8, gens.getLsbD g.val = true → genHeld d g.val = false) ∧ ∀ k : Fin 16,
       (taps.getLsbD k.val = true → tapHeld d k.val = false) ∧ (units.getLsbD k.val = true → capHeld d k.val = false)
     (hostClosed d = false → d.core.image = some img →
       (armFieldOk recs = true → nodes → units_ → arm = done { d with awl := a } 0) ∧
       (armFieldOk recs = true → nodes → ¬units_ → arm = done d 3) ∧
       (armFieldOk recs = true → ¬nodes → arm = done d 2) ∧
       (idle → ∃ u : Dev, stop = done u 0 ∧
         u = { d with awl := { d.awl with gens := u.awl.gens, taps := u.awl.taps, caps := u.awl.caps } } ∧
         (∀ g : Fin 8, u.awl.gens[g] = if gens.getLsbD g.val then { d.awl.gens[g] with running := false, value := 0 } else d.awl.gens[g]) ∧
         (∀ k : Fin 16, u.awl.taps[k] = if taps.getLsbD k.val then none else d.awl.taps[k]) ∧
         (∀ k : Fin 16, u.awl.caps[k] = if units.getLsbD k.val then { d.awl.caps[k] with armed := false } else d.awl.caps[k])) ∧
       (¬idle → stop = done d 3)) ∧
     (armFieldOk recs = false → arm = .next ⟨q, refuse d r 0x27 2⟩) ∧
     (hostClosed d = true ∨ d.core.image = none → stop = .next ⟨q, refuse d r 0x27 3⟩ ∧
       (armFieldOk recs = true → arm = .next ⟨q, refuse d r 0x27 3⟩)))

/-- THERMAL_SAMPLE of a sensor that is sampled: it keeps the reading, and a reading at or above the throttle threshold of a sensor that counts
throttles the part, with THM_EVENT bit 1 as throttling begins (R474, R478 to R480). A sensor that isn't sampled, or audio reset, changes nothing.
SENSOR_BROKEN declares a sensor in use broken where its readings say so, with THM_EVENT bit 3, and where the Cobbler works, with an image in force and
the timebase running (R29), brings its free spare in at once, with bit 4 and one spare fewer, or reports none with bit 5 (R475, R477); a spare that
had to wait for the Cobbler comes in later; SENSOR_RETIRE takes a broken sensor out of use, while the Cobbler works, once its spare has read plausibly
near the other one (R476). The model's own choices and readings in it: log entries 4, 34. -/
def Obligations.ThermalSensors : Prop :=
  (∀ (q : List Instr) (d : Dev) (i : Sensor) (reading : Int) (fault : Bool),
     let x := d.shank.sensors[i]
     (d.guard.audioReset = false → sampled i.val x = true → ∃ u : Dev,
       exec (.thermalSample i reading fault) ⟨q, d⟩ = .next ⟨q, u⟩ ∧
       u = { d with shank := u.shank, qif := u.qif, guard := { d.guard with hold := u.guard.hold } } ∧
       u.shank.sensors[i].reading = reading ∧ u.shank.sensors[i].read = true ∧ u.shank.sensors[i].fault = fault ∧
       (∀ k : Sensor, k ≠ i → u.shank.sensors[k] = d.shank.sensors[k]) ∧
       (x.inUse = true → x.broken = false → d.shank.thrSet ≤ reading → u.shank.throttle = true ∧
         (d.shank.throttle = false → u.shank.event.getLsbD 1 = true)) ∧
       u.shank.grants = d.shank.grants) ∧
     (d.guard.audioReset = true ∨ sampled i.val x = false → exec (.thermalSample i reading fault) ⟨q, d⟩ = .next ⟨q, d⟩)) ∧
  (∀ (q : List Instr) (d : Dev) (i : Sensor),
     let x := d.shank.sensors[i]
     (d.guard.audioReset = false → x.inUse = true → x.broken = false → x.retired = false → isBroken d i.val = true → ∃ u : Dev,
       exec (.sensorBroken i) ⟨q, d⟩ = .next ⟨q, u⟩ ∧
       u = { d with shank := u.shank, qif := u.qif, cob := u.cob, guard := { d.guard with hold := u.guard.hold } } ∧
       u.shank.event.getLsbD 3 = true ∧
       (spareFree d i.val = true → cobWorks d = true → u.shank.event.getLsbD 4 = true ∧
         u.cob = { d.cob with tsenseSpares := d.cob.tsenseSpares - 1 } ∧
         ∀ j : Sensor, j.val = spareOf i.val → u.shank.sensors[j].inUse = true) ∧
       (spareFree d i.val = true → cobWorks d = false → u.cob = d.cob) ∧
       (spareFree d i.val = false → u.shank.event.getLsbD 5 = true ∧ u.cob = d.cob) ∧
       (spareOf i.val ≠ i.val → u.shank.sensors[i] = { x with broken := true })) ∧
     (d.guard.audioReset = false → x.inUse = true → x.broken = true → x.retired = false → ∃ u : Dev,
       exec (.sensorBroken i) ⟨q, d⟩ = .next ⟨q, u⟩ ∧
       u = { d with shank := u.shank, qif := u.qif, cob := u.cob, guard := { d.guard with hold := u.guard.hold } } ∧
       (spareFree d i.val = true → cobWorks d = true → u.shank.event.getLsbD 4 = true ∧
         u.cob = { d.cob with tsenseSpares := d.cob.tsenseSpares - 1 } ∧
         ∀ j : Sensor, j.val = spareOf i.val → u.shank.sensors[j].inUse = true) ∧
       (spareFree d i.val = false ∨ cobWorks d = false → u.cob = d.cob ∧ u.shank.sensors = d.shank.sensors)) ∧
     (d.guard.audioReset = true ∨ x.inUse = false ∨ x.retired = true ∨ (x.broken = false ∧ isBroken d i.val = false) →
       exec (.sensorBroken i) ⟨q, d⟩ = .next ⟨q, d⟩) ∧
     (∀ j : Sensor, j.val = spareOf i.val → cobWorks d = true → isSpare i.val = false → x.broken = true → x.retired = false →
       d.shank.sensors[j].inUse = true → d.shank.sensors[j].broken = false → plausible d.shank.sensors[j] = true →
       (∃ k : Sensor, (placeOf i.val).find? (fun k => decide (k ≠ i.val ∧ k ≠ spareOf i.val)) = some k.val ∧
         (d.shank.sensors[j].reading - effective d d.shank.sensors[k]).natAbs ≤ 80) →
       ∃ u : Dev, exec (.sensorRetire i) ⟨q, d⟩ = .next ⟨q, u⟩ ∧
         u = { d with shank := u.shank, qif := u.qif, guard := { d.guard with hold := u.guard.hold } } ∧
         u.shank.sensors = d.shank.sensors.set i { x with retired := true, inUse := false }) ∧
     (x.broken = false ∨ x.retired = true ∨ cobWorks d = false → exec (.sensorRetire i) ⟨q, d⟩ = .next ⟨q, d⟩))

/-- AUTO_LOAD once growth has ended, its base step passed, and with no image in force: tried once; short of EX128, or without a marked slot, bring-up
ends, a marked image that passes its checks is staged, one that fails enters the error log and ends bring-up (R86, R462). Before that, a second time,
or with an image in force it does nothing. STAGING_END moves a staged activation on to its wait for B (R92), and does nothing else. WELT_OPEN at
boundary B of a due activation: with an image in force the welt period opens and that image stays in force (R94); without one the new image is in
force at once. WELT_SWITCH, at a boundary after, puts the new image in force with its slot (R96). With no activation, one that isn't due or one that
hasn't opened its welt period neither does anything. Both are among the events of their boundary: the commands due there run after the last of them
(R401, `boundaryDone`). The model's own choices and readings in it: log entries 4, 27. -/
def Obligations.ImagesComeIntoForce : Prop :=
  (∀ (q : List Instr) (d : Dev),
     let free := d.growth.growth ≠ 0 ∧ d.growth.step ≠ 0 ∧ d.admin.autoTried = false ∧ imageOn d = false
     (free → d.growth.growth ≠ 1 ∨ d.admin.autoSlot = none →
       exec .autoLoad ⟨q, d⟩ = .next ⟨q, { d with admin := { d.admin with autoTried := true, bringup := false } }⟩) ∧
     (∀ (k : Fin 4) (img : Image), free → d.growth.growth = 1 → d.admin.autoSlot = some k.val → checkSlot d d.admin.img[k] = .ok img →
       exec .autoLoad ⟨q, d⟩ = .next ⟨q, { d with
         admin := { d.admin with autoTried := true }
         core := { d.core with act := some ⟨none, nextStc d, k.val, img, .staging, 0, false⟩ } }⟩) ∧
     (∀ (k : Fin 4) (i : FailInfo), free → d.growth.growth = 1 → d.admin.autoSlot = some k.val → checkSlot d d.admin.img[k] = .error i →
       ∃ u : Dev, exec .autoLoad ⟨q, d⟩ = .next ⟨q, u⟩ ∧
         u = { d with admin := u.admin, free := u.free } ∧ u.admin.bringup = false ∧ u.admin.autoTried = true ∧
         (∃ e ∈ u.admin.errLog.head?, e.sqId = 0xFFFF ∧ e.reason = i.reason ∧ e.status = 10)) ∧
     (¬free → exec .autoLoad ⟨q, d⟩ = .next ⟨q, d⟩) ∧
     (∀ a : Activation, d.core.act = some a → a.phase = .staging → exec .stagingEnd ⟨q, d⟩ =
       .next ⟨q, { d with core := { d.core with act := some { a with phase := .stagedWait } } }⟩) ∧
     ((∀ a ∈ d.core.act, a.phase ≠ .staging) → exec .stagingEnd ⟨q, d⟩ = .next ⟨q, d⟩)) ∧
  (∀ (q : List Instr) (d : Dev) (a : Activation),
     (d.core.act = some a → actDue d a = true → imageOn d = true → ∃ u : Dev,
       exec .weltOpen ⟨q, d⟩ = .next ⟨q, boundaryDone .welt u⟩ ∧ u.core = { d.core with act := some { a with phase := .welt, at_ := d.tb.stc } } ∧
       u.tb = d.tb ∧ u.guard = d.guard ∧ u.power = d.power ∧ u.rails = d.rails ∧ u.groupRel = d.groupRel) ∧
     (d.core.act = some a → actDue d a = true → imageOn d = false → ∃ u : Dev, exec .weltOpen ⟨q, d⟩ = .next ⟨q, boundaryDone .welt u⟩ ∧
       u.core.image = some a.image ∧ u.core.imageSlot = a.slot ∧ u.core.act = none) ∧
     (d.core.act = some a → a.phase = .welt → a.at_ < d.tb.stc → ∃ u : Dev, exec .weltSwitch ⟨q, d⟩ = .next ⟨q, boundaryDone .welt u⟩ ∧
       u.core.image = some a.image ∧ u.core.imageSlot = a.slot ∧ u.core.act = none) ∧
     ((∀ b ∈ d.core.act, actDue d b = false) → exec .weltOpen ⟨q, d⟩ = .next ⟨q, boundaryDone .welt d⟩) ∧
     ((∀ b ∈ d.core.act, b.phase ≠ .welt ∨ d.tb.stc ≤ b.at_) → exec .weltSwitch ⟨q, d⟩ = .next ⟨q, boundaryDone .welt d⟩))

/-- Q0 serves the admin opcodes 0x01 to 0x0E and every I/O opcode, 0x20 to 0x29; every other queue serves the I/O opcodes only, and each admin command
there completes INVALID_OPCODE (status 1) with no effect of its own (R393). -/
def Obligations.AdminCommandsNeedQueue0 : Prop :=
  (∀ op : Nat, opKnown 0 op = true ↔ (1 ≤ op ∧ op ≤ 0x0E) ∨ (0x20 ≤ op ∧ op ≤ 0x29)) ∧
  (∀ k op : Nat, k ≠ 0 → (opKnown k op = true ↔ 0x20 ≤ op ∧ op ≤ 0x29)) ∧
  ∀ (q : List Instr) (d : Dev) (r : CmdRef) (b : Byte) (w : W64) (bs : List Byte) (n : Nat) (cfg : QueueCfg) (id : QId) (k : BitVec 16)
    (f : Fin 2) (g : Fin 4) (t : When) (fl : Bool), r.q.val ≠ 0 →
    let no := fun op : Nat => Host.Outcome.next (φ := Fault) (ρ := Refusal) (State.mk q (refuse d r op 1))
    exec (.identify r) ⟨q, d⟩ = no 0x01 ∧ exec (.identifyLatency r) ⟨q, d⟩ = no 0x01 ∧ exec (.getLog r b n) ⟨q, d⟩ = no 0x02 ∧
    exec (.getFeature r b) ⟨q, d⟩ = no 0x03 ∧ exec (.setFeature r b w bs) ⟨q, d⟩ = no 0x04 ∧
    exec (.createQueue r cfg) ⟨q, d⟩ = no 0x05 ∧ exec (.deleteQueue r id) ⟨q, d⟩ = no 0x06 ∧ exec (.abort r id k) ⟨q, d⟩ = no 0x07 ∧
    exec (.flush r k) ⟨q, d⟩ = no 0x08 ∧ exec (.fwDownload r n bs) ⟨q, d⟩ = no 0x09 ∧ exec (.fwCommit r f) ⟨q, d⟩ = no 0x0A ∧
    exec (.fwCommitBoot r f) ⟨q, d⟩ = no 0x0A ∧ exec (.fwMarkBoot r f) ⟨q, d⟩ = no 0x0A ∧ exec (.fwActivate r f) ⟨q, d⟩ = no 0x0B ∧
    exec (.imageLoad r g fl n bs) ⟨q, d⟩ = no 0x0C ∧ exec (.imageActivate r g t fl) ⟨q, d⟩ = no 0x0D ∧
    exec (.imageActivateMark r g t fl) ⟨q, d⟩ = no 0x0D ∧ exec (.imageMark r g) ⟨q, d⟩ = no 0x0D ∧
    exec (.imageClearMark r g) ⟨q, d⟩ = no 0x0D ∧ exec (.queueReset r id) ⟨q, d⟩ = no 0x0E

/-- IDENTIFY and GET_LOG on Q0: the data of Table 14-4, the path latencies or the log page, from the offset, up to the buffer's length, go to the
command's buffer and it completes SUCCESS with the bytes written; nothing but host memory and the completion (and the model's free counter) changes
(R416, R434, R435). A page that isn't there, or an offset off its grid or past its end, completes INVALID_FIELD. GET_FEATURE and SET_FEATURE with the
host open (R441, Table 14-10): a feature's value reads back in RESULT0, budgets and thresholds in the buffer; a value in its range takes effect and
the command completes SUCCESS: arbitration weights, host-absent policy (UNMUTE ends a mute), Shank budgets, thermal thresholds, coalescing, reference
configuration, telemetry interval; a value outside its range, or a feature that isn't there, completes INVALID_FIELD and changes nothing else. In
bring-up or audio reset both complete NOT_READY. The model's own choices and readings in it: log entries 44, 48. -/
def Obligations.IdentifyLogsAndFeatures : Prop :=
  (∀ (q : List Instr) (d : Dev) (r : CmdRef) (page : Byte) (o : Nat), r.q.val = 0 →
     exec (.identify r) ⟨q, d⟩ = .next ⟨q, complete (hostWrite d r ((identData d).take r.len)) r 0x01 0
       (min r.len (identData d).length) 0⟩ ∧
     exec (.identifyLatency r) ⟨q, d⟩ = .next ⟨q, complete (hostWrite d r ((pathPage d (pathRecs d)).take r.len)) r 0x01 0
       (min r.len (pathPage d (pathRecs d)).length) 0⟩ ∧
     (∀ bs : List Byte, logPage d page.toNat = some bs → o % 4 = 0 → o < bs.length →
       exec (.getLog r page o) ⟨q, d⟩ = .next ⟨q, complete (hostWrite { d with free := d.free + 1 } r ((bs.drop o).take r.len)) r 0x02 0
         bs.length (min r.len (bs.length - o))⟩) ∧
     (∀ bs : List Byte, logPage d page.toNat = some bs → o % 4 ≠ 0 ∨ bs.length ≤ o →
       exec (.getLog r page o) ⟨q, d⟩ = .next ⟨q, refuse d r 0x02 2⟩) ∧
     (logPage d page.toNat = none → exec (.getLog r page o) ⟨q, d⟩ = .next ⟨q, refuse d r 0x02 2⟩) ∧
     (logPage d page.toNat = none ↔ page.toNat = 0 ∨ 9 < page.toNat)) ∧
  (∀ (q : List Instr) (d : Dev) (r : CmdRef) (v : W64) (fid : Byte) (buf : List Byte), r.q.val = 0 →
     let set := fun k : Byte => exec (.setFeature r k v buf) ⟨q, d⟩
     let get := fun k : Byte => exec (.getFeature r k) ⟨q, d⟩
     let done := fun e : Dev => Host.Outcome.next (φ := Fault) (ρ := Refusal) (State.mk q (complete e r 0x04 0 0 0))
     let reads := fun w : Nat => Host.Outcome.next (φ := Fault) (ρ := Refusal) (State.mk q (complete d r 0x03 0 w 0))
     let n := v.toNat
     (hostClosed d = true → set fid = .next ⟨q, refuse d r 0x04 3⟩ ∧ get fid = .next ⟨q, refuse d r 0x03 3⟩) ∧
     (hostClosed d = false →
       get 0x01 = reads (d.qif.wHigh + 2 ^ 8 * d.qif.wMed + 2 ^ 16 * d.qif.wLow) ∧
       get 0x02 = reads ((if d.admin.policyMute then 1 else 0) + 2 ^ 8 * (if d.mix.muted then 1 else 0)) ∧
       get 0x05 = reads (d.qif.coalThresh + 2 ^ 16 * d.qif.coalTime) ∧
       get 0x06 = reads (refCfgNum d.tb) ∧ get 0x07 = reads d.admin.telemetryMs ∧
       (∀ (k : Byte) (w : Nat) (bs : List Byte), k = 3 ∨ k = 4 → featureOf d k.toNat = some (w, bs) → ∃ a b : Nat,
         get k = .next ⟨q, complete (hostWrite { d with free := d.free + 2 } r bs) r 0x03 0 a b⟩) ∧
       (featureOk fid.toNat n buf = true → set fid = done (putFeature d fid.toNat n buf)) ∧
       (featureOk fid.toNat n buf = false → set fid = .next ⟨q, refuse d r 0x04 2⟩) ∧
       (n < 2 ^ 24 → set 0x01 = done { d with qif := { d.qif with wHigh := n % 2 ^ 8, wMed := n / 2 ^ 8 % 2 ^ 8, wLow := n / 2 ^ 16 % 2 ^ 8 } }) ∧
       (n < 4 → set 0x02 = done { d with
         admin := { d.admin with policyMute := decide (n % 2 = 1) }
         mix := { d.mix with muted := d.mix.muted && decide (n < 2) } }) ∧
       (n / 2 ^ 8 % 2 ^ 8 = 0 → n < 2 ^ 32 → (n % 2 ^ 8 = 0 ∨ n / 2 ^ 16 ≠ 0) →
         set 0x05 = done { d with qif := { d.qif with coalThresh := n % 2 ^ 8, coalTime := n / 2 ^ 16 } }) ∧
       (n < 2 ^ 12 → set 0x06 = done { d with tb := setRefCfg d.tb n }) ∧
       (10 ≤ n → n ≤ 60000 → set 0x07 = done { d with admin := { d.admin with telemetryMs := n } }) ∧
       (n < 10 ∨ 60000 < n → set 0x07 = .next ⟨q, refuse d r 0x04 2⟩) ∧
       (fid.toNat = 0 ∨ 7 < fid.toNat → set fid = .next ⟨q, refuse d r 0x04 2⟩ ∧ get fid = .next ⟨q, refuse d r 0x03 2⟩)))

/-- CREATE_QUEUE of a free identifier with depths of 2 to 4,096 and bases on 64 bytes: the pair exists with both rings empty and the phase of the
first pass 1, and waits for its completion to be posted (R389, R391, R433); Q0, a pair that exists, or another depth or base is INVALID_FIELD.
QUEUE_RESET and DELETE_QUEUE of a pair: its uncommitted commands end (Table 14-12), its unfetched entries are discarded and the command waits for what
is owed to the queue, reporting the indices the queue stood at and the counts of commands ended and committed; where none of its commands is in flight
or waits to be posted it completes at once and the deleted pair is gone (R457, R458). Q0, an unknown pair and one being deleted are INVALID_FIELD.
What waits for earlier commands ends with them: QUEUE_RESET_DONE completes the QUEUE_RESET or DELETE_QUEUE of that CID that waits once nothing of its
queue is in flight or waits to be posted, and the deleted queue is gone; FLUSH_DONE completes the FLUSH once nothing before it in its scope is held,
with the cues it didn't wait for (R455, R457, R458). Neither does anything before that, while the stewards restart (R450), or where no such command
waits. The model's own choices and readings in it: log entries 4, 44, 46. -/
def Obligations.QueuesCreatedResetDeleted : Prop :=
  (∀ (q : List Instr) (d : Dev) (r : CmdRef) (c : QueueCfg), r.q.val = 0 → hostClosed d = false →
     let ring := fun (depth base : Nat) => 2 ≤ depth ∧ depth ≤ 4096 ∧ base % 64 = 0
     let free := c.qid.val ≠ 0 ∧ Mem.find d.qif.queues c.qid.val = none
     let good := free ∧ c.vector < 2048 ∧ ring c.sqDepth c.sqBase.toNat ∧ ring c.cqDepth c.cqBase.toNat
     (good → exec (.createQueue r c) ⟨q, d⟩ = .next ⟨q, complete { d with qif := { d.qif with
       queues := Mem.put d.qif.queues c.qid.val
         { cls := c.cls.val, ien := c.ien, vector := c.vector, sqDepth := c.sqDepth, cqDepth := c.cqDepth, sqBase := c.sqBase.toNat
           cqBase := c.cqBase.toNat, sqHead := 0, sqTail := 0, cqTail := 0, cqHead := 0, phase := true, blocked := some r.cid
           deleting := false } } } r 0x05 0 0 0⟩) ∧
     (¬good → exec (.createQueue r c) ⟨q, d⟩ = .next ⟨q, refuse d r 0x05 2⟩)) ∧
  (∀ (q : List Instr) (d : Dev) (r : CmdRef) (id : QId) (x : Queue), r.q.val = 0 → hostClosed d = false →
     let mine := (liveFlights d).filter fun f => decide (f.ref.q = id) && !sameRef f.ref r
     let z := mine.foldl resetFlight (d, 0, 0)
     let ended := fun del : Bool => { z.1 with qif := { z.1.qif with
       queues := Mem.put z.1.qif.queues id.val { x with sqHead := x.sqTail, deleting := del } } }
     let w := fun kind : Nat => Waiter.mk r kind id.val d.qif.order (x.sqHead + 2 ^ 16 * x.sqTail) (z.2.1 + 2 ^ 16 * z.2.2)
     let idle := mine = [] ∧ (∀ c ∈ d.qif.outbox, c.q ≠ id) ∧ ∀ y ∈ d.qif.waiters, sameRef y.ref r = false
     (id.val ≠ 0 → x.deleting = false → Mem.find d.qif.queues id.val = some x →
       exec (.queueReset r id) ⟨q, d⟩ = .next ⟨q, waiterPut (ended false) (w 1)⟩ ∧
       exec (.deleteQueue r id) ⟨q, d⟩ = .next ⟨q, waiterPut (ended true) (w 2)⟩ ∧
       (idle → exec (.queueReset r id) ⟨q, d⟩ = .next ⟨q, complete { d with qif := { d.qif with
           queues := Mem.put d.qif.queues id.val { x with sqHead := x.sqTail, deleting := false } } } r 0x0E 0 (x.sqHead + 2 ^ 16 * x.sqTail) 0⟩ ∧
         exec (.deleteQueue r id) ⟨q, d⟩ = .next ⟨q, complete { d with qif := { d.qif with
           queues := Mem.erase (Mem.put d.qif.queues id.val { x with sqHead := x.sqTail, deleting := true }) id.val } } r 0x06 0
             (x.sqHead + 2 ^ 16 * x.sqTail) 0⟩)) ∧
     (Mem.find d.qif.queues id.val = none ∨ id.val = 0 ∨ (Mem.find d.qif.queues id.val = some x ∧ x.deleting = true) →
       exec (.queueReset r id) ⟨q, d⟩ = .next ⟨q, refuse d r 0x0E 2⟩ ∧ exec (.deleteQueue r id) ⟨q, d⟩ = .next ⟨q, refuse d r 0x06 2⟩)) ∧
  (∀ (q : List Instr) (d : Dev) (id : QId) (cid : BitVec 16),
     let find := fun ks : List Nat => d.qif.waiters.find? fun w => decide (w.ref.q = id ∧ w.ref.cid = cid) && ks.contains w.kind
     let rest := fun w : Waiter => { d with qif := { d.qif with waiters := d.qif.waiters.filter fun x => !sameRef x.ref w.ref } }
     (∀ w : Waiter, stewardsDown d = false → waiterDone d w = true →
       (find [1, 2] = some w → w.kind = 1 → exec (.queueResetDone id cid) ⟨q, d⟩ = .next ⟨q, complete (rest w) w.ref 0x0E 0 w.r0 w.r1⟩) ∧
       (find [1, 2] = some w → w.kind = 2 → exec (.queueResetDone id cid) ⟨q, d⟩ = .next ⟨q, complete { rest w with
         qif := { (rest w).qif with queues := Mem.erase d.qif.queues w.scope } } w.ref 0x06 0 w.r0 w.r1⟩) ∧
       (find [0] = some w → exec (.flushDone id cid) ⟨q, d⟩ = .next ⟨q, complete (rest w) w.ref 0x08 0
         ((inScope d w).filter fun f => f.inStore).length
         (((inScope d w).filter fun f => f.inStore).filter fun f => decide (f.prog = .framed)).length⟩)) ∧
     (stewardsDown d = true ∨ (∀ w ∈ find [1, 2], waiterDone d w = false) → exec (.queueResetDone id cid) ⟨q, d⟩ = .next ⟨q, d⟩) ∧
     (stewardsDown d = true ∨ (∀ w ∈ find [0], waiterDone d w = false) → exec (.flushDone id cid) ⟨q, d⟩ = .next ⟨q, d⟩))

/-- FLUSH of a queue or of all: once nothing before it in its scope is held it completes SUCCESS with the numbers of pending cues, otherwise it waits;
an unknown queue is INVALID_FIELD (R455). ABORT of a command that isn't in flight or is past its decisive point completes NOT_FOUND (R421); of one
before it, it ends that command ABORTED, its own SUCCESS following: shown of a STREAM_WRITE that waits for room (R420, R422). The model's own choices
and readings in it: log entries 44, 46. -/
def Obligations.FlushAndAbort : Prop :=
  ∀ (q : List Instr) (d : Dev) (r : CmdRef) (scope : BitVec 16) (sq : QId) (cid : BitVec 16), r.q.val = 0 → hostClosed d = false →
    let w : Waiter := ⟨r, 0, scope.toNat, orderOf d r, 0, 0⟩
    let left := (inScope d w).filter fun f => f.inStore
    let known := scope.toNat < 16384 ∨ scope.toNat = 0xFFFF
    let t : CmdRef := { r with q := sq, cid := cid }
    let named := { d with qif := { d.qif with waiters := d.qif.waiters ++ [⟨r, 3, sq.val, cid.toNat, 0, 0⟩] } }
    (known → waiterDone d w = true → exec (.flush r scope) ⟨q, d⟩ = .next ⟨q, complete { d with qif := { d.qif with
      waiters := d.qif.waiters.filter fun x => !sameRef x.ref r } } r 0x08 0 left.length
        (left.filter fun f => decide (f.prog = .framed)).length⟩) ∧
    (known → waiterDone d w = false → exec (.flush r scope) ⟨q, d⟩ =
      .next ⟨q, { d with qif := { d.qif with waiters := d.qif.waiters ++ [w] } }⟩) ∧
    (d.qif.flights = [] → d.qif.outbox = [] → waiterDone d w = true ∧ left = []) ∧
    (¬known → exec (.flush r scope) ⟨q, d⟩ = .next ⟨q, refuse d r 0x08 2⟩) ∧
    (flightOf d t = none → exec (.abort r sq cid) ⟨q, d⟩ = .next ⟨q, complete d r 0x07 6 0 0⟩) ∧
    (∀ f : Flight, flightOf d t = some f → abortable d f = false → exec (.abort r sq cid) ⟨q, d⟩ = .next ⟨q, complete d r 0x07 6 0 0⟩) ∧
    (∀ f : Flight, flightOf d t = some f → abortable d f = true → exec (.abort r sq cid) ⟨q, d⟩ = .next ⟨q, abortFlight named f⟩) ∧
    (∀ (f : Flight) (y : StreamWait), flightOf d t = some f → f.opcode = 0x20 → f.prog = .due → f.timed = false → y ∈ d.qif.swaits →
      sameRef y.ref f.ref = true → (∀ v ∈ d.qif.waiters, v.kind ≠ 3) → d.qif.outbox = [] → hostLive d t = true → sameRef r t = false →
      ∃ (u : Dev) (c e : Completion), exec (.abort r sq cid) ⟨q, d⟩ = .next ⟨q, u⟩ ∧
        u.qif.outbox = [c, e] ∧ c.q = sq ∧ c.cid = cid ∧ c.opcode = 0x20 ∧ c.status = 4 ∧
        e.q = r.q ∧ e.cid = r.cid ∧ e.opcode = 0x07 ∧ e.status = 0 ∧
        u.qif.flights = d.qif.flights.filter (fun g => !sameRef g.ref t && !sameRef g.ref r) ∧
        u.qif.swaits = d.qif.swaits.filter (fun v => !sameRef v.ref t) ∧ u.chs = d.chs ∧ u.guard = d.guard)

/-- IMAGE_ACTIVATE, with MARK 0 or 1 and any time, on Q0 with the host open, of a slot whose image passes every check: the activation is staged with
its MARK, its fetch boundary and the decoded image, and its entry waits for its B, its frame, or nothing (R92, R453). An image that fails completes
IMAGE_MISMATCH with its reason in RESULT0 (R83), an empty slot INVALID_FIELD, MARK 1 outside the write window TEMPERATURE (R483), a timed one without
a place in the cue store NOT_READY (R406), and a late one LATE unless its flag says to apply it, when it is staged as untimed (R403): each with
nothing staged. The image in force stays. IMAGE_MARK and IMAGE_CLEAR_MARK with the host open (R453): for a slot that holds an image, and with the
write window open, the mark's write joins the non-volatile queue and the command waits for it in the journal; an empty slot is INVALID_FIELD, a closed
window TEMPERATURE. The model's own choices and readings in it: log entries 27, 44. -/
def Obligations.ImageActivationAndMarks : Prop :=
  (∀ (q : List Instr) (d : Dev) (r : CmdRef) (k : Fin 4) (t : When) (late mark : Bool), r.q.val = 0 → hostClosed d = false →
     let run := exec (if mark then .imageActivateMark r k t late else .imageActivate r k t late) ⟨q, d⟩
     let held := flightOf d r ≠ none
     let w := resolveWhen d t
     let past := ∃ b : Nat, w = .stc b ∧ b < max (nextStc d) (fetchedAt d r + 4800)
     let full := w ≠ .untimed ∧ ¬held ∧ 65536 ≤ cuesUsed d
     let closed := mark = true ∧ ¬held ∧ nvOpen d = false
     (d.admin.img[k].valid = true → ¬closed → ¬full → (past → late = true) →
       (∀ img : Image, checkSlot d d.admin.img[k] = .ok img → ∃ u : Dev, run = .next ⟨q, u⟩ ∧ u = { d with qif := u.qif, core := { d.core with
         act := some ⟨some r, fetchedAt d r, k.val, img, .staging, 0, mark⟩ } } ∧ u.qif.outbox = d.qif.outbox ∧
         ∃ f ∈ u.qif.flights, sameRef f.ref r = true ∧ (w = .untimed ∨ past → f.prog = .started ∧ f.timed = false) ∧
           (∀ b : Nat, w = .stc b → ¬past → f.prog = .cue ∧ f.at_ = b ∧ f.timed = true) ∧
           (∀ m o : Nat, w = .frame m o → f.prog = .framed ∧ f.frame = m ∧ f.offset = o ∧ f.timed = true)) ∧
       (∀ i : FailInfo, checkSlot d d.admin.img[k] = .error i → run = .next ⟨q, completeWith d r 0x0D 10 i
         (i.reason + 2 ^ 8 * i.tile + 2 ^ 16 * i.phase + 2 ^ 24 * i.slice) (i.param + 2 ^ 16 * i.index)⟩)) ∧
     (d.admin.img[k].valid = false → run = .next ⟨q, refuse d r 0x0D 2⟩) ∧
     (d.admin.img[k].valid = true → closed → run = .next ⟨q, refuse (setThm d 6) r 0x0D 7⟩) ∧
     (d.admin.img[k].valid = true → ¬closed → full → run = .next ⟨q, refuse d r 0x0D 3⟩) ∧
     (d.admin.img[k].valid = true → ¬closed → ¬full → past → late = false → run = .next ⟨q, refuse d r 0x0D 8⟩)) ∧
  (∀ (q : List Instr) (d : Dev) (r : CmdRef) (k : Fin 4) (set : Bool), r.q.val = 0 → hostClosed d = false →
     let cmd := if set then Instr.imageMark r k else Instr.imageClearMark r k
     let nv := d.admin.nv ++ [.mark (some r) (if set then some k.val else none)]
     (d.admin.img[k].valid = true → nvOpen d = true → flightOf d r = none →
       exec cmd ⟨q, d⟩ = .next ⟨q, { d with
         qif := { d.qif with
           flights := d.qif.flights ++ [{ ref := r, opcode := 0x0D, order := d.qif.order, fetched := nextStc d, cmd := cmd, prog := .started
                                          at_ := 0, frame := 0, offset := 0, lateApply := false, timed := false, written := false
                                          replay := false }]
           order := d.qif.order + 1 }
         admin := { d.admin with nv := nv } }⟩) ∧
     (d.admin.img[k].valid = true → flightOf d r ≠ none → exec cmd ⟨q, d⟩ = .next ⟨q, { d with admin := { d.admin with nv := nv } }⟩) ∧
     (d.admin.img[k].valid = false → exec cmd ⟨q, d⟩ = .next ⟨q, refuse d r 0x0D 2⟩) ∧
     (d.admin.img[k].valid = true → nvOpen d = false → flightOf d r = none →
       exec cmd ⟨q, d⟩ = .next ⟨q, refuse (setThm d 6) r 0x0D 7⟩))

/-- FW_DOWNLOAD and IMAGE_LOAD with the host open (R444): a chunk at offset 0 starts its staging buffer anew, a chunk at the buffer's length appends
to it, up to 4 MiB, and the command reports the length; any other offset or a chunk that doesn't fit is INVALID_FIELD. The FINAL chunk of an image
empties the buffer: an image that passes its checks queues the slot's write where the write window is open and is TEMPERATURE where it is closed (R84,
R446, R483), one that fails is IMAGE_MISMATCH with the check's reason (R83). The model's own choices and readings in it: log entries 44, 49. -/
def Obligations.StagingBuffers : Prop :=
  ∀ (q : List Instr) (d : Dev) (r : CmdRef) (k : Fin 4) (o : Nat) (chunk : List Byte), r.q.val = 0 → hostClosed d = false →
    let next := fun buf : List Byte => if o = 0 then chunk else buf ++ chunk
    let fits := fun buf : List Byte => (o = 0 ∨ o = buf.length) ∧ (next buf).length ≤ 4194304
    let b := next d.admin.fwBuf
    let m := next d.admin.imgBuf
    let last := exec (.imageLoad r k true o chunk) ⟨q, d⟩
    let empty := { d with admin := { d.admin with imgBuf := [] } }
    (fits d.admin.fwBuf → exec (.fwDownload r o chunk) ⟨q, d⟩ =
      .next ⟨q, complete { d with admin := { d.admin with fwBuf := b } } r 0x09 0 b.length 0⟩) ∧
    (¬fits d.admin.fwBuf → exec (.fwDownload r o chunk) ⟨q, d⟩ = .next ⟨q, refuse d r 0x09 2⟩) ∧
    (fits d.admin.imgBuf → exec (.imageLoad r k false o chunk) ⟨q, d⟩ =
      .next ⟨q, complete { d with admin := { d.admin with imgBuf := m } } r 0x0C 0 m.length 0⟩) ∧
    (fits d.admin.imgBuf → loadCheck d k.val m = none → nvOpen d = true →
      last = .next ⟨q, { d with admin := { d.admin with imgBuf := [], nv := d.admin.nv ++ [.image r k.val m] } }⟩) ∧
    (fits d.admin.imgBuf → loadCheck d k.val m = none → nvOpen d = false → last = .next ⟨q, refuse (setThm empty 6) r 0x0C 7⟩) ∧
    (∀ i : FailInfo, fits d.admin.imgBuf → loadCheck d k.val m = some i → last = .next ⟨q, completeWith empty r 0x0C 10 i
      (i.reason + 2 ^ 8 * i.tile + 2 ^ 16 * i.phase + 2 ^ 24 * i.slice) (i.param + 2 ^ 16 * i.index)⟩) ∧
    (∀ fin : Bool, ¬fits d.admin.imgBuf → exec (.imageLoad r k fin o chunk) ⟨q, d⟩ = .next ⟨q, refuse d r 0x0C 2⟩)

/-- FW_COMMIT, FW_COMMIT_BOOT and FW_MARK_BOOT with the host open (R445): the staging buffer is consumed; a file that passes its checks, for a slot
other than the running one, queues the slot's write (with the boot mark for ACTION 1), one that fails completes INVALID_FIELD with the check's reason,
the running slot is INVALID_FIELD, a slot that holds firmware can be marked for boot, and with the write window closed all of them are TEMPERATURE
(R483). NV_WRITE_COMPLETE makes the oldest queued write whole (R446): firmware and its boot mark, an image, a mark for automatic load, a load record,
the wear counts, a block's move; its command completes SUCCESS, and the stewards start what may start next (R431). With no write, or while the
stewards restart, nothing happens. FW_ACTIVATE of a slot with valid firmware, no activation in progress: fetching pauses, the staging buffers are
emptied and the replay record notes boundary, slots and journal (R448, R452); another slot is INVALID_FIELD, during an activation it is NOT_READY.
FW_RUNNING and FW_FALLBACK resume fetching, the slot running or not, with the outcome in the record, and FW_ACTIVATE completes SUCCESS or ABORTED
(R450, R451); without one they only let the stewards go on. The model's own choices and readings in it: log entries 4, 44, 49, 51. -/
def Obligations.FirmwareAndWrites : Prop :=
  (∀ (q : List Instr) (d : Dev) (r : CmdRef) (k : Fin 2) (boot : Bool), r.q.val = 0 → hostClosed d = false →
     let run := exec (if boot then .fwCommitBoot r k else .fwCommit r k) ⟨q, d⟩
     let empty := { d with admin := { d.admin with fwBuf := [] } }
     let reason := fwReason d.admin.keys d.admin.fwBuf
     (k.val ≠ d.admin.fwRunning → reason = 0 → nvOpen d = true → run = .next ⟨q, { d with admin := { d.admin with
       fwBuf := [], nv := d.admin.nv ++ [.fw r k.val (fwSlotOf d.admin.fwBuf) boot] } }⟩) ∧
     (k.val ≠ d.admin.fwRunning → reason = 0 → nvOpen d = false → run = .next ⟨q, refuse (setThm empty 6) r 0x0A 7⟩) ∧
     (d.admin.fw[k].st ≠ 0 → nvOpen d = false → exec (.fwMarkBoot r k) ⟨q, d⟩ = .next ⟨q, refuse (setThm empty 6) r 0x0A 7⟩) ∧
     (k.val ≠ d.admin.fwRunning → reason ≠ 0 → run = .next ⟨q, completeWith empty r 0x0A 2 (failAt reason) reason 0⟩) ∧
     (k.val = d.admin.fwRunning → run = .next ⟨q, refuse empty r 0x0A 2⟩) ∧
     (d.admin.fw[k].st ≠ 0 → nvOpen d = true → exec (.fwMarkBoot r k) ⟨q, d⟩ =
       .next ⟨q, { d with admin := { d.admin with fwBuf := [], nv := d.admin.nv ++ [.fwBoot r k.val] } }⟩) ∧
     (d.admin.fw[k].st = 0 → exec (.fwMarkBoot r k) ⟨q, d⟩ = .next ⟨q, refuse empty r 0x0A 2⟩)) ∧
  (∀ (q : List Instr) (d : Dev) (r : CmdRef) (rest : List NvJob),
     let whole := fun (j : NvJob) (u : Dev) => d.admin.nv = j :: rest → exec .nvWriteComplete ⟨q, d⟩ = .next ⟨q, adminNext u⟩
     (d.admin.act = none →
       (∀ (k : Fin 2) (c : FwSlot) (boot : Bool), whole (.fw r k.val c boot) (complete { d with admin := { d.admin with
         nv := rest
         fw := d.admin.fw.set k { c with stc := nextStc d }
         fwBoot := if boot then k.val else d.admin.fwBoot } } r 0x0A 0 0 0)) ∧
       (∀ k : Fin 2, whole (.fwBoot r k.val) (complete { d with admin := { d.admin with nv := rest, fwBoot := k.val } } r 0x0A 0 0 0)) ∧
       (∀ (k : Fin 4) (bs : List Byte), whole (.image r k.val bs) (complete { d with admin := { d.admin with
         nv := rest, img := d.admin.img.set k ⟨true, bs, nextStc d, 0⟩ } } r 0x0C 0 bs.length 0)) ∧
       (∀ k : Option Nat, whole (.mark none k) { d with admin := { d.admin with nv := rest, autoSlot := k } }) ∧
       (∀ k : Option Nat, d.admin.nv = .mark (some r) k :: rest → ∃ a b : Nat, exec .nvWriteComplete ⟨q, d⟩ = .next ⟨q, adminNext
         (complete { d with admin := { d.admin with nv := rest, autoSlot := k }, free := d.free + 2 } r 0x0D 0 a b)⟩) ∧
       (∀ (k : Nat) (old new : List Byte), Mem.find d.admin.records k = some old → whole (.record k old new)
         { d with admin := { d.admin with nv := rest, records := Mem.put d.admin.records k new } }) ∧
       (∀ (k : Nat) (old new : List Byte), Mem.find d.admin.records k ≠ some old → whole (.record k old new)
         { d with admin := { d.admin with nv := rest } }) ∧
       whole .health { d with admin := { d.admin with nv := rest }, cob := { d.cob with wearSaved := d.chs.toList.map (·.wear) } } ∧
       (∀ b : Nat, d.admin.nv = .move b :: rest → d.cob.nvWear ≤ 0xFFFF → ∃ w : Nat, d.cob.nvWear ≤ w ∧ w ≤ 0xFFFF ∧
         exec .nvWriteComplete ⟨q, d⟩ = .next ⟨q, adminNext
           { d with admin := { d.admin with nv := rest }, cob := { d.cob with nvWear := w }, free := d.free + 1 }⟩)) ∧
     (d.admin.nv = [] ∨ d.admin.act ≠ none → exec .nvWriteComplete ⟨q, d⟩ = .next ⟨q, d⟩)) ∧
  (∀ (q : List Instr) (d : Dev) (r : CmdRef) (k : Fin 2),
     let busy := activating d = true ∨ d.admin.act ≠ none
     (r.q.val = 0 → hostClosed d = false →
       (d.admin.fw[k].st = 1 → ¬busy → ∃ u : Dev,
         exec (.fwActivate r k) ⟨q, d⟩ = .next ⟨q, u⟩ ∧ u = { d with qif := u.qif, admin := u.admin } ∧ u.qif.paused = true ∧
         u.admin.fwBuf = [] ∧ u.admin.imgBuf = [] ∧ u.admin.act = some (r, k.val, hereStc d) ∧ u.admin.replay.stcPause = hereStc d ∧
         u.admin.replay.fromSlot = d.admin.fwRunning ∧ u.admin.replay.toSlot = k.val ∧ u.admin.fwRunning = d.admin.fwRunning ∧
         u.qif.outbox = d.qif.outbox) ∧
       (d.admin.fw[k].st ≠ 1 → exec (.fwActivate r k) ⟨q, d⟩ = .next ⟨q, refuse d r 0x0B 2⟩) ∧
       (d.admin.fw[k].st = 1 → busy → exec (.fwActivate r k) ⟨q, d⟩ = .next ⟨q, refuse d r 0x0B 3⟩)) ∧
     (∀ (stc : Nat) (ok : Bool), d.admin.act = some (r, k.val, stc) → ∃ (e : Dev) (n us : Nat),
       exec (if ok then .fwRunning else .fwFallback) ⟨q, d⟩ = .next ⟨q, adminNext (readyQ0 (complete e r 0x0B (if ok then 0 else 4) n us))⟩ ∧
       e.qif.paused = false ∧ e.admin.act = none ∧ e.admin.fwRunning = (if ok then k.val else d.admin.fwRunning) ∧
       e.admin.replay.outcome = (if ok then 0 else 1) ∧ e.admin.replay.stcResume = hereStc d ∧ e.chs = d.chs ∧ e.guard = d.guard) ∧
     (d.admin.act = none → exec .fwRunning ⟨q, d⟩ = .next ⟨q, adminNext (readyQ0 d)⟩ ∧
       exec .fwFallback ⟨q, d⟩ = .next ⟨q, adminNext (readyQ0 d)⟩))

/-- The non-volatile write window (R483, R484): while the core sensors in use read 0 °C to 95 °C, NV_WINDOW_OPEN makes the writes that waited, in
order, and HEALTH_SAVE, while the Cobbler works (R29), queues the health record; outside the window the record waits, with THM_EVENT bit 6; in audio
reset, while the part throttles or while the Cobbler doesn't work nothing is saved (R473, R480). The model's own choices and readings in it: log
entries 4, 34. -/
def Obligations.WriteWindow : Prop :=
  ∀ (q : List Instr) (d : Dev),
    (nvOpen d = true → exec .nvWindowOpen ⟨q, d⟩ =
      .next ⟨q, { d with admin := { d.admin with nv := d.admin.nv ++ d.admin.nvDeferred, nvDeferred := [] } }⟩) ∧
    (nvOpen d = false → exec .nvWindowOpen ⟨q, d⟩ = .next ⟨q, d⟩) ∧
    (d.guard.audioReset = false → d.shank.throttle = false → cobWorks d = true → nvOpen d = true →
      exec .healthSave ⟨q, d⟩ = .next ⟨q, { d with admin := { d.admin with nv := d.admin.nv ++ [.health] } }⟩) ∧
    (d.guard.audioReset = false → d.shank.throttle = false → cobWorks d = true → nvOpen d = false → ∃ u : Dev,
      exec .healthSave ⟨q, d⟩ = .next ⟨q, u⟩ ∧ u = { d with admin := u.admin, shank := u.shank, qif := u.qif } ∧
      u.admin.nvDeferred = d.admin.nvDeferred ++ [.health] ∧ u.admin.nv = d.admin.nv ∧ u.shank.event.getLsbD 6 = true) ∧
    (d.guard.audioReset = true ∨ d.shank.throttle = true ∨ cobWorks d = false → exec .healthSave ⟨q, d⟩ = .next ⟨q, d⟩)

/-- STREAM_WRITE with the host open and an image in force (R328, R329, R378, R412): with room an untimed one is copied, without the samples owed to an
alignment group's drop, and completes SUCCESS with the samples taken and the fill; without room it waits; a timed one is copied with its start and
completes at its boundary, after its boundary it is LATE; a length outside 1 to 16,384 or a stream that isn't enabled is INVALID_FIELD, a closed host
or no image NOT_READY. STREAM_ROOM copies the writes of its stream that wait, in fetch order, each once it fits. The model's own choices and readings
in it: log entries 4, 44, 45. -/
def Obligations.StreamWrite : Prop :=
  ∀ (q : List Instr) (d : Dev) (r : CmdRef) (h : HStream) (fin : Bool) (ws : List W32) (st : Option Nat),
    let xs := ws.map fun w => w.toInt
    let n := ws.length
    let s := d.mix.streams[h]
    let k := min s.discardNext n
    let run := fun st : Option Nat => exec (.streamWrite r h fin ws st) ⟨q, d⟩
    let sized := 1 ≤ n ∧ n ≤ 16384
    let open_ := hostClosed d = false ∧ imageOn d = true
    let late := fun st : Option Nat => ∃ b ∈ st, b < nextStc d
    let only := fun u : Dev => ∀ j : HStream, j ≠ h → u.mix.streams[j] = d.mix.streams[j]
    (sized → open_ → s.en = true → n + s.fifo.length ≤ 16384 → ∃ u : Dev,
      run none = .next ⟨q, complete u r 0x20 0 n (s.fifo.length + n - k)⟩ ∧
      u = { d with mix := { d.mix with streams := u.mix.streams } } ∧ only u ∧
      u.mix.streams[h].fifo = s.fifo ++ (hsEntries xs fin).drop k ∧ u.mix.streams[h].discardNext = s.discardNext - k ∧
      u.mix.streams[h].running = (s.running || (decide (s.starts = []) && decide (k < n)))) ∧
    (∀ b : Nat, sized → open_ → s.en = true → nextStc d ≤ b → n + s.fifo.length ≤ 16384 → ∃ u : Dev, run (some b) = .next ⟨q, u⟩ ∧
      u = { d with mix := { d.mix with streams := u.mix.streams }, qif := { d.qif with flights := u.qif.flights } } ∧ only u ∧
      u.mix.streams[h] = { s with
        fifo := s.fifo ++ (hsEntries xs fin).drop k, discardNext := s.discardNext - k, starts := s.starts ++ [⟨b, s.fifo.length, n - k, r⟩] }) ∧
    (sized → open_ → s.en = true → ¬late st → 16384 < n + s.fifo.length →
      run st = .next ⟨q, { d with qif := { d.qif with swaits := d.qif.swaits ++ [⟨r, h.val, fin, xs, st⟩] } }⟩) ∧
    (sized → open_ → late st → run st = .next ⟨q, refuse d r 0x20 8⟩) ∧
    (sized → open_ → ¬late st → s.en = false → run st = .next ⟨q, refuse d r 0x20 2⟩) ∧
    (sized → ¬open_ → run st = .next ⟨q, refuse d r 0x20 3⟩) ∧
    (¬sized → run st = .next ⟨q, refuse d r 0x20 2⟩) ∧
    (∀ (a b : List StreamWait) (w : StreamWait), d.qif.swaits = a ++ w :: b → w.h = h.val → (∀ v ∈ a ++ b, v.h ≠ h.val) →
      let m := w.samples.length
      let j := min s.discardNext m
      m + s.fifo.length ≤ 16384 → ∃ u : Dev,
        u.qif.swaits = d.qif.swaits.filter (fun x => !decide (x.ref = w.ref)) ∧ u.chs = d.chs ∧ u.awl = d.awl ∧ u.ports = d.ports ∧
        (w.start = none → exec (.streamRoom h) ⟨q, d⟩ = .next ⟨q, complete u w.ref 0x20 0 m (s.fifo.length + m - j)⟩ ∧ only u ∧
          u.mix.streams[h].fifo = s.fifo ++ (hsEntries w.samples w.fin).drop j) ∧
        (∀ x ∈ w.start, nextStc d ≤ x → exec (.streamRoom h) ⟨q, d⟩ = .next ⟨q, u⟩ ∧ only u ∧
          u.mix.streams[h].fifo = s.fifo ++ (hsEntries w.samples w.fin).drop j ∧
          u.mix.streams[h].starts = s.starts ++ [⟨x, s.fifo.length, m - j, w.ref⟩]) ∧
        (∀ x ∈ w.start, x < nextStc d → exec (.streamRoom h) ⟨q, d⟩ = .next ⟨q, refuse u w.ref 0x20 8⟩ ∧ u.mix = d.mix)) ∧
    ((∀ w ∈ d.qif.swaits, w.h = h.val → 16384 - s.fifo.length < w.samples.length) → exec (.streamRoom h) ⟨q, d⟩ = .next ⟨q, d⟩)

/-- CAPTURE_READ and TELEMETRY_READ with the host open. CAPTURE_READ writes the unit's entries from START, or from the oldest kept, eight bytes each,
as many as the buffer holds, and reports the first number and the count (with none to write the first number is free); the unit itself stays (R410).
TELEMETRY_READ writes the STC of the present boundary, offset, count and the registers read there, and reports that boundary; a window past the
registers, or a buffer too small, is INVALID_FIELD (R413, R414). In bring-up both complete NOT_READY. The model's own choices and readings in it: log
entry 44. -/
def Obligations.CaptureAndTelemetryRead : Prop :=
  ∀ (q : List Instr) (d : Dev) (r : CmdRef) (k : Fin 16) (start o n : Nat),
    let c := d.awl.caps[k]
    let es := (c.entries.drop (max start c.first - c.first)).take (r.len / 8)
    let grid := 8 ≤ r.len ∧ r.len % 8 = 0
    let window := o % 4 = 0 ∧ 1 ≤ n ∧ n ≤ 8128 ∧ o + 4 * n ≤ 0x7F00 ∧ 16 + 4 * n ≤ r.len
    (hostClosed d = false → grid → ∃ first : Nat, (es ≠ [] → first = max start c.first) ∧ exec (.captureRead r k start) ⟨q, d⟩ =
      .next ⟨q, complete (hostWrite { d with free := d.free + 1 } r (es.flatMap capBytes)) r 0x21 0 first es.length⟩) ∧
    (¬grid → exec (.captureRead r k start) ⟨q, d⟩ = .next ⟨q, refuse d r 0x21 2⟩) ∧
    (hostClosed d = false → window → exec (.telemetryRead r o n) ⟨q, d⟩ =
      .next ⟨q, completeAt (hostWrite d r (le 8 d.tb.stc ++ le 4 o ++ le 4 n ++
        (List.range n).flatMap fun k => le 4 (readReg d (o + 4 * k)))) r 0x29 0 d.tb.stc⟩) ∧
    (¬window → exec (.telemetryRead r o n) ⟨q, d⟩ = .next ⟨q, refuse d r 0x29 2⟩) ∧
    (hostClosed d = true → grid → exec (.captureRead r k start) ⟨q, d⟩ = .next ⟨q, refuse d r 0x21 3⟩) ∧
    (hostClosed d = true → window → exec (.telemetryRead r o n) ⟨q, d⟩ = .next ⟨q, refuse d r 0x29 3⟩)

/-- TABLE_WRITE and TABLE_READ of a channel in use, a bridged pair under its even half, host open and image in force (R234 to R239, R411, R413): a
region's twelve words, or the seven conditions and ρ, take the values written at the present boundary, for both halves of a pair, and the command
reports that boundary; every other channel's tables stay; a read writes the words held to the buffer: a region's, the conditions with ρ, or those in
force. Words that R235 or R229 forbid, a channel that isn't in use or an odd half is INVALID_FIELD, a closed host or no image NOT_READY. The model's
own choices and readings in it: log entries 29, 44. -/
def Obligations.RegionTables : Prop :=
  ∀ (q : List Instr) (d : Dev) (r : CmdRef) (c : Ch) (kind : Fin 3) (cond : Bool) (g : Fin 8) (ws : List W64),
    let ns := ws.map (·.toNat)
    let open_ := hostClosed d = false ∧ imageOn d = true
    let there := oddHalf d c = false ∧ d.chs[c].cfg.inUse = true
    let words := if cond then ws.length = 8 ∧ threshOk ns = true else ws.length = 12 ∧ regionTableOk ns = true
    let size := r.len = (if kind = 1 then 64 else 96)
    let at_ := fun (bs : List Nat) => Host.Outcome.next (φ := Fault) (ρ := Refusal)
      (State.mk q (completeAt (hostWrite d r (bs.flatMap (le 8))) r 0x23 0 d.tb.stc))
    (words → open_ → there → ∃ u : Dev, exec (.tableWrite r c cond g ws) ⟨q, d⟩ = .next ⟨q, completeAt u r 0x22 0 d.tb.stc⟩ ∧
      u = { d with chs := u.chs, core := { d.core with tiles := u.core.tiles } } ∧
      (∀ k : Ch, u.chs[k] = if k ∈ halves d c then { d.chs[k] with region := if cond
          then { d.chs[k].region with conds := ws.take 7, rho := ws.getD 7 0 }
          else { d.chs[k].region with tables := d.chs[k].region.tables.set g.val ws } } else d.chs[k]) ∧
      (∀ t : LTile, t ≠ etOf c → u.core.tiles[t] = d.core.tiles[t])) ∧
    (¬words → exec (.tableWrite r c cond g ws) ⟨q, d⟩ = .next ⟨q, refuse d r 0x22 2⟩) ∧
    (words → ¬open_ → exec (.tableWrite r c cond g ws) ⟨q, d⟩ = .next ⟨q, refuse d r 0x22 3⟩) ∧
    (words → open_ → ¬there → exec (.tableWrite r c cond g ws) ⟨q, d⟩ = .next ⟨q, completeAt d r 0x22 2 d.tb.stc⟩) ∧
    (size → open_ → there → exec (.tableRead r c kind g) ⟨q, d⟩ = at_ (tableWords d c kind g)) ∧
    tableWords d c 0 g = (d.chs[c].region.tables.getD g.val []).map (·.toNat) ∧
    tableWords d c 1 g = (d.chs[c].region.conds ++ [d.chs[c].region.rho]).map (·.toNat) ∧
    (¬size → exec (.tableRead r c kind g) ⟨q, d⟩ = .next ⟨q, refuse d r 0x23 2⟩) ∧
    (size → ¬open_ → exec (.tableRead r c kind g) ⟨q, d⟩ = .next ⟨q, refuse d r 0x23 3⟩) ∧
    (size → open_ → ¬there → exec (.tableRead r c kind g) ⟨q, d⟩ = .next ⟨q, completeAt d r 0x23 2 d.tb.stc⟩)

/-- TIMED_SET with the host open and an image in force, at the present boundary, which it reports (R322, R336 to R338, R346, R348, R372): a term's
source, a delay with its slew, limiter constants, a slot mask or a source corner take the values written, and nothing else changes; a gain takes its
value and ends the trajectory that runs on it (R343); an object that the image lacks is INVALID_FIELD at that boundary, and a value outside its range
at once; a closed host or no image is NOT_READY. The model's own choices and readings in it: log entry 44. -/
def Obligations.TimedSet : Prop :=
  ∀ (q : List Instr) (d : Dev) (r : CmdRef) (img : Image) (c : Ch) (p : Port) (mask : W32) (o : SetObj),
    (hostClosed d = false → d.core.image = some img →
      (setFieldOk o = true → setObjOk d img o = true → exec (.timedSet r o) ⟨q, d⟩ = .next ⟨q, completeAt (applySet d o) r 0x24 0 d.tb.stc⟩) ∧
      (∀ tau slew : Nat, setFieldOk (.delay c tau slew) = true → setObjOk d img (.delay c tau slew) = true →
        exec (.timedSet r (.delay c tau slew)) ⟨q, d⟩ =
          .next ⟨q, completeAt (d.mixCh c.val fun m => { m with tau := tau, slew := slew }) r 0x24 0 d.tb.stc⟩) ∧
      (∀ thr rel : Nat, thr ≤ 2000 → 1 ≤ rel → rel ≤ 1000 → oddHalf d c = false → exec (.timedSet r (.limiter c thr rel)) ⟨q, d⟩ =
        .next ⟨q, completeAt (d.mixCh c.val fun m => { m with thr := thr, rel := rel }) r 0x24 0 d.tb.stc⟩) ∧
      exec (.timedSet r (.slotMask p mask)) ⟨q, d⟩ =
        .next ⟨q, completeAt (d.sap p.val fun s => { s with maskPend := mask }) r 0x24 0 d.tb.stc⟩ ∧
      (∀ (code : BitVec 16) (sel : Byte), sourceOk code.toNat = true → sel.toNat < 3 → exec (.timedSet r (.corner code sel)) ⟨q, d⟩ =
        .next ⟨q, completeAt { d with mix := { d.mix with corners := Mem.set d.mix.corners 0 code.toNat sel.toNat } } r 0x24 0 d.tb.stc⟩) ∧
      (∀ (t : Nat) (code : BitVec 16), sourceOk code.toNat = true → setObjOk d img (.termSource c t code) = true →
        exec (.timedSet r (.termSource c t code)) ⟨q, d⟩ = .next ⟨q, completeAt (d.mixCh c.val fun m => { m with
          terms := m.terms.modify t fun y => { y with code := code.toNat } }) r 0x24 0 d.tb.stc⟩) ∧
      (∀ (t : Nat) (g : BitVec 24) (k : Fin 64) (s : SetObj × GainObj),
        s ∈ [(.termGain c t g, .term c t), (.outGain c g, .out c), (.groupGain k g, .group k)] → setObjOk d img s.1 = true → ∃ u : Dev,
          exec (.timedSet r s.1) ⟨q, d⟩ = .next ⟨q, completeAt u r 0x24 0 d.tb.stc⟩ ∧ gainGet u s.2 = g.toInt ∧
          u.mix.trajs = d.mix.trajs.filter (fun y => !decide (y.obj = s.2 ∧ y.k < y.steps)) ∧
          u = { d with mix := u.mix, qif := u.qif, admin := u.admin }) ∧
      (setFieldOk o = true → setObjOk d img o = false → exec (.timedSet r o) ⟨q, d⟩ = .next ⟨q, completeAt d r 0x24 2 d.tb.stc⟩)) ∧
    (setFieldOk o = false → exec (.timedSet r o) ⟨q, d⟩ = .next ⟨q, refuse d r 0x24 2⟩) ∧
    (setFieldOk o = true → hostClosed d = true ∨ d.core.image = none → exec (.timedSet r o) ⟨q, d⟩ = .next ⟨q, refuse d r 0x24 3⟩)

/-- GAIN_TRAJECTORY with the host open, an image in force and fewer than 512 others running: it starts at the present boundary from the gain that
stood just before it, without a completion, and ends the one that runs on its object (R339 to R342); a LOG one between signs, or an object that isn't
there, completes INVALID_FIELD at that boundary, 0 or more than 2^20 steps at once, and a 513th NOT_READY. TRAJECTORY_END, at its last step, gives the
object its end value and completes SUCCESS with the boundary it started at; before that, or for a command that runs none, it does nothing. Every step
of a LIN trajectory lies on the line from its start to its end value to within half an LSB, and the last step is the end value (R339). The model's own
choices and readings in it: log entries 4, 44. -/
def Obligations.GainTrajectories : Prop :=
  (∀ (q : List Instr) (d : Dev) (r : CmdRef) (o : GainObj) (log : Bool) (g1 : BitVec 24) (steps : Nat),
     let run := exec (.gainTrajectory r o log g1 steps) ⟨q, d⟩
     let g0 := gainBefore d o
     let sized := 1 ≤ steps ∧ steps ≤ 1048576
     let open_ := hostClosed d = false ∧ imageOn d = true
     let cross := log = true ∧ ((g0 < 0 ∧ 0 < g1.toInt) ∨ (g1.toInt < 0 ∧ 0 < g0))
     let others := (d.mix.trajs.filter fun t => decide (t.k < t.steps ∧ t.obj ≠ o)).length
     (sized → open_ → gainExists d o = true → ¬cross → others < 512 → ∃ u : Dev, run = .next ⟨q, u⟩ ∧
       u = { d with mix := { d.mix with trajs := u.mix.trajs, gBefore := u.mix.gBefore }, qif := u.qif, admin := u.admin } ∧
       u.mix.trajs = d.mix.trajs.filter (fun t => !decide (t.obj = o ∧ t.k < t.steps)) ++ [⟨r, d.tb.stc, o, g0, g1.toInt, steps, 0, log⟩] ∧
       ((∀ t ∈ d.mix.trajs, t.obj ≠ o) → u.qif = d.qif ∧ u.admin = d.admin)) ∧
     (sized → open_ → gainExists d o = true → ¬cross → 512 ≤ others → run = .next ⟨q, completeAt d r 0x25 3 d.tb.stc⟩) ∧
     (sized → open_ → gainExists d o = false ∨ cross → run = .next ⟨q, completeAt d r 0x25 2 d.tb.stc⟩) ∧
     (¬sized → run = .next ⟨q, refuse d r 0x25 2⟩) ∧
     (sized → ¬open_ → run = .next ⟨q, refuse d r 0x25 3⟩) ∧
     ∀ (id : QId) (cid : BitVec 16),
       let found := d.mix.trajs.find? fun t => decide (t.ref.q = id ∧ t.ref.cid = cid)
       let without := fun (e : Dev) (t : Traj) => { e with mix := { e.mix with trajs := d.mix.trajs.filter fun x => !sameRef x.ref t.ref } }
       (∀ t ∈ found, t.k + 1 = t.steps → exec (.trajectoryEnd id cid) ⟨q, d⟩ =
         .next ⟨q, completeAt (without (gainPut d t.obj t.g1) t) t.ref 0x25 0 t.start⟩) ∧
       (∀ t ∈ found, t.steps ≤ t.k → exec (.trajectoryEnd id cid) ⟨q, d⟩ = .next ⟨q, completeAt (without d t) t.ref 0x25 0 t.start⟩) ∧
       ((∀ t ∈ found, t.k + 1 < t.steps) → exec (.trajectoryEnd id cid) ⟨q, d⟩ = .next ⟨q, d⟩)) ∧
  (∀ (t : Traj) (k : Nat) (up : Bool), t.log = false → -(2 ^ 23) ≤ t.g0 → t.g0 < 2 ^ 23 → -(2 ^ 23) ≤ t.g1 → t.g1 < 2 ^ 23 → 0 < t.steps →
     (t.steps ≤ k → trajValue t k up = t.g1) ∧
     (k < t.steps → 2 * ((t.steps : Int) * trajValue t k up - (t.g0 * t.steps + (t.g1 - t.g0) * k)).natAbs ≤ t.steps))

/-- SAP_FRAME of an enabled port, a master's only at its frame times (R363): the first frame start starts the port and latches its mask; a slave's
frame of another length than the port's delivers nothing and counts a frame error where the port runs or sends (R360, R370); a right one joins an
input's FIFO with its masked slots, unless a drop is owed, and overruns the FIFO of a running port that holds 8 (R357, R371, R374, R378); an input
starts running at 4 frames, an output at once, and an output sends the next of its FIFO (R370, R371). SAP_FRAME_TIMEOUT of a started slave discards
what was received (R361). A disabled port does nothing. SAP_PHASE_EVAL of a running port, once the fills of 1,024 ticks are summed up, gives the phase
and decides a slip exactly as R367 gives it from their average, none for a master or a free port (R363, R369); SAP_SLIP makes the decided slip due at
the port's next tick (R368); PARTNER_MEASURE reports what a slave port's partner sends (R314). Outside that none of the three changes a port. The
model's own choices and readings in it: log entries 4, 41. -/
def Obligations.SerialPorts : Prop :=
  (∀ (q : List Instr) (d : Dev) (p : Port) (bits : List Bool) (clocks : Nat),
     let s := d.ports.sap[p]
     let put := fun s : Sap => { d with ports := { d.ports with sap := d.ports.sap.set p s } }
     let live := d.guard.audioReset = false ∧ s.fmt.en = true ∧ (s.fmt.master = true → masterTime d s.fmt.rate = true)
     let right := s.fmt.master = true ∨ clocks = s.frameBits
     let up := fun t : Sap => { t with started := true, mask := t.maskPend, partPresent := t.partPresent || !t.fmt.master }
     let go := fun t : Sap => if t.running = true ∨ (t.fmt.out = false ∧ t.fifo.length < 4) then t else t.run (joinAcc d p.val)
     let wrong := if s.fmt.out || s.running then { s with frameErr := cnt32 s.frameErr } else s
     let slots := (List.range s.fmt.slots).map fun k => slotIn s.fmt s.mask bits k
     let run := exec (.sapFrame p bits clocks) ⟨q, d⟩
     (¬live → run = .next ⟨q, d⟩) ∧
     (live → s.fmt.out = false → s.started = false → run = .next ⟨q, put (go (up s))⟩) ∧
     (live → s.fmt.out = false → s.started = true → ¬right → run = .next ⟨q, put (go (up wrong))⟩) ∧
     (live → s.fmt.out = false → s.started = true → right → s.discardNext = 0 → ¬(s.running = true ∧ 8 ≤ s.fifo.length) →
       run = .next ⟨q, put (go (up { s with fifo := s.fifo ++ [slots] }))⟩) ∧
     (live → s.fmt.out = false → s.started = true → right → s.discardNext = 0 → s.running = true → 8 ≤ s.fifo.length →
       run = .next ⟨q, put (up { s with overruns := cnt32 s.overruns, resync := 4, fifo := [slots] })⟩) ∧
     (live → s.fmt.out = false → s.started = true → right → 0 < s.discardNext →
       run = .next ⟨q, put (go (up { s with discardNext := s.discardNext - 1 }))⟩) ∧
     (live → s.fmt.out = true → ∃ u : Sap, run = .next ⟨q, put u⟩ ∧ u.started = true ∧ u.running = true ∧ u.sentMask = s.maskPend ∧
       u.frameErr = (if s.started = true ∧ ¬right then cnt32 s.frameErr else s.frameErr) ∧
       (∀ (f : List Int) (rest : List (List Int)), s.fifo = f :: rest → s.resync = 0 →
         u.fifo = rest ∧ u.sent = f.map (slotOut s.fmt) ∧ u.standin = s.standin) ∧
       (s.fifo = [] ∨ s.resync ≠ 0 → u.fifo = s.fifo ∧ u.sent = s.sent ∧ u.standin = cnt32 s.standin)) ∧
     (s.fmt.en = true → s.fmt.master = false → s.started = true → exec (.sapFrameTimeout p) ⟨q, d⟩ =
       .next ⟨q, put { wrong with started := false, partPresent := false }⟩) ∧
     (s.fmt.en = false ∨ s.fmt.master = true ∨ s.started = false → exec (.sapFrameTimeout p) ⟨q, d⟩ = .next ⟨q, d⟩)) ∧
  (∀ (q : List Instr) (d : Dev) (p : Port) (bclk mhz : Nat),
     let s := d.ports.sap[p]
     let den : Int := (1024 * s.frameBits : Nat)
     let put := fun (d : Dev) (s : Sap) => { d with ports := { d.ports with sap := d.ports.sap.set p s } }
     let free := { d with free := d.free + 1 }
     let slave := s.fmt.en = true ∧ s.fmt.master = false ∧ d.guard.audioReset = false
     (∀ z : Int, s.evalSum = some z → s.fmt.en = true → s.running = true →
       let num := if s.fmt.out then 4 * den - z else z - 4 * den
       ∃ ph : Int, -128 ≤ ph ∧ ph ≤ 127 ∧ exec (.sapPhaseEval p) ⟨q, d⟩ = .next ⟨q, put free { s with
         evalSum := none, phase := ph, slipPend := if s.fmt.free || s.fmt.master then 0 else slipOf num den s.lastSlip }⟩ ∧
         (ph = 127 ∨ ph = -128 ∨ ((ph - 1) * den < 32 * num ∧ 32 * num < (ph + 1) * den) ∨ den = 0)) ∧
     (s.fmt.en = false ∨ s.running = false → exec (.sapPhaseEval p) ⟨q, d⟩ = .next ⟨q, put free { s with evalSum := none }⟩) ∧
     (s.evalSum = none → exec (.sapPhaseEval p) ⟨q, d⟩ = .next ⟨q, free⟩) ∧
     (s.slipPend = 1 ∨ s.slipPend = -1 → exec (.sapSlip p) ⟨q, d⟩ = .next ⟨q, put d { s with slipPend := 2 * s.slipPend }⟩) ∧
     (s.slipPend ≠ 1 → s.slipPend ≠ -1 → exec (.sapSlip p) ⟨q, d⟩ = .next ⟨q, d⟩) ∧
     (slave → exec (.partnerMeasure p bclk mhz) ⟨q, d⟩ = .next ⟨q, put d { s with
         partPresent := true
         partMatch := decide (bclk = s.frameBits ∧ rateCode mhz = s.fmt.rate)
         partRate := rateCode mhz
         partMhz := mhz
         partBclk := satN 0x7FF bclk
         partSlots := if bclk % s.fmt.width = 0 then satN 0x3F (bclk / s.fmt.width) else 0 }⟩) ∧
     (¬slave → exec (.partnerMeasure p bclk mhz) ⟨q, d⟩ = .next ⟨q, d⟩))

/-- MEASURE_LOAD (R285 to R290), of a bridged pair under its even half. With the host open and an image in force, the channel unlatched, unreleased
and idle, nothing in the way of R193 and the units of a sweep free, the pre-check starts at the present boundary and holds the capture units; a set of
steps that R286 forbids, too small a buffer, CABLE in local sense or a SWEEP without its stitches is INVALID_FIELD, a latched channel CHANNEL_LATCHED,
anything else in the way NOT_READY, with the class "not measured". MEASURE_PRECHECK_END, after 960 Fi periods, ends a driven channel's measurement
with class DRIVEN and starts the DC step of another, or its deletion; at any other time it does nothing. The model's own choices and readings in it:
log entries 4, 36, 44. -/
def Obligations.MeasurementStarts : Prop :=
  ∀ (q : List Instr) (d : Dev) (r : CmdRef) (c : Ch) (st : Byte) (img : Image),
    let run := exec (.measureLoad r c st) ⟨q, d⟩
    let ends := fun status : Nat => Host.Outcome.next (φ := Fault) (ρ := Refusal) (State.mk q (complete d r 0x26 status 0x400 0))
    let whole := stepsOk st.toNat = true ∧ 1152 ≤ r.len
    let open_ := hostClosed d = false ∧ d.core.image = some img
    let fits := oddHalf d c = false ∧ (st.getLsbD 1 = true → d.power[tileOf c].senseRemote = true) ∧ (st.getLsbD 2 = true → innerAwl img c = true)
    let latched := ∃ h ∈ halves d c, d.chs[h].prot.latched = true
    let busy := (∃ h ∈ halves d c, d.chs[h].prot.released = true ∨ d.chs[h].mod.halted = true ∨ inStop d.chs[h] = true ∨ d.chs[h].prot.drive ≠ .off) ∨
      d.chs[c].meas ≠ none ∨ clearRefused d c = true ∨ measUnits d st.toNat = none
    let pair := fun f : Chan → Chan => forCh (halves d c) (fun e h => e.ch h f) d
    (∀ us : List Nat, whole → open_ → fits → ¬latched → ¬busy → measUnits d st.toNat = some us → ∃ u : Dev, run = .next ⟨q, u⟩ ∧
        u = { d with chs := u.chs, awl := { d.awl with caps := u.awl.caps } } ∧ (∀ k : Ch, k ≠ c → u.chs[k] = d.chs[k]) ∧
        u.chs[c] = { d.chs[c] with meas := some (Meas.start r st.toNat d.tb.stc us) } ∧
        ∀ k : Fin 16, u.awl.caps[k] = if k.val ∈ us.drop 2 then { d.awl.caps[k] with heldBy := some c.val } else d.awl.caps[k]) ∧
    (¬whole → run = ends 2) ∧ (whole → hostClosed d = true ∨ d.core.image = none → run = ends 3) ∧
    (whole → open_ → ¬fits → run = ends 2) ∧ (whole → open_ → fits → latched → run = ends 9) ∧
    (whole → open_ → fits → ¬latched → busy → run = ends 3) ∧
    (∀ m : Meas, d.chs[c].meas = some m → m.step = 1 → 960 ≤ m.fi →
      (m.driven = true → exec (.measurePrecheckEnd c) ⟨q, d⟩ = .next ⟨q, setMeas d c { m with cls := 3, step := 0, writing := true, status := 0 }⟩) ∧
      (m.driven = false → m.steps.testBit 0 = true → exec (.measurePrecheckEnd c) ⟨q, d⟩ =
        .next ⟨q, setMeas (pair fun x => { x with prot := { x.prot with drive := .measure, ssCount := 0 } }) c
          { m with step := 2, fi := 0, sumV := 0, sumI := 0, sumSw := 0, cnt := 0, cntSw := 0, tripped := false }⟩) ∧
      (m.driven = false → m.steps.testBit 0 = false → m.steps.testBit 5 = true → exec (.measurePrecheckEnd c) ⟨q, d⟩ =
        .next ⟨q, setMeas d c (m.toStep 6)⟩) ∧
      (m.driven = false → m.steps.testBit 0 = false → m.steps.testBit 5 = false → exec (.measurePrecheckEnd c) ⟨q, d⟩ =
        .next ⟨q, setMeas d c (m.toResult 0)⟩)) ∧
    ((∀ m ∈ d.chs[c].meas, m.step ≠ 1 ∨ m.fi < 960) → exec (.measurePrecheckEnd c) ⟨q, d⟩ = .next ⟨q, d⟩)

/-- MEASURE_DC_END, its 1,920 Fi periods over (R291, R292): a trip or a resistance under 1 Ω is a short, above 200 Ω or with the mean current under
0.5 mA an open, and either ends the measurement with the half-duty periods of R289; a normal load goes on to CABLE, to the sweep or to its end. `sumV`
and `sumI` are sums of Fi means in units of 24 V / 2^23 and 10 A / 2^23. MEASURE_CABLE_END after 2,880 more goes on to the sweep or ends likewise,
with CABLE_VALID 0 and LENGTH 0xFFFF_FFFF above 0.1 A or without a declared cable (R293, R294). At any other time neither does anything. The model's
own choices and readings in it: log entries 4, 36. -/
def Obligations.MeasurementDcAndCable : Prop :=
  ∀ (q : List Instr) (d : Dev) (c : Ch) (m : Meas), d.chs[c].meas = some m →
    let i := m.sumI.natAbs
    let low := m.sumI ≠ 0 ∧ (m.sumV : Rat) * 24 / (m.sumI * 10) < 1
    let high := m.cnt = 0 ∨ 20000 * i < m.cnt * 2 ^ 23 ∨ (m.sumI ≠ 0 ∧ 200 < (m.sumV : Rat) * 24 / (m.sumI * 10))
    let cls := if m.tripped = true ∨ low then 1 else if high then 2 else 0
    let ending := fun (u : Dev) (n : Meas) => n.step = 7 ∧ ∀ h ∈ halves d c, u.chs[h].prot.ssCount = 0 ∧ u.chs[h].prot.sweep = false
    let sweeps := fun (u : Dev) (n : Meas) => n.step = 4 ∧ n.point = 0 ∧ n.fi = 0 ∧ ∀ h ∈ halves d c, u.chs[h].prot.sweep = true
    (m.step = 2 → 1920 ≤ m.fi → ∃ (u : Dev) (n : Meas), exec (.measureDcEnd c) ⟨q, d⟩ = .next ⟨q, u⟩ ∧ u.chs[c].meas = some n ∧
      n.cls = cls ∧ u.chs[c].measClass = cls ∧ n.done = m.done ||| 1 ∧ n.ref = m.ref ∧ n.steps = m.steps ∧
      u.tb = d.tb ∧ u.rails = d.rails ∧ u.power = d.power ∧ (∀ k : Ch, k ∉ halves d c → u.chs[k] = d.chs[k]) ∧
      (cls ≠ 0 → ending u n) ∧
      (cls = 0 → m.steps.testBit 1 = true → n.step = 3 ∧ n.fi = 0 ∧ n.sumV = 0 ∧ n.sumI = 0) ∧
      (cls = 0 → m.steps.testBit 1 = false → m.steps.testBit 2 = true → sweeps u n) ∧
      (cls = 0 → m.steps.testBit 1 = false → m.steps.testBit 2 = false → ending u n)) ∧
    (m.step ≠ 2 ∨ m.fi < 1920 → exec (.measureDcEnd c) ⟨q, d⟩ = .next ⟨q, d⟩) ∧
    (m.step = 3 → 2880 ≤ m.fi → ∃ (u : Dev) (n : Meas), exec (.measureCableEnd c) ⟨q, d⟩ = .next ⟨q, u⟩ ∧
      u = { d with chs := u.chs, free := d.free + 2 } ∧ (∀ k : Ch, k ∉ halves d c → u.chs[k] = d.chs[k]) ∧
      u.chs[c].meas = some n ∧ n.done = m.done ||| 2 ∧
      (0 < m.cnt → m.cnt * 2 ^ 23 < 100 * i → n.cableValid = false ∧ n.length = 0xFFFFFFFF) ∧
      (d.chs[c].cfg.cableR = 0 → n.cableValid = false ∧ n.length = 0xFFFFFFFF) ∧
      (m.cnt * 2 ^ 23 ≥ 100 * i → d.chs[c].cfg.cableR ≠ 0 → n.cableValid = true) ∧
      (m.steps.testBit 2 = true → sweeps u n) ∧ (m.steps.testBit 2 = false → ending u n)) ∧
    (m.step ≠ 3 ∨ m.fi < 2880 → exec (.measureCableEnd c) ⟨q, d⟩ = .next ⟨q, d⟩)

/-- The rest of a measurement (R289, R297 to R304, R309, R310). SWEEP_POINT_END adds a point and starts the next of the 64 tones;
MEASURE_SWITCHING_END after 16 periods at half duty turns both switches off; FIT_COMPLETE goes on to STORE where asked, waiting while the stewards
restart; STORE without an identity is INVALID_FIELD and outside the write window TEMPERATURE; DELETE without a record is NOT_FOUND;
MEASURE_RESULT_WRITE completes the command and frees its units. None of them acts outside its step. SUPPLY_MEASURE_END once 9,600 Fi periods have
passed since precharge completed, with samples summed: the rails' voltages and ripples in force are those of the sums and extremes, the ripple
frequency that of the crossings of the rail with the larger ripple on the tile named for it (log entry 38), the sums are used up, and nothing but the
rails and the free counter changes; at any other time nothing happens (R311, R312). The model's own choices and readings in it: log entries 4, 36. -/
def Obligations.MeasurementEnds : Prop :=
  (∀ (q : List Instr) (d : Dev) (c : Ch) (m : Meas), d.chs[c].meas = some m →
     let result := fun (e : Dev) (n : Meas) (status : Nat) => Host.Outcome.next (φ := Fault) (ρ := Refusal) (State.mk q
       (setMeas e c { n with step := 0, writing := true, status := status }))
     let toned := m.step = 4 ∧ toneOn d m = true ∧ settleFi d.tb.n (toneDelta d.tb.n m.point) + measureFi d.tb.n (toneDelta d.tb.n m.point) ≤ m.fi
     let turned := m.step = 7 ∧ ∀ h ∈ halves d c, 16 ≤ d.chs[h].prot.ssCount
     let off := forCh (halves d c) (fun e h => e.ch h chanOff) d
     let rec_ := d.admin.records.find? fun p => decide (recIdent p.2 = identOf d.chs[c])
     let stores := m.step = 6 ∧ m.steps.testBit 4 = true ∧ d.admin.act = none
     let deletes := m.step = 6 ∧ m.steps.testBit 5 = true ∧ d.admin.act = none
     let kept := { m with stored := true, done := m.done ||| 16 }
     (toned → m.units.length = 5 ∨ 63 ≤ m.point → ∃ (u : Dev) (n : Meas), exec (.sweepPointEnd c) ⟨q, d⟩ = .next ⟨q, u⟩ ∧
       u = { d with chs := u.chs, awl := u.awl, free := u.free } ∧ (∀ k : Ch, k ∉ halves d c → u.chs[k] = d.chs[k]) ∧
       u.chs[c].meas = some n ∧ n.points = m.points ++ [sweepPoint d c m] ∧
       (m.point < 63 → n.point = m.point + 1 ∧ n.fi = 0 ∧ n.step = 4) ∧ (63 ≤ m.point → n.step = 7 ∧ n.done = m.done ||| 4)) ∧
     (¬toned → exec (.sweepPointEnd c) ⟨q, d⟩ = .next ⟨q, d⟩) ∧
     (turned → m.status = 0 → ∃ u : Dev, exec (.measureSwitchingEnd c) ⟨q, d⟩ = .next ⟨q, u⟩ ∧ u = { d with chs := u.chs } ∧
       (∀ h ∈ halves d c, u.chs[h].mod.hs = false ∧ u.chs[h].mod.ls = false ∧ u.chs[h].prot.drive = .off) ∧
       (∀ k : Ch, k ∉ halves d c → u.chs[k] = d.chs[k]) ∧
       u.chs[c].meas = some (if m.steps.testBit 3 = true ∧ m.cls = 0 then m.toStep 5 else m.toResult 0)) ∧
     (turned → m.status ≠ 0 → exec (.measureSwitchingEnd c) ⟨q, d⟩ = .next ⟨q, measComplete off c m m.status⟩) ∧
     (¬turned → exec (.measureSwitchingEnd c) ⟨q, d⟩ = .next ⟨q, d⟩) ∧
     (m.step = 5 → d.admin.act = none → exec (.fitComplete c) ⟨q, d⟩ = .next ⟨q, { (d.ch c fun x => { x with
       meas := some (if m.steps.testBit 4 then (fitResult d c m).toStep 6 else (fitResult d c m).toResult 0) }) with free := d.free + 14 }⟩) ∧
     (m.step ≠ 5 ∨ d.admin.act ≠ none → exec (.fitComplete c) ⟨q, d⟩ = .next ⟨q, d⟩) ∧
     (stores → d.chs[c].cfg.loadId.all (· == 0) = true → exec (.storeComplete c) ⟨q, d⟩ = result d m 2) ∧
     (stores → d.chs[c].cfg.loadId.all (· == 0) = false → nvOpen d = false → exec (.storeComplete c) ⟨q, d⟩ = result (setThm d 6) m 7) ∧
     (stores → d.chs[c].cfg.loadId.all (· == 0) = false → nvOpen d = true → ∃ u : Dev, exec (.storeComplete c) ⟨q, d⟩ = .next ⟨q, u⟩ ∧
       u = { d with chs := u.chs, admin := { d.admin with records := u.admin.records, recFree := u.admin.recFree } } ∧
       u.chs[c].meas = some (kept.toResult 0) ∧ (∀ k : Ch, k ≠ c → u.chs[k] = d.chs[k]) ∧
       u.admin.records = Mem.put d.admin.records (storeSlot d (identOf d.chs[c])) (measRecord d c kept)) ∧
     (¬stores → exec (.storeComplete c) ⟨q, d⟩ = .next ⟨q, d⟩) ∧
     (deletes → nvOpen d = false → exec (.deleteComplete c) ⟨q, d⟩ = result (setThm d 6) m 7) ∧
     (deletes → nvOpen d = true → rec_ = none → exec (.deleteComplete c) ⟨q, d⟩ = result d m 6) ∧
     (∀ p : Nat × List Byte, deletes → nvOpen d = true → rec_ = some p → ∃ u : Dev,
       exec (.deleteComplete c) ⟨q, d⟩ = .next ⟨q, u⟩ ∧
       u = { d with chs := u.chs, admin := { d.admin with records := u.admin.records, recFree := u.admin.recFree } } ∧
       u.admin.records = Mem.erase d.admin.records p.1 ∧ u.chs[c].meas = some ({ m with done := m.done ||| 32 }.toResult 0)) ∧
     (¬deletes → exec (.deleteComplete c) ⟨q, d⟩ = .next ⟨q, d⟩) ∧
     (m.writing = true → exec (.measureResultWrite c) ⟨q, d⟩ = .next ⟨q, (freeUnits (complete (hostWrite d m.ref (measResult d c m)) m.ref 0x26 m.status
       (m.done + 256 * m.cls) 0) c m).ch c fun x => { x with meas := none }⟩) ∧
     (m.writing = false → exec (.measureResultWrite c) ⟨q, d⟩ = .next ⟨q, d⟩)) ∧
  (∀ (q : List Instr) (d : Dev) (tp tn : PTile),
     let x := d.rails
     let f := if x.maxN - x.minN ≤ x.maxP - x.minP then meanCrossings x.crossP tp.val x.sumP x.sumCnt
       else meanCrossings x.crossN tn.val x.sumN x.sumCnt
     (d.rails.preState = 4 → 9600 ≤ d.rails.sinceDone → 0 < d.rails.sumCnt → ∃ u : Dev,
       exec (.supplyMeasureEnd tp tn) ⟨q, d⟩ = .next ⟨q, u⟩ ∧ u = { d with rails := u.rails, free := d.free + 5 } ∧
       u.rails.ppP = fieldSat 8 (d.rails.maxP - d.rails.minP) ∧ u.rails.ppN = fieldSat 8 (d.rails.maxN - d.rails.minN) ∧
       (0 ≤ d.rails.sumP → d.rails.sumP ≤ 65535 * d.rails.sumCnt → ((u.rails.supVrailP : Int) * d.rails.sumCnt - d.rails.sumP).natAbs < d.rails.sumCnt) ∧
       (f < 2 * 65535 → 2 * u.rails.rippleFreq < f + 2 ∧ f < 2 * u.rails.rippleFreq + 2) ∧
       (d.rails.supRsrcP = 0xFFFF → u.rails.icapP = none) ∧ (d.rails.supRsrcN = 0xFFFF → u.rails.icapN = none) ∧
       u.rails.sumCnt = 0 ∧ u.rails.supRsrcP = d.rails.supRsrcP ∧ u.rails.preState = 4 ∧ u.rails.clampP = d.rails.clampP) ∧
     (d.rails.preState ≠ 4 ∨ d.rails.sinceDone < 9600 ∨ d.rails.sumCnt = 0 →
       exec (.supplyMeasureEnd tp tn) ⟨q, d⟩ = .next ⟨q, d⟩))

/-- SCRUB_PASS while the Cobbler works (R490, R491, R495, R497): the pass and its duration are counted, LATE_PASS set above 4 s and never cleared, the
code words it corrects counted and kept for the next pass. A first correction marks no row; a word corrected in two passes running takes one of its
memory's spare rows, and with none left, or while only the minimum runs, stays a hard row. Then a word it can't correct fails its tile as in Table
16-1, and a wrong known answer the tile that gave it, cause 4. In audio reset, with no image or without Fi nothing happens. TELEMETRY_INTERVAL
restarts the interval minima at their largest values and keeps the interval's highest reading (R91, chapter 15); WEAR_LEVEL_MOVE is a non-volatile
write of the part's own, made at once in the write window and waiting outside it (R484, R494). Neither runs while the part throttles, is in audio
reset, or gives the Cobbler no window: with no image in force or without Fi (R29). The model's own choices and readings in it: log entries 4, 62. -/
def Obligations.CobblersDuties : Prop :=
  (∀ (q : List Instr) (d : Dev) (dur : Nat) (found : List (RowAddr × List SymErr)) (kat : List Phys) (x : RowAddr),
     let works := d.guard.audioReset = false ∧ cobWorks d = true
     let b := d.cob
     let rows := (found.filter fun y => decide (scrubRead y.2 = some true)).map (·.1)
     let bad := (found.filter fun y => decide (scrubRead y.2 = none)).filterMap fun y => finOf 23 y.1.mem.val
     let spares := b.spareRows.getD x.mem.val 0
     (works → ∃ v : Dev, exec (.scrubPass dur found kat) ⟨q, d⟩ = .next ⟨q, kat.foldl (fun e k => physFail e k 4)
         (bad.foldl (fun e k => if retired e k.val then e else eccTile e k 1) v)⟩ ∧
       v = { d with cob := { b with
         lastPass := min 0xFFF dur
         latePass := b.latePass || decide (400 < dur)
         passes := (b.passes + 1) % 2 ^ 16
         corrected := b.corrected + rows.length
         lastRows := rows
         hardRows := v.cob.hardRows
         spareRows := v.cob.spareRows } } ∧
       ((∀ r ∈ rows, r ∉ b.lastRows) → b.hardRows = [] → v.cob.hardRows = [] ∧ v.cob.spareRows = b.spareRows) ∧
       (rows = [x] → x ∈ b.lastRows → b.hardRows = [] → d.shank.throttle = false → 0 < spares →
         v.cob.hardRows = [] ∧ v.cob.spareRows = b.spareRows.set x.mem.val (spares - 1)) ∧
       (rows = [x] → x ∈ b.lastRows → b.hardRows = [] → d.shank.throttle = true ∨ spares = 0 →
         v.cob.hardRows = [x] ∧ v.cob.spareRows = b.spareRows)) ∧
     (¬works → exec (.scrubPass dur found kat) ⟨q, d⟩ = .next ⟨q, d⟩)) ∧
  (∀ (q : List Instr) (d : Dev) (block : Nat),
     let rest := d.guard.audioReset = true ∨ d.shank.throttle = true ∨ cobWorks d = false
     (¬rest → ∃ u : Dev, exec .telemetryInterval ⟨q, d⟩ = .next ⟨q, u⟩ ∧
       u = { d with core := { d.core with slack := u.core.slack }, shank := { d.shank with tjMax := d.shank.tjRun, tjRun := u.shank.tjRun } } ∧
       ∀ k : Phys, u.core.slack[k] = { d.core.slack[k] with fcMinInt := 0xFFFF, fiMinInt := 0xFFFFFFFF }) ∧
     (¬rest → nvOpen d = true → exec (.wearLevelMove block) ⟨q, d⟩ =
       .next ⟨q, { d with admin := { d.admin with nv := d.admin.nv ++ [.move block] } }⟩) ∧
     (¬rest → nvOpen d = false → exec (.wearLevelMove block) ⟨q, d⟩ =
       .next ⟨q, setThm { d with admin := { d.admin with nvDeferred := d.admin.nvDeferred ++ [.move block] } } 6⟩) ∧
     (rest → exec .telemetryInterval ⟨q, d⟩ = .next ⟨q, d⟩ ∧ exec (.wearLevelMove block) ⟨q, d⟩ = .next ⟨q, d⟩))

/-- SEGMENT_TEST and SENSE_CALIBRATION while all duties run (R141, R498 to R501, Table 16-3): a segment that answers its gate within 50 % to 150 %
stays; one that doesn't is retired, the spare comes in at the next count 0, and a switch left with fewer than 10 takes its channel out of service,
cause 2, unreleased; the test moves to the next of twelve. A calibration moves to the next of nine converters; a converter within its limits stays,
one outside them is replaced by the free spare, or takes its channel out of service, cause 3 or 4; with the spare in use a released channel's is left
alone. While the part throttles or is in audio reset none of it runs. The model's own choices and readings in it: log entries 4, 62. -/
def Obligations.SegmentTestAndCalibration : Prop :=
  ∀ (q : List Instr) (d : Dev) (rs : List SegResult) (s : SegResult) (i : Nat) (t : PTile) (cur : Bool) (r : CalResult),
    let works := d.guard.audioReset = false ∧ d.shank.throttle = false
    let tested := rs.foldl (segResult d.cob.segPos) d
    let j := if s.low then 1 else 0
    let old := d.chs[s.ch].seg.getD j 0
    let measured := fun (seg : BitVec 12) => d.ch s.ch fun y => { y with
      seg := y.seg.set j seg, segSwap := y.segSwap.set j (y.segSwap.getD j false || (segSpare seg && !segSpare old))
      ron := y.ron.set j s.ron, coss := y.coss.set j s.coss }
    let lost := s.gate = false ∨ s.pct < 50 ∨ 150 < s.pct
    let seg := old ||| (1#12 <<< i)
    let p := d.power[t]
    let k := if cur then p.calI else p.calV
    let n := if k < 8 then k + 1 else 0
    let failed := if cur then p.iFailed else p.vFailed
    let used := if cur then p.iSpare else p.vSpare
    let cause := if cur then 4 else 3
    let lane : Option Ch := if n < 8 then some (Fin.ofNat 128 (8 * t.val + n)) else if used then spareLane d t failed cause else none
    let good := r.offset.natAbs ≤ 5000 ∧ r.gain.natAbs ≤ 10000 ∧ r.diff.natAbs ≤ 2000
    let stays := good ∨ failed.getLsbD n = true ∨ (used = true ∧ ∃ c ∈ lane, d.chs[c].prot.released = true)
    let at_ := if cur then { p with calI := n } else { p with calV := n }
    let marked := fun spare : Bool => if cur then { at_ with iFailed := failed ||| (1#9 <<< n), iSpare := spare }
      else { at_ with vFailed := failed ||| (1#9 <<< n), vSpare := spare }
    let free := n < 8 ∧ used = false ∧ failed.getLsbD 8 = false
    (works → exec (.segmentTest rs) ⟨q, d⟩ = .next ⟨q, { tested with cob := { tested.cob with segPos := (tested.cob.segPos + 1) % 12 } }⟩) ∧
    (¬lost → segResult i d s = measured old) ∧
    (lost → 10 ≤ segCond seg ∨ d.chs[s.ch].prot.oos ≠ 0 → segResult i d s = measured seg) ∧
    (lost → segCond seg < 10 → d.chs[s.ch].prot.oos = 0 → ∃ u : Dev, segResult i d s = u ∧ u.chs[s.ch].prot.oos = 2 ∧
      (∀ h ∈ halves d s.ch, u.chs[h].prot.released = false ∧ u.chs[h].mod.hs = false ∧ u.chs[h].mod.ls = false) ∧
      u.chs[s.ch].seg = d.chs[s.ch].seg.set j seg ∧ u.cob = d.cob ∧ u.rails = d.rails ∧ u.tb = d.tb) ∧
    (works → stays → exec (.senseCalibration t cur r) ⟨q, d⟩ = .next ⟨q, { d with power := d.power.set t at_ }⟩) ∧
    (works → ¬stays → free → exec (.senseCalibration t cur r) ⟨q, d⟩ = .next ⟨q, { d with power := d.power.set t (marked true) }⟩) ∧
    (works → ¬stays → ¬free → ∃ u : Dev, exec (.senseCalibration t cur r) ⟨q, d⟩ = .next ⟨q, u⟩ ∧ u.power = d.power.set t (marked used) ∧
      u.rails = d.rails ∧ u.tb = d.tb ∧ u.cob = d.cob ∧ (lane = none → u.chs = d.chs) ∧
      ∀ c ∈ lane, d.chs[c].prot.oos = 0 → u.chs[c].prot.oos = cause ∧ u.chs[c].prot.released = false) ∧
    (¬works → exec (.segmentTest rs) ⟨q, d⟩ = .next ⟨q, d⟩ ∧ exec (.senseCalibration t cur r) ⟨q, d⟩ = .next ⟨q, d⟩)

/-- ECC_UNCORRECTABLE outside audio reset: errors that the code corrects are rewritten in place and counted (R490 to R492); otherwise, by place (R493,
Table 16-1), every place but a retired tile counts one word; a tile in service fails, a spare tile is retired, WHERE 10; a lost fabric block is
dropped, the third in a row fails its tile; a delay line holds its last output; a lost journal entry ends its command and a lost queue context its
queue; one copy of a pair leaves everything as it was; an image, firmware or load record in the store is spoilt and the health data only counted; a
captured entry is marked bad, a stream's sample repeats. The model's own choices and readings in it: log entries 4, 63. -/
def Obligations.UncorrectableWords : Prop :=
  ∀ (q : List Instr) (d : Dev) (errs : List SymErr) (p : Phys) (c : Ch) (w : Nat) (cap : Fin 16) (h : HStream) (k : Fin 2) (s : Fin 4) (n : Fin 512)
    (src dst t : LTile) (o : Nat) (id : QId) (cid : BitVec 16) (place : EccPlace),
    let run := fun pl : EccPlace => exec (.eccUncorrectable ⟨pl, errs⟩) ⟨q, d⟩
    let cnt := fun (x : Nat) => { d with cob := { d.cob with uncorr := min 0xFFFF (d.cob.uncorr + 1), wher := x, uncTotal := d.cob.uncTotal + 1 } }
    let gives := fun (pl : EccPlace) (u : Dev) => readAt d pl errs = none → run pl = .next ⟨q, u⟩
    let spare := servedBy d p.val = 0xFF
    let unread := (cnt 3).core.xferNow.filter fun x => !decide (x.src = src.val ∧ x.dst = dst.val ∧ x.ord = o)
    let spoilt := fun header : Bool => { d.admin.img[s] with ecc := if header = true ∨ d.admin.img[s].ecc = 1 then 1 else 2 }
    let dropped := { cnt 3 with core := { d.core with xferNow := unread } }
    (d.guard.audioReset = true → run place = .next ⟨q, d⟩) ∧
    (d.guard.audioReset = false →
      (∀ m : Nat, readAt d place errs = some m → run place = .next ⟨q, { d with cob := { d.cob with corrected := d.cob.corrected + m } }⟩) ∧
      (retired d p.val = false → spare → ∀ pl ∈ [EccPlace.tileData p, .tileSched p, .spareTile p],
        gives pl { cnt 10 with cob := { (cnt 10).cob with etMtFailed := d.cob.etMtFailed.set p.val true } }) ∧
      (retired d p.val = false → ¬spare → gives (.tileData p) (physFail (cnt 1) p 1) ∧ gives (.spareTile p) (physFail (cnt 1) p 1) ∧
        gives (.tileSched p) (physFail (cnt 2) p 1)) ∧
      (retired d p.val = true → ∀ pl ∈ [EccPlace.tileData p, .tileSched p, .spareTile p], gives pl d) ∧
      gives (.fabric src dst o false) dropped ∧ gives (.fabric src dst o true) (tileFail dropped src 3) ∧
      (readAt d (.delayLine c w) errs = none → ∃ v : Dev, run (.delayLine c w) = .next ⟨q, v⟩ ∧
        v = { cnt 4 with mix := { d.mix with chs := v.mix.chs } } ∧ v.mix.chs[c].delayHold = true ∧ (∀ j : Ch, j ≠ c → v.mix.chs[j] = d.mix.chs[j]) ∧
        (Mem.wf d.mix.chs[c].line 0 = true → w < d.mix.chs[c].lineSize → Mem.get v.mix.chs[c].line 0 w = d.mix.chs[c].lastDelay)) ∧
      (readAt d (.captureRing cap w) errs = none → ∃ v : Dev, run (.captureRing cap w) = .next ⟨q, v⟩ ∧
        v = { cnt 5 with awl := { d.awl with caps := v.awl.caps } } ∧ v.awl.caps[cap].entries = (if w < d.awl.caps[cap].first then d.awl.caps[cap].entries
          else d.awl.caps[cap].entries.modify (w - d.awl.caps[cap].first) fun e => { e with bad := true })) ∧
      (readAt d (.streamFifo h) errs = none → ∃ v : Dev, run (.streamFifo h) = .next ⟨q, v⟩ ∧
        v = { cnt 6 with mix := { d.mix with streams := v.mix.streams } } ∧
        v.mix.streams[h].fifo = d.mix.streams[h].fifo.modify 0 fun x => { x with v := d.mix.streams[h].last }) ∧
      gives .oneCopy (cnt 7) ∧
      (∀ f : Flight, ((liveFlights d).find? fun f => decide (f.ref.q = id ∧ f.ref.cid = cid)) = some f → gives (.journal id cid) (eccJournal (cnt 8) f)) ∧
      (((liveFlights d).find? fun f => decide (f.ref.q = id ∧ f.ref.cid = cid)) = none → gives (.journal id cid) (cnt 8)) ∧
      gives (.queueContext id) (eccQueue (cnt 8) id) ∧
      (readAt d (.imageCopy t) errs = none → ∃ v : Dev, run (.imageCopy t) = .next ⟨q, v⟩ ∧
        v = { cnt 8 with core := { d.core with tiles := v.core.tiles } } ∧ v.core.tiles[t] = { d.core.tiles[t] with copyBad := true }) ∧
      gives (.nvFirmware k) { cnt 9 with admin := { d.admin with
        fw := d.admin.fw.set k (if d.admin.fw[k].st = 0 then d.admin.fw[k] else { d.admin.fw[k] with st := 2 }) } } ∧
      (∀ header : Bool, gives (.nvImage s header) { cnt 9 with admin := { d.admin with img := d.admin.img.set s (spoilt header) } }) ∧
      (∀ rec_ : List Byte, Mem.find d.admin.records n.val = some rec_ → gives (.nvRecord n)
        { cnt 9 with admin := { d.admin with records := Mem.put d.admin.records n.val (invalidRecord rec_) } }) ∧
      (Mem.find d.admin.records n.val = none → gives (.nvRecord n) (cnt 9)) ∧
      gives .nvHealth (cnt 9))

/-- TILE_FAILURE of a logical tile in service (R507, R511): an activation under way and the measurements on its channels end, its physical tile is
retired, and the lowest free spare of its kind starts to load and becomes its tile, a failover counted; with none, or with no readable copy of its
image, its channels go out of service, cause 1, unreleased. A tile that has failed before, cause 0 and audio reset change nothing. FAILOVER_TAKEOVER
ends the loading (R508, R510). The model's own choices and readings in it: log entries 4, 64. -/
def Obligations.TileFailover : Prop :=
  ∀ (q : List Instr) (d : Dev) (t : LTile) (cause : Fin 5),
    let x := d.core.tiles[t]
    let fails := d.guard.audioReset = false ∧ cause ≠ 0 ∧ x.failed = false
    let spare := (sparesOf { d with cob := { d.cob with etMtFailed := d.cob.etMtFailed.set x.phys true } } (kindOf t)).head?
    let quiet := d.core.act = none ∧ ∀ c : Ch, d.chs[c].meas = none
    let noted := fun (dst count : Nat) => { d.cob with
      etMtFailed := d.cob.etMtFailed.set x.phys true, foLogical := t.val, foFrom := x.phys, foTo := dst, foCause := cause.val, failovers := count }
    (∀ p : Nat, fails → spare = some p → x.copyBad = false → ∃ u : Dev, exec (.tileFailure t cause) ⟨q, d⟩ = .next ⟨q, u⟩ ∧
      u.core.tiles[t].phys = p ∧ u.core.tiles[t].loading = some p ∧ u.core.tiles[t].failed = false ∧
      (∀ k : LTile, k ≠ t → u.core.tiles[k] = d.core.tiles[k]) ∧ u.core.act = none ∧ u.cob = noted p (min 0xFF (d.cob.failovers + 1)) ∧
      u.tb = d.tb ∧ u.rails = d.rails ∧ u.guard = d.guard ∧ u.power = d.power ∧
      (quiet → u = { d with chs := u.chs, core := { d.core with tiles := u.core.tiles }, cob := u.cob } ∧
        ∀ c : Ch, u.chs[c].prot = d.chs[c].prot)) ∧
    (fails → spare = none ∨ x.copyBad = true → ∃ u : Dev, exec (.tileFailure t cause) ⟨q, d⟩ = .next ⟨q, u⟩ ∧
      u.core.tiles[t].failed = true ∧ (∀ k : LTile, k ≠ t → u.core.tiles[k] = d.core.tiles[k]) ∧ u.core.act = none ∧
      u.cob = noted 0x1F d.cob.failovers ∧ u.rails = d.rails ∧ u.tb = d.tb ∧
      ∀ c ∈ chansOf t, d.chs[c].prot.oos = 0 → u.chs[c].prot.oos = 1 ∧ u.chs[c].prot.released = false) ∧
    (¬fails → exec (.tileFailure t cause) ⟨q, d⟩ = .next ⟨q, d⟩) ∧
    (x.loading.isSome = true → exec (.failoverTakeover t) ⟨q, d⟩ = .next ⟨q, d.tile t fun v => { v with loading := none, holdSlices := decide (t.val < 16) }⟩) ∧
    (x.loading = none → exec (.failoverTakeover t) ⟨q, d⟩ = .next ⟨q, d⟩)

/-- SQ_TAIL_WRITE and CQ_HEAD_WRITE move the ring index of the named queue, bits [11:0] of the value; one past the ring, or of a queue that isn't
there, is ignored and counted with the queue and the kind, the count saturating (R390, R427); BAR_ACCESS_ERROR counts an access of another size or
alignment, kind 3 (R388). Writing 1 to EN reads a valid admin configuration in and creates Q0, RDY following once the stewards run, an invalid one
leaves CFG_ERR and RDY 0, and a second write does nothing (R428). The model's own choices and readings in it: log entries 4, 47. -/
def Obligations.QueueDoorbells : Prop :=
  ∀ (q : List Instr) (d : Dev) (k : QId) (v : W32) (o n : Nat),
    let i := v.toNat % 4096
    let err := fun (a kind : Nat) => { d with qif := { d.qif with errQueue := a, errKind := kind, errCount := min 0xFFFF (d.qif.errCount + 1) } }
    let on := { d with qif := { d.qif with en := true, cfgErr := !aqOk d.qif } }
    (∀ x : Queue, Mem.find d.qif.queues k.val = some x →
      (i < x.sqDepth → exec (.sqTailWrite k v) ⟨q, d⟩ =
        .next ⟨q, { d with qif := { d.qif with queues := Mem.put d.qif.queues k.val { x with sqTail := i } } }⟩) ∧
      (x.sqDepth ≤ i → exec (.sqTailWrite k v) ⟨q, d⟩ = .next ⟨q, err k.val 1⟩) ∧
      (i < x.cqDepth → exec (.cqHeadWrite k v) ⟨q, d⟩ =
        .next ⟨q, { d with qif := { d.qif with queues := Mem.put d.qif.queues k.val { x with cqHead := i } } }⟩) ∧
      (x.cqDepth ≤ i → exec (.cqHeadWrite k v) ⟨q, d⟩ = .next ⟨q, err k.val 1⟩)) ∧
    (Mem.find d.qif.queues k.val = none → exec (.sqTailWrite k v) ⟨q, d⟩ = .next ⟨q, err k.val 2⟩ ∧
      exec (.cqHeadWrite k v) ⟨q, d⟩ = .next ⟨q, err k.val 2⟩) ∧
    (n ≠ 4 ∨ o % 4 ≠ 0 → exec (.barAccessError o n) ⟨q, d⟩ = .next ⟨q, err 0 3⟩) ∧
    (n = 4 → o % 4 = 0 → exec (.barAccessError o n) ⟨q, d⟩ = .next ⟨q, d⟩) ∧
    (d.qif.en = false → aqOk d.qif = true → exec .qifEnable ⟨q, d⟩ = .next ⟨q, { on with qif := { on.qif with
      rdy := d.qif.rdy || (d.admin.booted && d.admin.act.isNone), queues := Mem.put d.qif.queues 0 (queue0 d.qif) } }⟩) ∧
    (d.qif.en = false → aqOk d.qif = false → exec .qifEnable ⟨q, d⟩ = .next ⟨q, on⟩ ∧ on.qif.cfgErr = true) ∧
    (d.qif.en = true → exec .qifEnable ⟨q, d⟩ = .next ⟨q, d⟩)

/-- REGISTER_WRITE below 0x0_7F00 does what the register's own row says (R13, R549 to R557): a W1C event bit clears, GRD_CLEAR, GRD_ARST,
HSW_PRE_CTRL, QIF_CTRL, the halt, the counters' clear and the manual registers act as their commands do, and the audio domain ignores a write while
audio reset or bring-up lasts; misaligned it is an error of the access, and between 0x0_7F00 and 0x0_8000 or from 0x3_0000 nothing happens. A write to
a doorbell is the doorbell's, one to an MSI-X mask masks or unmasks that vector. The model's own choices and readings in it: log entries 4, 54. -/
def Obligations.RegisterWrites : Prop :=
  ∀ (q : List Instr) (d : Dev) (v : W32) (o : BitVec 18) (k : QId) (m : Fin 4) (c : Ch) (n : Fin 2048),
    let t := { d with free := d.free + 1 }
    let write := fun o : Nat => exec (.registerWrite (BitVec.ofNat 18 o) v) ⟨q, d⟩
    let same := fun (o : Nat) (e : Instr) (x : Dev) => write o = exec e ⟨q, x⟩
    let open_ := hostClosed d = false
    write 0x0104 = .next ⟨q, { t with guard := { d.guard with event := d.guard.event &&& ~~~(v.setWidth 16) } }⟩ ∧
    (v.getLsbD 0 = true → same 0x5000 .qifEnable t) ∧ (v.getLsbD 0 = false → same 0x5000 .qifDisable t) ∧
    same (0x0120 + 4 * m.val) (.grdClearWrite m v) t ∧ same 0x0804 (.prechargeRetry v) t ∧
    (∃ late : Bool, same 0x0108 (.arstKey v late) t) ∧
    (open_ → write 0x1008 = .next ⟨q, { t with tb := { d.tb with event := d.tb.event &&& ~~~(v.setWidth 5) } }⟩) ∧
    (open_ → v.getLsbD 0 = true → same 0x1010 .snapReq t) ∧
    (open_ → v.getLsbD 0 = true → ∀ jtag : Bool, same 0x1100 (.haltRequest jtag) t) ∧
    (open_ → v.getLsbD 0 = false → write 0x1100 = .next ⟨q, { t with halt := false }⟩) ∧
    (open_ → same 0x1120 (.cntClr v) t) ∧
    (open_ → same (0x2400 + 4 * c.val) (.manEnableWrite c v) t) ∧
    (open_ → ∃ near : Bool, same (0x2600 + 4 * c.val) (.manWordWrite c false v near) { t with free := d.free + 2 } ∧
      same (0x2800 + 4 * c.val) (.manWordWrite c true v near) { t with free := d.free + 2 }) ∧
    (open_ → write (0x2200 + 4 * c.val) = .next ⟨q, t.ch c fun x => { x with mod := { x.mod with
      cmpA := v.toNat % 256, auxA := v.getLsbD 15, cmpB := v.toNat / 2 ^ 16 % 256, auxB := v.getLsbD 31 } }⟩) ∧
    (hostClosed d = true → audioReg o.toNat = true → o.toNat % 4 = 0 → exec (.registerWrite o v) ⟨q, d⟩ = .next ⟨q, t⟩) ∧
    (o.toNat % 4 ≠ 0 → exec (.registerWrite o v) ⟨q, d⟩ = exec (.barAccessError 1 4) ⟨q, d⟩) ∧
    (o.toNat < 0x7F00 → o.toNat % 4 = 0 → ∃ late : Bool, exec (.registerWrite o v) ⟨q, d⟩ = .next ⟨q, regWrite t o.toNat v late⟩) ∧
    (0x7F00 ≤ o.toNat → o.toNat < 0x8000 → o.toNat % 4 = 0 → exec (.registerWrite o v) ⟨q, d⟩ = .next ⟨q, d⟩) ∧
    (v.getLsbD 0 = false → same (0x8000 + 16 * n.val + 12) (.msixUnmask (some n)) d) ∧
    (v.getLsbD 0 = true → write (0x8000 + 16 * n.val + 12) = .next ⟨q, { d with qif := { d.qif with msix := { d.qif.msix with
      unmasked := d.qif.msix.unmasked.filter fun x => x != n.val } } }⟩) ∧
    (0x30000 ≤ o.toNat → o.toNat % 4 = 0 → exec (.registerWrite o v) ⟨q, d⟩ = .next ⟨q, d⟩) ∧
    same (0x10000 + 8 * k.val) (.sqTailWrite k v) d ∧ same (0x10004 + 8 * k.val) (.cqHeadWrite k v) d

/-- COMMAND_FETCH (R392, R396 to R399, R402 to R404): with EN, RDY and the link up, the queue whose turn it is has its SQ head moved on and its entry
taken in. An opcode that no queue of its kind has completes INVALID_OPCODE, a CID still in flight or an entry that doesn't parse INVALID_FIELD, one
that fails a check of R396 with that check's status; an admin command enters the journal and the stewards take it, an untimed I/O command waits for
the next boundary, a timed one for its B or its frame; an urgent queue goes before any other. With the engine stopped, or no queue eligible, nothing
happens. The model's own choices and readings in it: log entries 4, 29. -/
def Obligations.CommandFetch : Prop :=
  ∀ (q : List Instr) (d d1 : Dev) (k : QId) (x : Queue) (e buf : List Byte),
    let taken := { d1 with qif := { d1.qif with queues := Mem.put d1.qif.queues k.val { x with sqHead := (x.sqHead + 1) % x.sqDepth } } }
    let r := refOf k d1.qif.session e
    let op := leAt e 0 1
    let run := exec (.commandFetch e buf) ⟨q, d⟩
    let turn := pick d = some (k.val, d1) ∧ Mem.find d1.qif.queues k.val = some x
    let busy := flightOf d1 r ≠ none ∨ ∃ c ∈ d1.qif.outbox, c.q = k ∧ c.cid = r.cid
    (turn → opKnown k.val op = false → run = .next ⟨q, if cidBusy d1 r then refuseDup taken r op 1 else refuse taken r op 1⟩) ∧
    (cidBusy d1 r = true ↔ busy) ∧
    (turn → opKnown k.val op = true → busy → run = .next ⟨q, refuseDup taken r op 2⟩) ∧
    (turn → opKnown k.val op = true → ¬busy → parseEntry r e buf = none → run = .next ⟨q, refuse taken r op 2⟩) ∧
    (∀ (y : Entry) (st : Nat), turn → opKnown k.val op = true → ¬busy → parseEntry r e buf = some y →
      fetchFail taken { y with time := resolveWhen taken y.time } = some st → run = .next ⟨q, refuse taken r op st⟩) ∧
    (∀ y : Entry, turn → opKnown k.val op = true → ¬busy → parseEntry r e buf = some y →
      let z := { y with time := resolveWhen taken y.time }
      fetchFail taken z = none → run = .next ⟨q, accept taken r z⟩ ∧
      (∀ o : SetObj, y.cmd = .timedSet r o → 0x20 ≤ y.op →
        (z.time = .untimed → run = .next ⟨q, addFlight taken (entryOf r z .due (nextStc taken) false)⟩) ∧
        (∀ b : Nat, z.time = .stc b → nextStc taken < b → run = .next ⟨q, addFlight taken (entryOf r z .cue b true)⟩) ∧
        (∀ n o : Nat, z.time = .frame n o → run = .next ⟨q, addFlight taken (entryOf r z .framed 0 true)⟩))) ∧
    (∀ y : Entry, turn → opKnown k.val op = true → ¬busy → parseEntry r e buf = some y → y.cmd = .identify r → y.op = 1 → y.time = .untimed →
      run = .next ⟨q, adminNext (addFlight taken (entryOf r y .waiting 0 false))⟩) ∧
    (∀ j : Nat, ready d 0 = [j] → d.qif.en = true → d.qif.rdy = true → d.qif.paused = false → d.qif.linkUp = true → journalUsed d < 32768 →
      (pick d).map (·.1) = some j) ∧
    (pick d = none → run = .next ⟨q, d⟩) ∧
    (d.qif.en = false ∨ d.qif.rdy = false ∨ d.qif.paused = true ∨ d.qif.linkUp = false ∨ 32768 ≤ journalUsed d → pick d = none)

/-- COMPLETION_POST with a completion that can be posted (R391, R392, R395, R450): the oldest such one's 16 bytes stand at the CQ tail, the tail moves
on and the phase inverts as it passes the end, a pair it creates is open for fetch, the completion leaves the outbox, and the queue's vector is
signalled, at once or coalesced (R442); with a full CQ, none waiting or the link down nothing happens. COALESCE_TIMEOUT signals a vector that has
deferred completions; MSIX_UNMASK sends the vectors' pending messages (R426); a message that can't go is kept pending. CUE_COMMIT marks a cue of its
queue and CID whose boundary is the next one as committed, and nothing else changes (R405); CUE_EFFECT, once every event of the boundary has come,
runs the oldest cue due at the present boundary, with the journal entry's progress noted, and the commands after it up to the next cue: a
TELEMETRY_READ held for it shows it. It does nothing where no cue comes first (R401, R402, R407). The model's own choices and readings in it: log
entries 4, 9, 45. -/
def Obligations.CompletionsCuesAndVectors : Prop :=
  (∀ (q : List Instr) (d : Dev) (c : Completion) (x : Queue) (v : Fin 2048),
     let m := d.qif.msix
     let sent := fun (x : Msix) => { d with qif := { d.qif with msix := x } }
     let t := (x.cqTail + 1) % x.cqDepth
     let open_ := fun y : Queue => if c.q.val = 0 ∧ c.opcode = 5 ∧ y.blocked = some c.cid then { y with blocked := none } else y
     let posted := { d with
       qif := { d.qif with
         outbox := d.qif.outbox.erase c
         queues := (Mem.put d.qif.queues c.q.val { x with cqTail := t, phase := if t = 0 then !x.phase else x.phase }).map fun p => (p.1, open_ p.2) }
       admin := noteReplay { d.admin with hostMem := Mem.setBytes d.admin.hostMem (x.cqBase + 16 * x.cqTail) (cqeBytes c x) } c }
     let urgent := d.qif.coalThresh = 0 ∨ x.cls = 0 ∨ c.status ≠ 0
     let go := fun (u p : List Nat) => p.filter fun k => u.contains k
     let opened := if v.val ∈ m.unmasked then m.unmasked else v.val :: m.unmasked
     let sends := fun (u : List Nat) => sent { m with
       funcMasked := false, unmasked := u, sent := go u m.pendBits ++ m.sent, pendBits := m.pendBits.filter fun k => !u.contains k }
     (m.funcMasked = false → v.val ∈ m.unmasked → signal d v.val = sent { m with sent := v.val :: m.sent }) ∧
     (m.funcMasked = true ∨ v.val ∉ m.unmasked → signal d v.val = if v.val ∈ m.pendBits then d else sent { m with pendBits := v.val :: m.pendBits }) ∧
     (d.qif.linkUp = true → d.qif.outbox.find? (postable d) = some c → Mem.find d.qif.queues c.q.val = some x →
       (x.ien = false → exec .completionPost ⟨q, d⟩ = .next ⟨q, posted⟩) ∧
       (x.ien = true → urgent → exec .completionPost ⟨q, d⟩ = .next ⟨q, signal posted x.vector⟩) ∧
       (x.ien = true → ¬urgent → exec .completionPost ⟨q, d⟩ = .next ⟨q, coalesce posted x.vector⟩)) ∧
     (d.qif.linkUp = false ∨ (∀ c ∈ d.qif.outbox, postable d c = false) → exec .completionPost ⟨q, d⟩ = .next ⟨q, d⟩) ∧
     (∀ n : Nat, (v.val, n) ∈ m.deferred → exec (.coalesceTimeout v) ⟨q, d⟩ = .next ⟨q,
       signal { d with qif := { d.qif with msix := { m with deferred := m.deferred.filter fun p => decide (p.1 ≠ v.val) } } } v.val⟩) ∧
     ((∀ n : Nat, (v.val, n) ∉ m.deferred) → exec (.coalesceTimeout v) ⟨q, d⟩ = .next ⟨q, d⟩) ∧
     (m.funcMasked = false → exec (.msixUnmask (some v)) ⟨q, d⟩ = .next ⟨q, sends opened⟩) ∧
     (m.funcMasked = true → exec (.msixUnmask (some v)) ⟨q, d⟩ = .next ⟨q, sent { m with unmasked := opened }⟩) ∧
     exec (.msixUnmask none) ⟨q, d⟩ = .next ⟨q, sends m.unmasked⟩) ∧
  (∀ (q : List Instr) (d : Dev) (k : QId) (cid : BitVec 16) (f : Flight),
     let isDue := fun f : Flight => f.ref.q = k ∧ f.ref.cid = cid ∧ (f.prog = .committed ∨ (f.prog = .cue ∧ f.at_ ≤ nextStc d))
     (∃ u : Dev, exec (.cueCommit k cid) ⟨q, d⟩ = .next ⟨q, u⟩ ∧ u = { d with qif := { d.qif with flights := u.qif.flights } } ∧
       u.qif.flights.length = d.qif.flights.length ∧ ∀ (i : Nat) (f : Flight), d.qif.flights[i]? = some f →
         (isDue f → u.qif.flights[i]? = some { f with prog := .committed }) ∧ (¬isDue f → u.qif.flights[i]? = some f)) ∧
     ((dueList d).head? = some f → f.prog = .cue ∨ f.prog = .committed → d.tb.cmdsDue = false →
       exec .cueEffect ⟨q, d⟩ = .next ⟨q, runDue (runFlight d f)⟩ ∧
       (∀ o n : Nat, f.cmd = .telemetryRead f.ref o n → 0x20 ≤ f.opcode → d.relWait = [] → d.admin.act = none →
         exec (.telemetryRead f.ref o n) ⟨q, d.flight f.ref fun x => { x with prog := .started }⟩ = .next ⟨q, runFlight d f⟩)) ∧
     ((∀ f ∈ (dueList d).head?, (f.prog ≠ .cue ∧ f.prog ≠ .committed) ∨ d.tb.cmdsDue = true) → exec .cueEffect ⟨q, d⟩ = .next ⟨q, d⟩) ∧
     ((∀ f ∈ d.qif.flights, dueNow d f = false) → exec .cueEffect ⟨q, d⟩ = .next ⟨q, d⟩))

/-- The losses of the host (R459, R460): PERST, FUNCTION_LEVEL_RESET, LINK_DOWN and QIF_DISABLE leave no queue, no journalled command that isn't
committed, EN and RDY 0, no activation that doesn't stand, and the session one further; with no measurement under way no completion to post either;
latches, releases and the timebase stand. The resets also put the queue interface's registers back, PERST the configuration space; LINK_TRAINING to a
width and speed of Table 13-1 and CONFIG_READY bring those up (R386, R387, R527). The model's own choices and readings in it: log entries 4, 47. -/
def Obligations.LossOfHost : Prop :=
  ∀ (q : List Instr) (d : Dev) (w : BitVec 3) (s : BitVec 4),
    let lost := fun (u : Dev) => u.qif.queues = [] ∧ u.qif.en = false ∧ u.qif.rdy = false ∧ u.qif.session = d.qif.session + 1 ∧
      u.qif.waiters = [] ∧ u.qif.swaits = [] ∧ (∀ f ∈ u.qif.flights, f ∈ d.qif.flights ∧ stands d f = true) ∧ u.relWait = [] ∧
      u.tb = d.tb ∧ u.rails = d.rails ∧ u.guard = d.guard ∧ u.groupRel = d.groupRel ∧ u.shank = d.shank ∧ u.power = d.power ∧
      u.core = (if actStands d then d.core else { d.core with act := none }) ∧
      u.mix.muteDue = (d.mix.muteDue || d.admin.policyMute) ∧ ((∀ c : Ch, d.chs[c].meas = none) → u.chs = d.chs ∧ u.qif.outbox = [])
    let trained := (w = 1 ∨ w = 2 ∨ w = 4) ∧ 1 ≤ s.toNat ∧ s.toNat ≤ 4
    (∃ u : Dev, exec .perst ⟨q, d⟩ = .next ⟨q, u⟩ ∧ lost u ∧ u.qif.linkUp = false ∧ u.qif.cfgReady = false ∧ u.qif.aqSq = 0 ∧ u.qif.errCount = 0 ∧ u.qif.evEn = false) ∧
    (∃ u : Dev, exec .functionLevelReset ⟨q, d⟩ = .next ⟨q, u⟩ ∧ lost u ∧ u.qif.linkUp = d.qif.linkUp ∧ u.qif.cfgReady = d.qif.cfgReady ∧ u.qif.aqSq = 0 ∧ u.qif.errCount = 0) ∧
    (∃ u : Dev, exec .linkDown ⟨q, d⟩ = .next ⟨q, u⟩ ∧ lost u ∧ u.qif.linkUp = false ∧ u.qif.aqSq = d.qif.aqSq ∧ u.qif.errCount = d.qif.errCount) ∧
    (d.qif.en = true → ∃ u : Dev, exec .qifDisable ⟨q, d⟩ = .next ⟨q, u⟩ ∧ lost u ∧ u.qif.linkUp = d.qif.linkUp ∧ u.qif.aqSq = d.qif.aqSq) ∧
    (d.qif.en = false → exec .qifDisable ⟨q, d⟩ = .next ⟨q, d⟩) ∧
    (trained → exec (.linkTraining w s) ⟨q, d⟩ = .next ⟨q, { d with qif := { d.qif with width := w, speed := s, linkUp := true } }⟩) ∧
    (¬trained → exec (.linkTraining w s) ⟨q, d⟩ = .next ⟨q, d⟩) ∧
    exec .configReady ⟨q, d⟩ = .next ⟨q, { d with qif := { d.qif with cfgReady := true } }⟩

/-- The guard resets VAUX_RISE, AUX_POR and VAUX_LOSS (R182, R521, R523, R535, R561): audio reset is asserted and the guard domain not ready; every
channel is off and unlatched at its reset configuration, the rails, timebase, mixes, ports, image and queues are at their reset values, the history is
empty and the straps and pins are those sampled, at VAUX_LOSS the levels that stand. Retired segments, the load records and images in the store, and
the host's memory stay; VAUX_RISE also puts JTAG at IDCODE. The audio resets (R522, R535 to R537). ARST_KEY: 0x4152 arms the key, 0x5354 in time
counts a match and starts the safe stop of every channel, anything else or a late one disarms it. AUDIO_RESET after a match, and SUPPLY_FAULT, leave
every channel off and unreleased with its latch and its guard constants as they were, the rails' precharge kept where complete and abandoned with FAIL
3 where it ran, and the rest of the audio domain at its reset values. AUDIO_RESET_RELEASE with the guard domain ready starts the timebase; GUARD_READY
makes it ready, and the safe pin or a trip pin that stands asserted stops its channels. The model's own choices and readings in it: log entries 4, 10,
55, 56, 57. -/
def Obligations.Resets : Prop :=
  (∀ (q : List Instr) (d : Dev) (p : GuardPins),
     let same := fun (u : Dev) (g : GuardPins) => u.guard.audioReset = true ∧ u.guard.ready = false ∧ u.guard.history = [] ∧ u.guard.thermLatch = false ∧
       u.guard.event = 0 ∧ u.guard.safe = g.safeLow ∧ u.guard.prsnt = g.prsnt ∧ u.guard.trip = g.trip ∧ u.guard.gpioIn = g.gpio ∧
       u.guard.dbgPermit = g.dbgPermit ∧ u.guard.smbAddr = g.smbAddr ∧ u.guard.serial = d.guard.serial ∧
       (∀ c : Ch, u.chs[c].cfg = ChanCfg.reset ∧ u.chs[c].prot = { Prot.reset with oos := u.chs[c].prot.oos } ∧ u.chs[c].mod = Mod.reset ∧
         u.chs[c].seg = d.chs[c].seg) ∧
       u.admin.records = (nvCut d).admin.records ∧ u.admin.img = d.admin.img ∧ u.admin.hostMem = d.admin.hostMem ∧ u.admin.nv = [] ∧
       u.rails = Rails.reset ∧ u.tb = Timebase.reset ∧ u.mix = Mix.reset ∧ u.ports = Ports.reset ∧ u.core.image = none ∧ u.awl = Awl.reset ∧
       u.qif.queues = [] ∧ u.qif.outbox = [] ∧ u.qif.en = false ∧ u.qif.linkUp = false ∧ u.admin.trips = [] ∧ u.growth = Growth.reset
     (∃ u : Dev, exec (.vauxRise p) ⟨q, d⟩ = .next ⟨q, u⟩ ∧ same u p ∧ u.guard.jtag = .idcode) ∧
     (∃ u : Dev, exec (.auxPor p) ⟨q, d⟩ = .next ⟨q, u⟩ ∧ same u p ∧ u.guard.jtag = d.guard.jtag) ∧
     (∃ u : Dev, exec .vauxLoss ⟨q, d⟩ = .next ⟨q, u⟩ ∧ same u (pinsNow d.guard) ∧ u.guard.jtag = d.guard.jtag)) ∧
  (∀ (q : List Instr) (d : Dev) (v : W32) (late : Bool),
     let key := v.toNat % 65536
     let down := fun (u : Dev) => u.guard.audioReset = true ∧ u.guard.arst = false ∧
       (∀ c : Ch, u.chs[c].mod = Mod.reset ∧ u.chs[c].prot.released = false ∧ u.chs[c].prot.drive = .off ∧ u.chs[c].prot.latched = d.chs[c].prot.latched ∧
         u.chs[c].cfg.ilim = d.chs[c].cfg.ilim ∧ u.chs[c].cfg.tripCount = d.chs[c].cfg.tripCount ∧ u.chs[c].cfg.inUse = false ∧ u.chs[c].seg = d.chs[c].seg) ∧
       (d.rails.preState = 4 → u.rails.preState = 4) ∧ (1 ≤ d.rails.preState → d.rails.preState ≤ 3 → u.rails.preState = 0 ∧ u.rails.preFail = 3) ∧
       u.tb = Timebase.reset ∧ u.mix = Mix.reset ∧ u.ports = Ports.reset ∧ u.awl = Awl.reset ∧ u.core.image = none ∧ u.qif.queues = [] ∧ u.qif.en = false ∧
       u.growth = Growth.reset ∧ u.guard.thermLatch = d.guard.thermLatch
     let idle := d.guard.audioReset = false ∧ d.guard.arst = false
     (idle → key = 0x4152 → exec (.arstKey v late) ⟨q, d⟩ = .next ⟨q, { d with guard := { d.guard with keyArmed := true } }⟩) ∧
     (idle → key = 0x5354 → d.guard.keyArmed = true → late = false → ∃ u : Dev, exec (.arstKey v late) ⟨q, d⟩ = .next ⟨q, u⟩ ∧
       u.guard.keyArmed = false ∧ u.guard.arst = true ∧ u.guard.keyCount = min 0xFFFF (d.guard.keyCount + 1) ∧
       (∀ c : Ch, u.chs[c].prot.released = true → u.chs[c].prot.drive = .safeStop ∨ u.chs[c].prot.ssPend = true) ∧ u.tb = d.tb ∧ u.rails = d.rails) ∧
     (idle → key ≠ 0x4152 → (key ≠ 0x5354 ∨ d.guard.keyArmed = false ∨ late = true) →
       exec (.arstKey v late) ⟨q, d⟩ = .next ⟨q, { d with guard := { d.guard with keyArmed := false } }⟩) ∧
     (¬idle → exec (.arstKey v late) ⟨q, d⟩ = .next ⟨q, d⟩) ∧
     (d.guard.arst = true → ∃ u : Dev, exec .audioReset ⟨q, d⟩ = .next ⟨q, u⟩ ∧ down u) ∧
     (d.guard.arst = false → exec .audioReset ⟨q, d⟩ = .next ⟨q, d⟩) ∧
     (d.guard.audioReset = false → ∃ u : Dev, exec .supplyFault ⟨q, d⟩ = .next ⟨q, u⟩ ∧ down u) ∧
     (d.guard.ready = true → d.guard.audioReset = true → exec .audioResetRelease ⟨q, d⟩ =
       .next ⟨q, { d with guard := { d.guard with audioReset := false }, tb := { d.tb with running := true } }⟩) ∧
     (d.guard.ready = false ∨ d.guard.audioReset = false → exec .audioResetRelease ⟨q, d⟩ = .next ⟨q, d⟩) ∧
     (d.guard.audioReset = true → exec .supplyFault ⟨q, d⟩ = .next ⟨q, d⟩) ∧
     (d.guard.ready = false → d.guard.safe = false → d.guard.trip = 0 → exec .guardReady ⟨q, d⟩ =
       .next ⟨q, { d with guard := { d.guard with ready := true } }⟩) ∧
     (d.guard.ready = false → ∃ u : Dev, exec .guardReady ⟨q, d⟩ = .next ⟨q, u⟩ ∧ u.guard.ready = true ∧
       (∀ c : Ch, d.guard.safe = true → u.chs[c].prot.released = true → u.chs[c].prot.drive = .safeStop ∨ u.chs[c].prot.ssPend = true) ∧
       (∀ (k : Pin) (c : Ch), d.guard.trip.getLsbD k.val = true → c ∈ maskChans d k → u.chs[c].prot.released = true →
         u.chs[c].prot.drive = .safeStop ∨ u.chs[c].prot.ssPend = true)) ∧
     (d.guard.ready = true → exec .guardReady ⟨q, d⟩ = .next ⟨q, d⟩))

/-- Stepped growth (R524 to R526): a growth step replaces its failed resources by their spares, and where each had one, or none failed, brings MEMBER
to the next member, 0x02, 0x08, 0x20 and 0x80, and GROWTH to 1 with the last; a resource without a spare stops growth at the member reached. A step
after the base step waits for the stewards. STEWARDS_BOOTED after the base step starts the stewards from the slot marked for boot where it holds valid
firmware, else from the other, and lets RDY rise where EN is set with a good configuration. Precharge (R529 to R534). PRECHARGE_START, once presence,
supply, image and thermal latch allow it, puts both rails in stage 1, or holds while a sensor is hot. PRECHARGE_STAGE moves one rail a stage on, the
register showing the rail behind, and at the end of stage 2 measures that rail; PRECHARGE_COMPLETE after 96 Fi periods of both in stage 3 completes
and counts it; PRECHARGE_FAIL turns it off with TIMEOUT, or with SHORT after 20 ms in stage 1; RETRY clears a failure. AUTO_RELEASE runs once after
completion and releases the groups of its mask in rising order. Outside its condition each does nothing. The model's own choices and readings in it:
log entries 4, 58, 59. -/
def Obligations.GrowthAndPrecharge : Prop :=
  (∀ (q : List Instr) (d : Dev) (bad : List BadPart) (b : BadPart) (c : Ch) (low : Bool) (k : Fin 12),
     let g := d.growth
     let a := d.admin
     let j := b2n low
     let open_ := d.guard.audioReset = false ∧ g.growth = 0 ∧ (1 ≤ g.step → a.booted = true)
     let boots := d.guard.audioReset = false ∧ a.booted = false ∧ g.step = 1
     let valid := fun n : Nat => (look a.fw n ⟨0, [], 0, 0, 0, 0, 0⟩).st = 1
     let passed : Growth := ⟨[0x02, 0x08, 0x20].getD g.step 0x80, if g.step = 3 then 1 else 0, g.step + 1⟩
     let started := fun n : Nat => { d with
       admin := { a with booted := true, fwRunning := n }
       qif := { d.qif with rdy := d.qif.rdy || (d.qif.en && !d.qif.cfgErr && !stewardsDown d) } }
     (open_ → exec (.growthStep []) ⟨q, d⟩ = .next ⟨q, { d with growth := passed }⟩) ∧
     (open_ → (badParts bad bad d).2 = true → exec (.growthStep bad) ⟨q, d⟩ = .next ⟨q, { (badParts bad bad d).1 with growth := passed }⟩) ∧
     (open_ → (badParts bad bad d).2 = false → exec (.growthStep bad) ⟨q, d⟩ =
       .next ⟨q, { (badParts bad bad d).1 with growth := { g with growth := 2 } }⟩) ∧
     (open_ → badPart d [b] b = none → exec (.growthStep [b]) ⟨q, d⟩ = .next ⟨q, { d with growth := { g with growth := 2 } }⟩) ∧
     badPart d bad .other = none ∧
     (open_ → k.val ≠ 11 → d.chs[c].seg.getD j 0 = 0 → exec (.growthStep [.segment c low k]) ⟨q, d⟩ = .next ⟨q, { d.ch c (fun x =>
       { x with seg := x.seg.set j (1#12 <<< k.val), segSwap := x.segSwap.set j true }) with growth := passed }⟩) ∧
     (¬open_ → exec (.growthStep bad) ⟨q, d⟩ = .next ⟨q, d⟩) ∧
     (boots → valid a.fwBoot → exec .stewardsBooted ⟨q, d⟩ = .next ⟨q, started a.fwBoot⟩) ∧
     (boots → ¬valid a.fwBoot → valid (1 - a.fwBoot) → exec .stewardsBooted ⟨q, d⟩ = .next ⟨q, started (1 - a.fwBoot)⟩) ∧
     (boots → ¬valid a.fwBoot → ¬valid (1 - a.fwBoot) → exec .stewardsBooted ⟨q, d⟩ = .next ⟨q, started a.fwRunning⟩) ∧
     (¬boots → exec .stewardsBooted ⟨q, d⟩ = .next ⟨q, d⟩)) ∧
  (∀ (q : List Instr) (d : Dev) (neg : Bool) (v : W32) (rise : Option (Nat × Nat)) (fall : Option Nat),
     let r := d.rails
     let run := 1 ≤ r.preState ∧ r.preState ≤ 3
     let st := if neg then r.stageN else r.stageP
     let moved := fun n : Nat => if neg then { r with stageN := n, preState := min r.stageP n } else { r with stageP := n, preState := min n r.stageN }
     let started := { r with preState := 1, stageP := 1, stageN := 1, preFail := 0, preFi := 0, stage3Fi := 0, iInNow := r.iIn, preTimeNow := r.preTimeout,
                             icapP := none, icapN := none, sumCnt := 0 }
     let failed := fun (k : Nat) => { d with rails := { r with preState := 5, preFail := k, stageP := 0, stageN := 0, stage3Fi := 0 } }
     let armed := { d with admin := { d.admin with autoArmed := false } }
     let fits := d.guard.audioReset = false ∧ d.admin.autoArmed = true ∧ preDone d = true
     (preReady d = true → guardHot d = false → exec .prechargeStart ⟨q, d⟩ =
       .next ⟨q, { d with guard := { d.guard with hold := false }, rails := started }⟩) ∧
     (preReady d = true → guardHot d = true → exec .prechargeStart ⟨q, d⟩ = .next ⟨q, { d with guard := { d.guard with hold := true } }⟩) ∧
     (preReady d = false → exec .prechargeStart ⟨q, d⟩ = .next ⟨q, d⟩) ∧
     (run → st = 1 → exec (.prechargeStage neg rise fall) ⟨q, d⟩ = .next ⟨q, { d with rails := moved 2 }⟩) ∧
     (run → st = 2 → ∃ (u : Dev) (rsrc cbulk : Nat), exec (.prechargeStage neg rise fall) ⟨q, d⟩ = .next ⟨q, u⟩ ∧
       u = { d with
         rails := if neg then { (moved 3) with supRsrcN := rsrc, cbulkN := cbulk } else { (moved 3) with supRsrcP := rsrc, cbulkP := cbulk }
         free := d.free + 2 } ∧
       (fall = none ∨ r.iInNow < 20 → rsrc = 0xFFFF) ∧
       (∀ mv : Nat, fall = some mv → 20 ≤ r.iInNow → ∃ up : Bool, rsrc = fieldSat 16 (gridDiv ((mv : Int) * 100) ((r.iInNow : Int) - 10) up)) ∧
       (∀ us mv : Nat, rise = some (us, mv) → mv ≠ 0 → ∃ up : Bool, cbulk = fieldSat 16 (gridDiv ((r.iInNow : Int) * us * 10) mv up)) ∧
       (rise = none → cbulk = if neg then r.cbulkN else r.cbulkP)) ∧
     (¬run ∨ 3 ≤ st → exec (.prechargeStage neg rise fall) ⟨q, d⟩ = .next ⟨q, d⟩) ∧
     (r.preState = 3 → 96 ≤ r.stage3Fi → exec .prechargeComplete ⟨q, d⟩ = .next ⟨q, { d with
       rails := { r with preState := 4, preDone := min 0xFFFF (r.preDone + 1), stage3Fi := 0, sinceDone := 0, sumCnt := 0 }
       admin := { d.admin with autoArmed := true } }⟩) ∧
     (r.preState ≠ 3 ∨ r.stage3Fi < 96 → exec .prechargeComplete ⟨q, d⟩ = .next ⟨q, d⟩) ∧
     (run → 96 * r.preTimeNow ≤ r.preFi + 1 → exec (.prechargeFail true) ⟨q, d⟩ = .next ⟨q, failed 2⟩) ∧
     (run → r.stageP = 1 ∨ r.stageN = 1 → 1920 ≤ r.preFi + 1 → exec (.prechargeFail false) ⟨q, d⟩ = .next ⟨q, failed 1⟩) ∧
     (¬run ∨ r.preFi + 1 < 96 * r.preTimeNow → exec (.prechargeFail true) ⟨q, d⟩ = .next ⟨q, d⟩) ∧
     (¬run ∨ r.preFi + 1 < 1920 ∨ (r.stageP ≠ 1 ∧ r.stageN ≠ 1) → exec (.prechargeFail false) ⟨q, d⟩ = .next ⟨q, d⟩) ∧
     (v.getLsbD 0 = true → r.preState = 5 → exec (.prechargeRetry v) ⟨q, d⟩ = .next ⟨q, { d with rails := { r with preState := 0, preFail := 0 } }⟩) ∧
     (v.getLsbD 0 = false ∨ r.preState ≠ 5 → exec (.prechargeRetry v) ⟨q, d⟩ = .next ⟨q, d⟩) ∧
     (fits → exec .autoRelease ⟨q, d⟩ = .next ⟨q, ((ixs 32).filter fun g => d.admin.autoRelease.getLsbD g.val).foldl autoGroup armed⟩) ∧
     (fits → d.admin.autoRelease = 0 → exec .autoRelease ⟨q, d⟩ = .next ⟨q, armed⟩) ∧
     (∀ (e u : Dev) (g : RGroup), (releaseGroupNow e g = none → autoGroup e g = e) ∧ (releaseGroupNow e g = some (u, 0) → autoGroup e g = u)) ∧
     (¬fits → exec .autoRelease ⟨q, d⟩ = .next ⟨q, d⟩))

/-- The SMBus transactions and the JTAG port (R541 to R545). With the guard domain ready and a right PEC, SET_PTR and SET_HIST set their pointers;
READ answers a guard register always and all ones with the not-served flag where the audio domain doesn't answer, and advances the pointer; WRITE
reaches only the registers of Table 17-6, as a host write would, and flags any other; HIST answers the record at its index and moves to the next;
ALERT_RESPONSE releases SMBALERT#. A wrong PEC, or a guard domain that is not ready, changes nothing. A pointer or index out of range leaves a legal
one, and a READ or HIST where the spec states no bytes answers free ones (log entry 60). JTAG offers EXTEST only before precharge is complete, DEBUG
and HALT only with the permit; a refused instruction leaves BYPASS (log entry 61). The model's own choices and readings in it: log entries 4, 10. -/
def Obligations.ServicePorts : Prop :=
  ∀ (q : List Instr) (d : Dev) (v : BitVec 16) (b : Byte) (w : W32) (a late pec : Bool) (h : HistRec) (i : JtagInstr),
    let g := d.guard
    let o := g.smbPtr
    let nx := (o + 4) % 2 ^ 16
    let served := a = true ∧ g.audioReset = false ∧ ¬(d.growth.member = 0 ∧ d.growth.growth = 2)
    let writable : List Nat := [0x0120, 0x0124, 0x0128, 0x012C, 0x0104, 0x0108, 0x0804]
    let put := fun (x : Guard) => { d with guard := x }
    (g.ready = true →
      (v.toNat % 4 = 0 → v.toNat < 0x7F00 → exec (.setPtr v true) ⟨q, d⟩ = .next ⟨q, put { g with smbPtr := v.toNat }⟩) ∧
      (∃ n : Nat, exec (.setPtr v true) ⟨q, d⟩ = .next ⟨q, { put { g with smbPtr := n } with
        free := if v.toNat % 4 = 0 ∧ v.toNat < 0x7F00 then d.free else d.free + 1 }⟩ ∧ n % 4 = 0 ∧ n < 0x7F00) ∧
      (b.toNat < 64 → exec (.setHist b true) ⟨q, d⟩ = .next ⟨q, put { g with smbHist := b.toNat }⟩) ∧
      (∃ n : Nat, exec (.setHist b true) ⟨q, d⟩ = .next ⟨q, { put { g with smbHist := n } with
        free := if b.toNat < 64 then d.free else d.free + 1 }⟩ ∧ n < 64) ∧
      (o < 0x1000 → exec (.smbRead a true) ⟨q, d⟩ =
        .next ⟨q, put { g with smbOut := le 4 ((readGuard d o).getD 0), smbPtr := nx, smbNotServed := false }⟩) ∧
      (0x1000 ≤ o → o < 0x7F00 → ¬served → exec (.smbRead a true) ⟨q, d⟩ =
        .next ⟨q, put { g with smbOut := le 4 0xFFFFFFFF, smbPtr := nx, smbNotServed := true }⟩) ∧
      (0x1000 ≤ o → o < 0x7F00 → served → exec (.smbRead a true) ⟨q, d⟩ =
        .next ⟨q, put { g with smbOut := le 4 (readReg d o), smbPtr := nx, smbNotServed := false }⟩) ∧
      (0x7F00 ≤ o → ∃ n : Nat, exec (.smbRead a true) ⟨q, d⟩ =
        .next ⟨q, { put { g with smbOut := le 4 n, smbPtr := nx, smbNotServed := false } with free := d.free + 1 }⟩) ∧
      (o ∉ writable → exec (.smbWrite w late true) ⟨q, d⟩ = .next ⟨q, put { g with smbPtr := nx, smbIgnored := true }⟩) ∧
      (o ∈ writable → ∃ u : Dev, exec (.smbWrite w late true) ⟨q, d⟩ = .next ⟨q, u⟩ ∧
        u = { regWrite d o w late with guard := { (regWrite d o w late).guard with smbPtr := nx, smbIgnored := false } }) ∧
      (o = 0x0104 → exec (.smbWrite w late true) ⟨q, d⟩ =
        .next ⟨q, put { g with event := g.event &&& ~~~(w.setWidth 16), smbPtr := 0x0108, smbIgnored := false }⟩) ∧
      (g.history[g.smbHist]? = some h → exec (.hist true) ⟨q, d⟩ =
        .next ⟨q, put { g with smbOut := histBytes h, smbHist := (g.smbHist + 1) % 256 }⟩) ∧
      (g.history[g.smbHist]? = none → ∃ bs : List Byte, exec (.hist true) ⟨q, d⟩ =
        .next ⟨q, { put { g with smbOut := bs, smbHist := (g.smbHist + 1) % 256 } with free := d.free + 16 }⟩ ∧ bs.length = 16) ∧
      (∃ n : Nat, exec (.smbStatus true) ⟨q, d⟩ = .next ⟨q, put { g with smbOut := le 1 n }⟩ ∧ n.testBit 1 = g.smbIgnored ∧
        n.testBit 2 = g.smbNotServed ∧ (n.testBit 0 = true ↔ g.audioReset = false ∧ ¬(d.growth.member = 0 ∧ d.growth.growth = 2))) ∧
      (g.smbAlert = true → ∃ n : Nat, exec .alertResponse ⟨q, d⟩ =
        .next ⟨q, { put { g with smbAlert := false, smbOut := le 1 n } with free := d.free + 1 }⟩ ∧ n / 2 = 0x58 + g.smbAddr.toNat)) ∧
    (g.ready = false ∨ g.smbAlert = false → exec .alertResponse ⟨q, d⟩ = .next ⟨q, d⟩) ∧
    (g.ready = false ∨ pec = false → ∀ c ∈ [Instr.setPtr v pec, .setHist b pec, .smbRead a pec, .smbWrite w late pec, .hist pec, .smbStatus pec],
      exec c ⟨q, d⟩ = .next ⟨q, d⟩) ∧
    (jtagOffers d i = true → exec (.jtagInstruction i) ⟨q, d⟩ = .next ⟨q, put { g with jtag := i, jtagRefused := false }⟩) ∧
    (jtagOffers d i = false → exec (.jtagInstruction i) ⟨q, d⟩ = .next ⟨q, put { g with jtag := .bypass, jtagRefused := true }⟩) ∧
    (jtagOffers d .extest = true ↔ preDone d = false) ∧ (jtagOffers d .halt = true ↔ g.dbgPermit = true) ∧
    (jtagOffers d .debug = true ↔ g.dbgPermit = true) ∧ (∀ j ∈ [JtagInstr.bypass, .idcode, .samplePreload], jtagOffers d j = true)
end

