-- ==== Sys2Proof/Laws/Mem.lean ====
section
/-!
SUPPORT. Laws of the sparse memories: every operation keeps the canonical form, a read after a write gives the value written, and a
write leaves every other key alone.
-/

set_option Elab.async false
set_option linter.all false

namespace Sys2Proof.Machine

variable {α : Type}

theorem above_mono (m : Mem α) (a b : Nat) (h : a ≤ b) (hb : Mem.above m b = true) : Mem.above m a = true := by
  induction m with
  | nil => rfl
  | cons p t ih => simp [Mem.above] at hb ⊢; exact ⟨by omega, ih hb.2⟩

theorem erase_above (m : Mem α) (a b : Nat) (h : Mem.above m b = true) : Mem.above (Mem.erase m a) b = true := by
  induction m with
  | nil => rfl
  | cons p t ih =>
    simp [Mem.above] at h
    simp only [Mem.erase]; split
    · exact h.2
    · simp [Mem.above, h.1, ih h.2]

theorem put_above (m : Mem α) (a b : Nat) (v : α) (h : Mem.above m b = true) (ha : b < a) : Mem.above (Mem.put m a v) b = true := by
  induction m with
  | nil => simp [Mem.put, Mem.above, ha]
  | cons p t ih =>
    simp [Mem.above] at h
    simp only [Mem.put]; (repeat' split) <;> simp [Mem.above, h, ha, ih h.2]

theorem erase_wf [DecidableEq α] (m : Mem α) (x : α) (a : Nat) (h : Mem.wf m x = true) : Mem.wf (Mem.erase m a) x = true := by
  induction m with
  | nil => rfl
  | cons p t ih =>
    simp [Mem.wf] at h
    simp only [Mem.erase]; split
    · exact h.2
    · simp [Mem.wf, h.1, ih h.2, erase_above]

theorem put_wf [DecidableEq α] (m : Mem α) (x : α) (a : Nat) (v : α) (h : Mem.wf m x = true) (hv : v ≠ x) : Mem.wf (Mem.put m a v) x = true := by
  induction m with
  | nil => simp [Mem.put, Mem.wf, Mem.above, hv]
  | cons p t ih =>
    simp [Mem.wf] at h
    simp only [Mem.put]; (repeat' split)
    · rename_i k; simp [Mem.wf, Mem.above, h, hv, k]; exact above_mono _ _ _ (by omega) h.1.1
    · rename_i k; subst k; simp [Mem.wf, h, hv]
    · simp [Mem.wf, h.1, ih h.2]; exact put_above _ _ _ _ h.1.1 (by omega)

theorem set_wf [DecidableEq α] (m : Mem α) (x : α) (a : Nat) (v : α) (h : Mem.wf m x = true) : Mem.wf (Mem.set m x a v) x = true := by
  unfold Mem.set; split
  · exact erase_wf m x a h
  · exact put_wf m x a v h ‹_›

theorem setBytes_wf (bs : List Byte) (m : Mem Byte) (a : Nat) (h : Mem.wf m 0 = true) : Mem.wf (Mem.setBytes m a bs) 0 = true := by
  induction bs generalizing m a with
  | nil => exact h
  | cons b t ih => exact ih _ _ (set_wf m 0 a b h)

theorem get_of_above (m : Mem α) (x : α) (a b : Nat) (h : Mem.above m b = true) (ha : a ≤ b) : Mem.get m x a = x := by
  induction m with
  | nil => rfl
  | cons p t ih => simp [Mem.above] at h; simp only [Mem.get]; rw [if_neg (by omega)]; exact ih h.2

theorem get_put_same (m : Mem α) (x : α) (a : Nat) (v : α) : Mem.get (Mem.put m a v) x a = v := by
  induction m with
  | nil => simp [Mem.put, Mem.get]
  | cons p t ih => simp only [Mem.put]; (repeat' split) <;> simp_all [Mem.get]

theorem get_put_other (m : Mem α) (x : α) (a b : Nat) (v : α) (h : b ≠ a) : Mem.get (Mem.put m a v) x b = Mem.get m x b := by
  induction m with
  | nil => simp [Mem.put, Mem.get, Ne.symm h]
  | cons p t ih => simp only [Mem.put]; (repeat' split) <;> simp_all [Mem.get, Ne.symm h]

theorem get_erase_same [DecidableEq α] (m : Mem α) (x : α) (a : Nat) (h : Mem.wf m x = true) : Mem.get (Mem.erase m a) x a = x := by
  induction m with
  | nil => rfl
  | cons p t ih =>
    simp [Mem.wf] at h
    simp only [Mem.erase]; split
    · rename_i k; exact get_of_above t x a p.1 h.1.1 (by omega)
    · rename_i k; simp [Mem.get, k, ih h.2]

theorem get_erase_other (m : Mem α) (x : α) (a b : Nat) (h : b ≠ a) : Mem.get (Mem.erase m a) x b = Mem.get m x b := by
  induction m with
  | nil => rfl
  | cons p t ih =>
    simp only [Mem.erase]; split
    · rename_i k; simp [Mem.get, k, Ne.symm h]
    · simp [Mem.get, ih]

/-- A read after a write. -/
theorem get_set [DecidableEq α] (m : Mem α) (x : α) (a b : Nat) (v : α) (h : Mem.wf m x = true) :
    Mem.get (Mem.set m x a v) x b = if b = a then v else Mem.get m x b := by
  unfold Mem.set
  by_cases hb : b = a
  · subst hb; split
    · rename_i k; simp [get_erase_same, h, k]
    · simp [get_put_same]
  · rw [if_neg hb]; split
    · exact get_erase_other m x a b hb
    · exact get_put_other m x a b v hb

/-- Writing a run of bytes leaves every byte outside it. -/
theorem get_setBytes_other (bs : List Byte) (m : Mem Byte) (a b : Nat) (h : Mem.wf m 0 = true) (hb : b < a ∨ a + bs.length ≤ b) :
    Mem.get (Mem.setBytes m a bs) 0 b = Mem.get m 0 b := by
  induction bs generalizing m a with
  | nil => rfl
  | cons x t ih =>
    simp at hb
    rw [Mem.setBytes, ih _ _ (set_wf m 0 a x h) (by omega), get_set _ _ _ _ _ h, if_neg (by omega)]

end Sys2Proof.Machine
end

