-- ==== Sys2Proof/Laws/State.lean ====
section
/-!
SUPPORT. The small lemmas of the state: what each accessor of `Dev` sets and what it leaves, and the frame of a fold over
channels or commands.
-/

set_option Elab.async false
set_option linter.all false

namespace Sys2Proof.Machine

/-! ### Serving a command -/

@[simp] theorem onDev_next (f : Dev → Dev) (q : List Instr) (d : Dev) : onDev f ⟨q, d⟩ = .next ⟨q, f d⟩ := rfl

@[simp] theorem step_front (c : Instr) (q : List Instr) (d : Dev) : step ⟨c :: q, d⟩ = exec c ⟨q, d⟩ := rfl

@[simp] theorem step_idle (d : Dev) : step ⟨[], d⟩ = .next ⟨[], d⟩ := rfl

/-! ### Banks -/

theorem upd_get {α : Type} {n : Nat} (v : Vector α n) (i j : Fin n) (f : α → α) :
    (upd v i f)[j] = if j = i then f v[j] else v[j] := by
  by_cases h : j = i
  · subst h; simp [upd]
  · have : i.val ≠ j.val := fun e => h (Fin.ext e.symm)
    simp [upd, this, h]

theorem tab_get {α β : Type} {n : Nat} (v : Vector α n) (f : Fin n → α → β) (i : Fin n) : (tab v f)[i] = f i v[i] := by
  simp [tab]

/-! ### Channels -/

theorem ch_same (d : Dev) (c : Ch) (f : Chan → Chan) : (d.ch c f).chs[c] = f d.chs[c] := by
  simp only [Dev.ch, upd_get, if_true]

theorem ch_other (d : Dev) (c k : Ch) (f : Chan → Chan) (h : k ≠ c) : (d.ch c f).chs[k] = d.chs[k] := by
  simp only [Dev.ch, upd_get, if_neg h]

theorem ch_get (d : Dev) (c k : Ch) (f : Chan → Chan) : (d.ch c f).chs[k] = if k = c then f d.chs[k] else d.chs[k] := by
  simp only [Dev.ch, upd_get]

theorem chAll_get (d : Dev) (f : Ch → Chan → Chan) (k : Ch) : (d.chAll f).chs[k] = f k d.chs[k] := by
  simp only [Dev.chAll, tab_get]

/-- Two updates of a channel that agree on what it holds are one. -/
theorem ch_congr (d : Dev) (c : Ch) (f g : Chan → Chan) (h : f d.chs[c] = g d.chs[c]) : d.ch c f = d.ch c g := by
  simp only [Dev.ch, upd, h]

theorem ch_ch (d : Dev) (c : Ch) (f g : Chan → Chan) : (d.ch c f).ch c g = d.ch c fun x => g (f x) := by
  simp [Dev.ch, upd]

theorem ch_id (d : Dev) (c : Ch) : d.ch c (fun x => x) = d := by simp [Dev.ch, upd]

theorem halves_single (d : Dev) (c : Ch) (h : bridgedB d c = false) : halves d c = [c] := by simp [halves, h]

theorem halves_pair (d : Dev) (c : Ch) (h : bridgedB d c = true) : halves d c = [evenOf c, oddOf c] := by simp [halves, h]

theorem lead_single (d : Dev) (c : Ch) (h : bridgedB d c = false) : lead d c = c := by simp [lead, h]

/-! ### What each accessor leaves -/

@[simp] theorem ch_frame (d : Dev) (c : Ch) (f : Chan → Chan) :
    (d.ch c f).power = d.power ∧ (d.ch c f).rails = d.rails ∧ (d.ch c f).guard = d.guard ∧
    (d.ch c f).tb = d.tb ∧ (d.ch c f).core = d.core ∧ (d.ch c f).groupRel = d.groupRel ∧
    (d.ch c f).groupRamp = d.groupRamp ∧ (d.ch c f).rampLen = d.rampLen ∧ (d.ch c f).relWait = d.relWait ∧
    (d.ch c f).stops = d.stops ∧ (d.ch c f).halt = d.halt ∧ (d.ch c f).haltMask = d.haltMask ∧
    (d.ch c f).evi = d.evi ∧ (d.ch c f).awl = d.awl ∧ (d.ch c f).mix = d.mix ∧
    (d.ch c f).ports = d.ports ∧ (d.ch c f).qif = d.qif ∧ (d.ch c f).admin = d.admin ∧
    (d.ch c f).shank = d.shank ∧ (d.ch c f).cob = d.cob ∧ (d.ch c f).growth = d.growth ∧
    (d.ch c f).free = d.free := by
  simp [Dev.ch]

@[simp] theorem chAll_frame (d : Dev) (f : Ch → Chan → Chan) :
    (d.chAll f).power = d.power ∧ (d.chAll f).rails = d.rails ∧ (d.chAll f).guard = d.guard ∧
    (d.chAll f).tb = d.tb ∧ (d.chAll f).core = d.core ∧ (d.chAll f).groupRel = d.groupRel ∧
    (d.chAll f).groupRamp = d.groupRamp ∧ (d.chAll f).rampLen = d.rampLen ∧ (d.chAll f).relWait = d.relWait ∧
    (d.chAll f).stops = d.stops ∧ (d.chAll f).halt = d.halt ∧ (d.chAll f).haltMask = d.haltMask ∧
    (d.chAll f).evi = d.evi ∧ (d.chAll f).awl = d.awl ∧ (d.chAll f).mix = d.mix ∧
    (d.chAll f).ports = d.ports ∧ (d.chAll f).qif = d.qif ∧ (d.chAll f).admin = d.admin ∧
    (d.chAll f).shank = d.shank ∧ (d.chAll f).cob = d.cob ∧ (d.chAll f).growth = d.growth ∧
    (d.chAll f).free = d.free := by
  simp [Dev.chAll]

@[simp] theorem stat_frame (d : Dev) (c : Ch) (f : LoopStat → LoopStat) :
    (d.stat c f).power = d.power ∧ (d.stat c f).rails = d.rails ∧ (d.stat c f).guard = d.guard ∧
    (d.stat c f).tb = d.tb ∧ (d.stat c f).core = d.core ∧ (d.stat c f).groupRel = d.groupRel ∧
    (d.stat c f).groupRamp = d.groupRamp ∧ (d.stat c f).rampLen = d.rampLen ∧ (d.stat c f).relWait = d.relWait ∧
    (d.stat c f).stops = d.stops ∧ (d.stat c f).halt = d.halt ∧ (d.stat c f).haltMask = d.haltMask ∧
    (d.stat c f).evi = d.evi ∧ (d.stat c f).awl = d.awl ∧ (d.stat c f).mix = d.mix ∧
    (d.stat c f).ports = d.ports ∧ (d.stat c f).qif = d.qif ∧ (d.stat c f).admin = d.admin ∧
    (d.stat c f).shank = d.shank ∧ (d.stat c f).cob = d.cob ∧ (d.stat c f).growth = d.growth ∧
    (d.stat c f).free = d.free := by
  simp [Dev.stat, Dev.ch]

@[simp] theorem sns_frame (d : Dev) (c : Ch) (f : Sense → Sense) :
    (d.sns c f).power = d.power ∧ (d.sns c f).rails = d.rails ∧ (d.sns c f).guard = d.guard ∧
    (d.sns c f).tb = d.tb ∧ (d.sns c f).core = d.core ∧ (d.sns c f).groupRel = d.groupRel ∧
    (d.sns c f).groupRamp = d.groupRamp ∧ (d.sns c f).rampLen = d.rampLen ∧ (d.sns c f).relWait = d.relWait ∧
    (d.sns c f).stops = d.stops ∧ (d.sns c f).halt = d.halt ∧ (d.sns c f).haltMask = d.haltMask ∧
    (d.sns c f).evi = d.evi ∧ (d.sns c f).awl = d.awl ∧ (d.sns c f).mix = d.mix ∧
    (d.sns c f).ports = d.ports ∧ (d.sns c f).qif = d.qif ∧ (d.sns c f).admin = d.admin ∧
    (d.sns c f).shank = d.shank ∧ (d.sns c f).cob = d.cob ∧ (d.sns c f).growth = d.growth ∧
    (d.sns c f).free = d.free := by
  simp [Dev.sns, Dev.ch]

@[simp] theorem tick_frame (d : Dev) :
    (d.tick).chs = d.chs ∧ (d.tick).power = d.power ∧ (d.tick).rails = d.rails ∧
    (d.tick).guard = d.guard ∧ (d.tick).tb = d.tb ∧ (d.tick).core = d.core ∧
    (d.tick).groupRel = d.groupRel ∧ (d.tick).groupRamp = d.groupRamp ∧ (d.tick).rampLen = d.rampLen ∧
    (d.tick).relWait = d.relWait ∧ (d.tick).stops = d.stops ∧ (d.tick).halt = d.halt ∧
    (d.tick).haltMask = d.haltMask ∧ (d.tick).evi = d.evi ∧ (d.tick).awl = d.awl ∧
    (d.tick).mix = d.mix ∧ (d.tick).ports = d.ports ∧ (d.tick).qif = d.qif ∧
    (d.tick).admin = d.admin ∧ (d.tick).shank = d.shank ∧ (d.tick).cob = d.cob ∧
    (d.tick).growth = d.growth := by
  simp [Dev.tick]

@[simp] theorem ticks_frame (d : Dev) (n : Nat) :
    (d.ticks n).chs = d.chs ∧ (d.ticks n).power = d.power ∧ (d.ticks n).rails = d.rails ∧
    (d.ticks n).guard = d.guard ∧ (d.ticks n).tb = d.tb ∧ (d.ticks n).core = d.core ∧
    (d.ticks n).groupRel = d.groupRel ∧ (d.ticks n).groupRamp = d.groupRamp ∧ (d.ticks n).rampLen = d.rampLen ∧
    (d.ticks n).relWait = d.relWait ∧ (d.ticks n).stops = d.stops ∧ (d.ticks n).halt = d.halt ∧
    (d.ticks n).haltMask = d.haltMask ∧ (d.ticks n).evi = d.evi ∧ (d.ticks n).awl = d.awl ∧
    (d.ticks n).mix = d.mix ∧ (d.ticks n).ports = d.ports ∧ (d.ticks n).qif = d.qif ∧
    (d.ticks n).admin = d.admin ∧ (d.ticks n).shank = d.shank ∧ (d.ticks n).cob = d.cob ∧
    (d.ticks n).growth = d.growth := by
  simp [Dev.ticks]

@[simp] theorem tile_frame (d : Dev) (t : LTile) (f : TileState → TileState) :
    (d.tile t f).chs = d.chs ∧ (d.tile t f).power = d.power ∧ (d.tile t f).rails = d.rails ∧
    (d.tile t f).guard = d.guard ∧ (d.tile t f).tb = d.tb ∧ (d.tile t f).groupRel = d.groupRel ∧
    (d.tile t f).groupRamp = d.groupRamp ∧ (d.tile t f).rampLen = d.rampLen ∧ (d.tile t f).relWait = d.relWait ∧
    (d.tile t f).stops = d.stops ∧ (d.tile t f).halt = d.halt ∧ (d.tile t f).haltMask = d.haltMask ∧
    (d.tile t f).evi = d.evi ∧ (d.tile t f).awl = d.awl ∧ (d.tile t f).mix = d.mix ∧
    (d.tile t f).ports = d.ports ∧ (d.tile t f).qif = d.qif ∧ (d.tile t f).admin = d.admin ∧
    (d.tile t f).shank = d.shank ∧ (d.tile t f).cob = d.cob ∧ (d.tile t f).growth = d.growth ∧
    (d.tile t f).free = d.free := by
  simp [Dev.tile]

@[simp] theorem mixCh_frame (d : Dev) (c : Nat) (f : MixCh → MixCh) :
    (d.mixCh c f).chs = d.chs ∧ (d.mixCh c f).power = d.power ∧ (d.mixCh c f).rails = d.rails ∧
    (d.mixCh c f).guard = d.guard ∧ (d.mixCh c f).tb = d.tb ∧ (d.mixCh c f).core = d.core ∧
    (d.mixCh c f).groupRel = d.groupRel ∧ (d.mixCh c f).groupRamp = d.groupRamp ∧ (d.mixCh c f).rampLen = d.rampLen ∧
    (d.mixCh c f).relWait = d.relWait ∧ (d.mixCh c f).stops = d.stops ∧ (d.mixCh c f).halt = d.halt ∧
    (d.mixCh c f).haltMask = d.haltMask ∧ (d.mixCh c f).evi = d.evi ∧ (d.mixCh c f).awl = d.awl ∧
    (d.mixCh c f).ports = d.ports ∧ (d.mixCh c f).qif = d.qif ∧ (d.mixCh c f).admin = d.admin ∧
    (d.mixCh c f).shank = d.shank ∧ (d.mixCh c f).cob = d.cob ∧ (d.mixCh c f).growth = d.growth ∧
    (d.mixCh c f).free = d.free := by
  simp [Dev.mixCh]

@[simp] theorem stream_frame (d : Dev) (h : Nat) (f : Stream → Stream) :
    (d.stream h f).chs = d.chs ∧ (d.stream h f).power = d.power ∧ (d.stream h f).rails = d.rails ∧
    (d.stream h f).guard = d.guard ∧ (d.stream h f).tb = d.tb ∧ (d.stream h f).core = d.core ∧
    (d.stream h f).groupRel = d.groupRel ∧ (d.stream h f).groupRamp = d.groupRamp ∧ (d.stream h f).rampLen = d.rampLen ∧
    (d.stream h f).relWait = d.relWait ∧ (d.stream h f).stops = d.stops ∧ (d.stream h f).halt = d.halt ∧
    (d.stream h f).haltMask = d.haltMask ∧ (d.stream h f).evi = d.evi ∧ (d.stream h f).awl = d.awl ∧
    (d.stream h f).ports = d.ports ∧ (d.stream h f).qif = d.qif ∧ (d.stream h f).admin = d.admin ∧
    (d.stream h f).shank = d.shank ∧ (d.stream h f).cob = d.cob ∧ (d.stream h f).growth = d.growth ∧
    (d.stream h f).free = d.free := by
  simp [Dev.stream]

@[simp] theorem sap_frame (d : Dev) (p : Nat) (f : Sap → Sap) :
    (d.sap p f).chs = d.chs ∧ (d.sap p f).power = d.power ∧ (d.sap p f).rails = d.rails ∧
    (d.sap p f).guard = d.guard ∧ (d.sap p f).tb = d.tb ∧ (d.sap p f).core = d.core ∧
    (d.sap p f).groupRel = d.groupRel ∧ (d.sap p f).groupRamp = d.groupRamp ∧ (d.sap p f).rampLen = d.rampLen ∧
    (d.sap p f).relWait = d.relWait ∧ (d.sap p f).stops = d.stops ∧ (d.sap p f).halt = d.halt ∧
    (d.sap p f).haltMask = d.haltMask ∧ (d.sap p f).evi = d.evi ∧ (d.sap p f).awl = d.awl ∧
    (d.sap p f).mix = d.mix ∧ (d.sap p f).qif = d.qif ∧ (d.sap p f).admin = d.admin ∧
    (d.sap p f).shank = d.shank ∧ (d.sap p f).cob = d.cob ∧ (d.sap p f).growth = d.growth ∧
    (d.sap p f).free = d.free := by
  simp [Dev.sap]

@[simp] theorem flights_frame (d : Dev) (f : List Flight → List Flight) :
    (d.flights f).chs = d.chs ∧ (d.flights f).power = d.power ∧ (d.flights f).rails = d.rails ∧
    (d.flights f).guard = d.guard ∧ (d.flights f).tb = d.tb ∧ (d.flights f).core = d.core ∧
    (d.flights f).groupRel = d.groupRel ∧ (d.flights f).groupRamp = d.groupRamp ∧ (d.flights f).rampLen = d.rampLen ∧
    (d.flights f).relWait = d.relWait ∧ (d.flights f).stops = d.stops ∧ (d.flights f).halt = d.halt ∧
    (d.flights f).haltMask = d.haltMask ∧ (d.flights f).evi = d.evi ∧ (d.flights f).awl = d.awl ∧
    (d.flights f).mix = d.mix ∧ (d.flights f).ports = d.ports ∧ (d.flights f).admin = d.admin ∧
    (d.flights f).shank = d.shank ∧ (d.flights f).cob = d.cob ∧ (d.flights f).growth = d.growth ∧
    (d.flights f).free = d.free := by
  simp [Dev.flights]

@[simp] theorem grd_frame (d : Dev) (f : Guard → Guard) :
    (d.grd f).chs = d.chs ∧ (d.grd f).power = d.power ∧ (d.grd f).rails = d.rails ∧
    (d.grd f).tb = d.tb ∧ (d.grd f).core = d.core ∧ (d.grd f).groupRel = d.groupRel ∧
    (d.grd f).groupRamp = d.groupRamp ∧ (d.grd f).rampLen = d.rampLen ∧ (d.grd f).relWait = d.relWait ∧
    (d.grd f).stops = d.stops ∧ (d.grd f).halt = d.halt ∧ (d.grd f).haltMask = d.haltMask ∧
    (d.grd f).evi = d.evi ∧ (d.grd f).awl = d.awl ∧ (d.grd f).mix = d.mix ∧
    (d.grd f).ports = d.ports ∧ (d.grd f).qif = d.qif ∧ (d.grd f).admin = d.admin ∧
    (d.grd f).shank = d.shank ∧ (d.grd f).cob = d.cob ∧ (d.grd f).growth = d.growth ∧
    (d.grd f).free = d.free := by
  simp [Dev.grd]

/-! ### Folds -/

/-- What every step of a fold leaves, the fold leaves. -/
theorem foldl_keeps {α β : Type} (p : Dev → β) (f : Dev → α → Dev) (h : ∀ e a, p (f e a) = p e) (l : List α) (d : Dev) :
    p (l.foldl f d) = p d := by
  induction l generalizing d with
  | nil => rfl
  | cons a t ih => rw [List.foldl_cons, ih, h]

/-- What every step of a fold keeps true stays true. -/
theorem foldl_holds {α : Type} (p : Dev → Prop) (f : Dev → α → Dev) (h : ∀ e a, p e → p (f e a)) (l : List α) (d : Dev)
    (hd : p d) : p (l.foldl f d) := by
  induction l generalizing d with
  | nil => exact hd
  | cons a t ih => exact ih _ (h _ _ hd)

theorem forCh_holds (p : Dev → Prop) (f : Dev → Ch → Dev) (h : ∀ e a, p e → p (f e a)) (l : List Ch) (d : Dev) (hd : p d) :
    p (forCh l f d) := foldl_holds p f h l d hd

@[simp] theorem foldl_chs {α : Type} (f : Dev → α → Dev) (l : List α) (d : Dev) (h : ∀ e a, (f e a).chs = e.chs) :
    (l.foldl f d).chs = d.chs := foldl_keeps Dev.chs f h l d

@[simp] theorem forCh_chs (f : Dev → Ch → Dev) (l : List Ch) (d : Dev) (h : ∀ e a, (f e a).chs = e.chs) :
    (forCh l f d).chs = d.chs := foldl_keeps Dev.chs f h l d

@[simp] theorem foldl_power {α : Type} (f : Dev → α → Dev) (l : List α) (d : Dev) (h : ∀ e a, (f e a).power = e.power) :
    (l.foldl f d).power = d.power := foldl_keeps Dev.power f h l d

@[simp] theorem forCh_power (f : Dev → Ch → Dev) (l : List Ch) (d : Dev) (h : ∀ e a, (f e a).power = e.power) :
    (forCh l f d).power = d.power := foldl_keeps Dev.power f h l d

@[simp] theorem foldl_rails {α : Type} (f : Dev → α → Dev) (l : List α) (d : Dev) (h : ∀ e a, (f e a).rails = e.rails) :
    (l.foldl f d).rails = d.rails := foldl_keeps Dev.rails f h l d

@[simp] theorem forCh_rails (f : Dev → Ch → Dev) (l : List Ch) (d : Dev) (h : ∀ e a, (f e a).rails = e.rails) :
    (forCh l f d).rails = d.rails := foldl_keeps Dev.rails f h l d

@[simp] theorem foldl_guard {α : Type} (f : Dev → α → Dev) (l : List α) (d : Dev) (h : ∀ e a, (f e a).guard = e.guard) :
    (l.foldl f d).guard = d.guard := foldl_keeps Dev.guard f h l d

@[simp] theorem forCh_guard (f : Dev → Ch → Dev) (l : List Ch) (d : Dev) (h : ∀ e a, (f e a).guard = e.guard) :
    (forCh l f d).guard = d.guard := foldl_keeps Dev.guard f h l d

@[simp] theorem foldl_tb {α : Type} (f : Dev → α → Dev) (l : List α) (d : Dev) (h : ∀ e a, (f e a).tb = e.tb) :
    (l.foldl f d).tb = d.tb := foldl_keeps Dev.tb f h l d

@[simp] theorem forCh_tb (f : Dev → Ch → Dev) (l : List Ch) (d : Dev) (h : ∀ e a, (f e a).tb = e.tb) :
    (forCh l f d).tb = d.tb := foldl_keeps Dev.tb f h l d

@[simp] theorem foldl_core {α : Type} (f : Dev → α → Dev) (l : List α) (d : Dev) (h : ∀ e a, (f e a).core = e.core) :
    (l.foldl f d).core = d.core := foldl_keeps Dev.core f h l d

@[simp] theorem forCh_core (f : Dev → Ch → Dev) (l : List Ch) (d : Dev) (h : ∀ e a, (f e a).core = e.core) :
    (forCh l f d).core = d.core := foldl_keeps Dev.core f h l d

@[simp] theorem foldl_groupRel {α : Type} (f : Dev → α → Dev) (l : List α) (d : Dev) (h : ∀ e a, (f e a).groupRel = e.groupRel) :
    (l.foldl f d).groupRel = d.groupRel := foldl_keeps Dev.groupRel f h l d

@[simp] theorem forCh_groupRel (f : Dev → Ch → Dev) (l : List Ch) (d : Dev) (h : ∀ e a, (f e a).groupRel = e.groupRel) :
    (forCh l f d).groupRel = d.groupRel := foldl_keeps Dev.groupRel f h l d

@[simp] theorem foldl_groupRamp {α : Type} (f : Dev → α → Dev) (l : List α) (d : Dev) (h : ∀ e a, (f e a).groupRamp = e.groupRamp) :
    (l.foldl f d).groupRamp = d.groupRamp := foldl_keeps Dev.groupRamp f h l d

@[simp] theorem forCh_groupRamp (f : Dev → Ch → Dev) (l : List Ch) (d : Dev) (h : ∀ e a, (f e a).groupRamp = e.groupRamp) :
    (forCh l f d).groupRamp = d.groupRamp := foldl_keeps Dev.groupRamp f h l d

@[simp] theorem foldl_rampLen {α : Type} (f : Dev → α → Dev) (l : List α) (d : Dev) (h : ∀ e a, (f e a).rampLen = e.rampLen) :
    (l.foldl f d).rampLen = d.rampLen := foldl_keeps Dev.rampLen f h l d

@[simp] theorem forCh_rampLen (f : Dev → Ch → Dev) (l : List Ch) (d : Dev) (h : ∀ e a, (f e a).rampLen = e.rampLen) :
    (forCh l f d).rampLen = d.rampLen := foldl_keeps Dev.rampLen f h l d

@[simp] theorem foldl_relWait {α : Type} (f : Dev → α → Dev) (l : List α) (d : Dev) (h : ∀ e a, (f e a).relWait = e.relWait) :
    (l.foldl f d).relWait = d.relWait := foldl_keeps Dev.relWait f h l d

@[simp] theorem forCh_relWait (f : Dev → Ch → Dev) (l : List Ch) (d : Dev) (h : ∀ e a, (f e a).relWait = e.relWait) :
    (forCh l f d).relWait = d.relWait := foldl_keeps Dev.relWait f h l d

@[simp] theorem foldl_stops {α : Type} (f : Dev → α → Dev) (l : List α) (d : Dev) (h : ∀ e a, (f e a).stops = e.stops) :
    (l.foldl f d).stops = d.stops := foldl_keeps Dev.stops f h l d

@[simp] theorem forCh_stops (f : Dev → Ch → Dev) (l : List Ch) (d : Dev) (h : ∀ e a, (f e a).stops = e.stops) :
    (forCh l f d).stops = d.stops := foldl_keeps Dev.stops f h l d

@[simp] theorem foldl_halt {α : Type} (f : Dev → α → Dev) (l : List α) (d : Dev) (h : ∀ e a, (f e a).halt = e.halt) :
    (l.foldl f d).halt = d.halt := foldl_keeps Dev.halt f h l d

@[simp] theorem forCh_halt (f : Dev → Ch → Dev) (l : List Ch) (d : Dev) (h : ∀ e a, (f e a).halt = e.halt) :
    (forCh l f d).halt = d.halt := foldl_keeps Dev.halt f h l d

@[simp] theorem foldl_haltMask {α : Type} (f : Dev → α → Dev) (l : List α) (d : Dev) (h : ∀ e a, (f e a).haltMask = e.haltMask) :
    (l.foldl f d).haltMask = d.haltMask := foldl_keeps Dev.haltMask f h l d

@[simp] theorem forCh_haltMask (f : Dev → Ch → Dev) (l : List Ch) (d : Dev) (h : ∀ e a, (f e a).haltMask = e.haltMask) :
    (forCh l f d).haltMask = d.haltMask := foldl_keeps Dev.haltMask f h l d

@[simp] theorem foldl_evi {α : Type} (f : Dev → α → Dev) (l : List α) (d : Dev) (h : ∀ e a, (f e a).evi = e.evi) :
    (l.foldl f d).evi = d.evi := foldl_keeps Dev.evi f h l d

@[simp] theorem forCh_evi (f : Dev → Ch → Dev) (l : List Ch) (d : Dev) (h : ∀ e a, (f e a).evi = e.evi) :
    (forCh l f d).evi = d.evi := foldl_keeps Dev.evi f h l d

@[simp] theorem foldl_awl {α : Type} (f : Dev → α → Dev) (l : List α) (d : Dev) (h : ∀ e a, (f e a).awl = e.awl) :
    (l.foldl f d).awl = d.awl := foldl_keeps Dev.awl f h l d

@[simp] theorem forCh_awl (f : Dev → Ch → Dev) (l : List Ch) (d : Dev) (h : ∀ e a, (f e a).awl = e.awl) :
    (forCh l f d).awl = d.awl := foldl_keeps Dev.awl f h l d

@[simp] theorem foldl_mix {α : Type} (f : Dev → α → Dev) (l : List α) (d : Dev) (h : ∀ e a, (f e a).mix = e.mix) :
    (l.foldl f d).mix = d.mix := foldl_keeps Dev.mix f h l d

@[simp] theorem forCh_mix (f : Dev → Ch → Dev) (l : List Ch) (d : Dev) (h : ∀ e a, (f e a).mix = e.mix) :
    (forCh l f d).mix = d.mix := foldl_keeps Dev.mix f h l d

@[simp] theorem foldl_ports {α : Type} (f : Dev → α → Dev) (l : List α) (d : Dev) (h : ∀ e a, (f e a).ports = e.ports) :
    (l.foldl f d).ports = d.ports := foldl_keeps Dev.ports f h l d

@[simp] theorem forCh_ports (f : Dev → Ch → Dev) (l : List Ch) (d : Dev) (h : ∀ e a, (f e a).ports = e.ports) :
    (forCh l f d).ports = d.ports := foldl_keeps Dev.ports f h l d

@[simp] theorem foldl_qif {α : Type} (f : Dev → α → Dev) (l : List α) (d : Dev) (h : ∀ e a, (f e a).qif = e.qif) :
    (l.foldl f d).qif = d.qif := foldl_keeps Dev.qif f h l d

@[simp] theorem forCh_qif (f : Dev → Ch → Dev) (l : List Ch) (d : Dev) (h : ∀ e a, (f e a).qif = e.qif) :
    (forCh l f d).qif = d.qif := foldl_keeps Dev.qif f h l d

@[simp] theorem foldl_admin {α : Type} (f : Dev → α → Dev) (l : List α) (d : Dev) (h : ∀ e a, (f e a).admin = e.admin) :
    (l.foldl f d).admin = d.admin := foldl_keeps Dev.admin f h l d

@[simp] theorem forCh_admin (f : Dev → Ch → Dev) (l : List Ch) (d : Dev) (h : ∀ e a, (f e a).admin = e.admin) :
    (forCh l f d).admin = d.admin := foldl_keeps Dev.admin f h l d

@[simp] theorem foldl_shank {α : Type} (f : Dev → α → Dev) (l : List α) (d : Dev) (h : ∀ e a, (f e a).shank = e.shank) :
    (l.foldl f d).shank = d.shank := foldl_keeps Dev.shank f h l d

@[simp] theorem forCh_shank (f : Dev → Ch → Dev) (l : List Ch) (d : Dev) (h : ∀ e a, (f e a).shank = e.shank) :
    (forCh l f d).shank = d.shank := foldl_keeps Dev.shank f h l d

@[simp] theorem foldl_cob {α : Type} (f : Dev → α → Dev) (l : List α) (d : Dev) (h : ∀ e a, (f e a).cob = e.cob) :
    (l.foldl f d).cob = d.cob := foldl_keeps Dev.cob f h l d

@[simp] theorem forCh_cob (f : Dev → Ch → Dev) (l : List Ch) (d : Dev) (h : ∀ e a, (f e a).cob = e.cob) :
    (forCh l f d).cob = d.cob := foldl_keeps Dev.cob f h l d

@[simp] theorem foldl_growth {α : Type} (f : Dev → α → Dev) (l : List α) (d : Dev) (h : ∀ e a, (f e a).growth = e.growth) :
    (l.foldl f d).growth = d.growth := foldl_keeps Dev.growth f h l d

@[simp] theorem forCh_growth (f : Dev → Ch → Dev) (l : List Ch) (d : Dev) (h : ∀ e a, (f e a).growth = e.growth) :
    (forCh l f d).growth = d.growth := foldl_keeps Dev.growth f h l d

@[simp] theorem foldl_free {α : Type} (f : Dev → α → Dev) (l : List α) (d : Dev) (h : ∀ e a, (f e a).free = e.free) :
    (l.foldl f d).free = d.free := foldl_keeps Dev.free f h l d

@[simp] theorem forCh_free (f : Dev → Ch → Dev) (l : List Ch) (d : Dev) (h : ∀ e a, (f e a).free = e.free) :
    (forCh l f d).free = d.free := foldl_keeps Dev.free f h l d

/-- A field of a choice between two parts. -/
theorem ite_dev (p : Prop) [Decidable p] (a b : Dev) :
    (if p then a else b).chs = (if p then a.chs else b.chs) ∧
    (if p then a else b).power = (if p then a.power else b.power) ∧
    (if p then a else b).rails = (if p then a.rails else b.rails) ∧
    (if p then a else b).guard = (if p then a.guard else b.guard) ∧
    (if p then a else b).tb = (if p then a.tb else b.tb) ∧
    (if p then a else b).core = (if p then a.core else b.core) ∧
    (if p then a else b).groupRel = (if p then a.groupRel else b.groupRel) ∧
    (if p then a else b).groupRamp = (if p then a.groupRamp else b.groupRamp) ∧
    (if p then a else b).rampLen = (if p then a.rampLen else b.rampLen) ∧
    (if p then a else b).relWait = (if p then a.relWait else b.relWait) ∧
    (if p then a else b).stops = (if p then a.stops else b.stops) ∧
    (if p then a else b).halt = (if p then a.halt else b.halt) ∧
    (if p then a else b).haltMask = (if p then a.haltMask else b.haltMask) ∧
    (if p then a else b).evi = (if p then a.evi else b.evi) ∧
    (if p then a else b).awl = (if p then a.awl else b.awl) ∧
    (if p then a else b).mix = (if p then a.mix else b.mix) ∧
    (if p then a else b).ports = (if p then a.ports else b.ports) ∧
    (if p then a else b).qif = (if p then a.qif else b.qif) ∧
    (if p then a else b).admin = (if p then a.admin else b.admin) ∧
    (if p then a else b).shank = (if p then a.shank else b.shank) ∧
    (if p then a else b).cob = (if p then a.cob else b.cob) ∧
    (if p then a else b).growth = (if p then a.growth else b.growth) ∧
    (if p then a else b).free = (if p then a.free else b.free) := by
  split <;> simp

end Sys2Proof.Machine
end

