-- ==== Sys2Proof/Laws/Ops.lean ====
section
/-!
SUPPORT. What the shared operations do: messages and events, the history, completions, the error log and results in
host memory.
-/

set_option Elab.async false
set_option linter.all false

namespace Sys2Proof.Machine

/-! ### What each operation leaves -/

@[simp] theorem signal_frame (d : Dev) (v : Nat) :
    (signal d v).chs = d.chs ∧ (signal d v).power = d.power ∧ (signal d v).rails = d.rails ∧ (signal d v).guard = d.guard ∧
    (signal d v).tb = d.tb ∧ (signal d v).core = d.core ∧ (signal d v).groupRel = d.groupRel ∧ (signal d v).groupRamp = d.groupRamp ∧
    (signal d v).rampLen = d.rampLen ∧ (signal d v).relWait = d.relWait ∧ (signal d v).stops = d.stops ∧ (signal d v).halt = d.halt ∧
    (signal d v).haltMask = d.haltMask ∧ (signal d v).evi = d.evi ∧ (signal d v).awl = d.awl ∧ (signal d v).mix = d.mix ∧
    (signal d v).ports = d.ports ∧ (signal d v).admin = d.admin ∧ (signal d v).shank = d.shank ∧ (signal d v).cob = d.cob ∧
    (signal d v).growth = d.growth ∧ (signal d v).free = d.free := by
  unfold signal
  (repeat' split) <;> simp

@[simp] theorem raiseEvt_frame (d : Dev) (src : Nat) :
    (raiseEvt d src).chs = d.chs ∧ (raiseEvt d src).power = d.power ∧ (raiseEvt d src).rails = d.rails ∧ (raiseEvt d src).guard = d.guard ∧
    (raiseEvt d src).tb = d.tb ∧ (raiseEvt d src).core = d.core ∧ (raiseEvt d src).groupRel = d.groupRel ∧ (raiseEvt d src).groupRamp = d.groupRamp ∧
    (raiseEvt d src).rampLen = d.rampLen ∧ (raiseEvt d src).relWait = d.relWait ∧ (raiseEvt d src).stops = d.stops ∧ (raiseEvt d src).halt = d.halt ∧
    (raiseEvt d src).haltMask = d.haltMask ∧ (raiseEvt d src).evi = d.evi ∧ (raiseEvt d src).awl = d.awl ∧ (raiseEvt d src).mix = d.mix ∧
    (raiseEvt d src).ports = d.ports ∧ (raiseEvt d src).admin = d.admin ∧ (raiseEvt d src).shank = d.shank ∧ (raiseEvt d src).cob = d.cob ∧
    (raiseEvt d src).growth = d.growth ∧ (raiseEvt d src).free = d.free := by
  unfold raiseEvt
  (repeat' split) <;> simp

@[simp] theorem setGrd_frame (d : Dev) (i : Nat) :
    (setGrd d i).chs = d.chs ∧ (setGrd d i).power = d.power ∧ (setGrd d i).rails = d.rails ∧ (setGrd d i).tb = d.tb ∧
    (setGrd d i).core = d.core ∧ (setGrd d i).groupRel = d.groupRel ∧ (setGrd d i).groupRamp = d.groupRamp ∧ (setGrd d i).rampLen = d.rampLen ∧
    (setGrd d i).relWait = d.relWait ∧ (setGrd d i).stops = d.stops ∧ (setGrd d i).halt = d.halt ∧ (setGrd d i).haltMask = d.haltMask ∧
    (setGrd d i).evi = d.evi ∧ (setGrd d i).awl = d.awl ∧ (setGrd d i).mix = d.mix ∧ (setGrd d i).ports = d.ports ∧
    (setGrd d i).admin = d.admin ∧ (setGrd d i).shank = d.shank ∧ (setGrd d i).cob = d.cob ∧ (setGrd d i).growth = d.growth ∧
    (setGrd d i).free = d.free := by
  unfold setGrd
  (repeat' split) <;> simp

@[simp] theorem setTb_frame (d : Dev) (i : Nat) :
    (setTb d i).chs = d.chs ∧ (setTb d i).power = d.power ∧ (setTb d i).rails = d.rails ∧ (setTb d i).guard = d.guard ∧
    (setTb d i).core = d.core ∧ (setTb d i).groupRel = d.groupRel ∧ (setTb d i).groupRamp = d.groupRamp ∧ (setTb d i).rampLen = d.rampLen ∧
    (setTb d i).relWait = d.relWait ∧ (setTb d i).stops = d.stops ∧ (setTb d i).halt = d.halt ∧ (setTb d i).haltMask = d.haltMask ∧
    (setTb d i).evi = d.evi ∧ (setTb d i).awl = d.awl ∧ (setTb d i).mix = d.mix ∧ (setTb d i).ports = d.ports ∧
    (setTb d i).admin = d.admin ∧ (setTb d i).shank = d.shank ∧ (setTb d i).cob = d.cob ∧ (setTb d i).growth = d.growth ∧
    (setTb d i).free = d.free := by
  unfold setTb
  (repeat' split) <;> simp

@[simp] theorem setThm_frame (d : Dev) (i : Nat) :
    (setThm d i).chs = d.chs ∧ (setThm d i).power = d.power ∧ (setThm d i).rails = d.rails ∧ (setThm d i).guard = d.guard ∧
    (setThm d i).tb = d.tb ∧ (setThm d i).core = d.core ∧ (setThm d i).groupRel = d.groupRel ∧ (setThm d i).groupRamp = d.groupRamp ∧
    (setThm d i).rampLen = d.rampLen ∧ (setThm d i).relWait = d.relWait ∧ (setThm d i).stops = d.stops ∧ (setThm d i).halt = d.halt ∧
    (setThm d i).haltMask = d.haltMask ∧ (setThm d i).evi = d.evi ∧ (setThm d i).awl = d.awl ∧ (setThm d i).mix = d.mix ∧
    (setThm d i).ports = d.ports ∧ (setThm d i).admin = d.admin ∧ (setThm d i).cob = d.cob ∧ (setThm d i).growth = d.growth ∧
    (setThm d i).free = d.free := by
  unfold setThm
  (repeat' split) <;> simp

@[simp] theorem copyHist_frame (d : Dev) :
    (copyHist d).chs = d.chs ∧ (copyHist d).power = d.power ∧ (copyHist d).rails = d.rails ∧ (copyHist d).tb = d.tb ∧
    (copyHist d).core = d.core ∧ (copyHist d).groupRel = d.groupRel ∧ (copyHist d).groupRamp = d.groupRamp ∧ (copyHist d).rampLen = d.rampLen ∧
    (copyHist d).relWait = d.relWait ∧ (copyHist d).stops = d.stops ∧ (copyHist d).halt = d.halt ∧ (copyHist d).haltMask = d.haltMask ∧
    (copyHist d).evi = d.evi ∧ (copyHist d).awl = d.awl ∧ (copyHist d).mix = d.mix ∧ (copyHist d).ports = d.ports ∧
    (copyHist d).qif = d.qif ∧ (copyHist d).shank = d.shank ∧ (copyHist d).cob = d.cob ∧ (copyHist d).growth = d.growth ∧
    (copyHist d).free = d.free := by
  unfold copyHist
  (repeat' split) <;> simp

@[simp] theorem hist_frame (d : Dev) (ch cause detail : Nat) (l : Bool) :
    (hist d ch cause detail l).chs = d.chs ∧ (hist d ch cause detail l).power = d.power ∧ (hist d ch cause detail l).rails = d.rails ∧ (hist d ch cause detail l).tb = d.tb ∧
    (hist d ch cause detail l).core = d.core ∧ (hist d ch cause detail l).groupRel = d.groupRel ∧ (hist d ch cause detail l).groupRamp = d.groupRamp ∧ (hist d ch cause detail l).rampLen = d.rampLen ∧
    (hist d ch cause detail l).relWait = d.relWait ∧ (hist d ch cause detail l).stops = d.stops ∧ (hist d ch cause detail l).halt = d.halt ∧ (hist d ch cause detail l).haltMask = d.haltMask ∧
    (hist d ch cause detail l).evi = d.evi ∧ (hist d ch cause detail l).awl = d.awl ∧ (hist d ch cause detail l).mix = d.mix ∧ (hist d ch cause detail l).ports = d.ports ∧
    (hist d ch cause detail l).qif = d.qif ∧ (hist d ch cause detail l).shank = d.shank ∧ (hist d ch cause detail l).cob = d.cob ∧ (hist d ch cause detail l).growth = d.growth := by
  simp only [hist]
  simp

@[simp] theorem errLog_frame (d : Dev) (sq cid op st : Nat) (i : FailInfo) (r0 r1 : Nat) :
    (errLog d sq cid op st i r0 r1).chs = d.chs ∧ (errLog d sq cid op st i r0 r1).power = d.power ∧ (errLog d sq cid op st i r0 r1).rails = d.rails ∧ (errLog d sq cid op st i r0 r1).guard = d.guard ∧
    (errLog d sq cid op st i r0 r1).tb = d.tb ∧ (errLog d sq cid op st i r0 r1).core = d.core ∧ (errLog d sq cid op st i r0 r1).groupRel = d.groupRel ∧ (errLog d sq cid op st i r0 r1).groupRamp = d.groupRamp ∧
    (errLog d sq cid op st i r0 r1).rampLen = d.rampLen ∧ (errLog d sq cid op st i r0 r1).relWait = d.relWait ∧ (errLog d sq cid op st i r0 r1).stops = d.stops ∧ (errLog d sq cid op st i r0 r1).halt = d.halt ∧
    (errLog d sq cid op st i r0 r1).haltMask = d.haltMask ∧ (errLog d sq cid op st i r0 r1).evi = d.evi ∧ (errLog d sq cid op st i r0 r1).awl = d.awl ∧ (errLog d sq cid op st i r0 r1).mix = d.mix ∧
    (errLog d sq cid op st i r0 r1).ports = d.ports ∧ (errLog d sq cid op st i r0 r1).qif = d.qif ∧ (errLog d sq cid op st i r0 r1).shank = d.shank ∧ (errLog d sq cid op st i r0 r1).cob = d.cob ∧
    (errLog d sq cid op st i r0 r1).growth = d.growth ∧ (errLog d sq cid op st i r0 r1).free = d.free := by
  unfold errLog
  (repeat' split) <;> simp

@[simp] theorem completeWith_frame (d : Dev) (r : CmdRef) (op st : Nat) (i : FailInfo) (r0 r1 : Nat) :
    (completeWith d r op st i r0 r1).chs = d.chs ∧ (completeWith d r op st i r0 r1).power = d.power ∧ (completeWith d r op st i r0 r1).rails = d.rails ∧ (completeWith d r op st i r0 r1).guard = d.guard ∧
    (completeWith d r op st i r0 r1).tb = d.tb ∧ (completeWith d r op st i r0 r1).core = d.core ∧ (completeWith d r op st i r0 r1).groupRel = d.groupRel ∧ (completeWith d r op st i r0 r1).groupRamp = d.groupRamp ∧
    (completeWith d r op st i r0 r1).rampLen = d.rampLen ∧ (completeWith d r op st i r0 r1).relWait = d.relWait ∧ (completeWith d r op st i r0 r1).stops = d.stops ∧ (completeWith d r op st i r0 r1).halt = d.halt ∧
    (completeWith d r op st i r0 r1).haltMask = d.haltMask ∧ (completeWith d r op st i r0 r1).evi = d.evi ∧ (completeWith d r op st i r0 r1).awl = d.awl ∧ (completeWith d r op st i r0 r1).mix = d.mix ∧
    (completeWith d r op st i r0 r1).ports = d.ports ∧ (completeWith d r op st i r0 r1).shank = d.shank ∧ (completeWith d r op st i r0 r1).cob = d.cob ∧ (completeWith d r op st i r0 r1).growth = d.growth ∧
    (completeWith d r op st i r0 r1).free = d.free := by
  unfold completeWith
  dsimp only
  (repeat' split) <;> simp

@[simp] theorem complete_frame (d : Dev) (r : CmdRef) (op st r0 r1 : Nat) :
    (complete d r op st r0 r1).chs = d.chs ∧ (complete d r op st r0 r1).power = d.power ∧ (complete d r op st r0 r1).rails = d.rails ∧ (complete d r op st r0 r1).guard = d.guard ∧
    (complete d r op st r0 r1).tb = d.tb ∧ (complete d r op st r0 r1).core = d.core ∧ (complete d r op st r0 r1).groupRel = d.groupRel ∧ (complete d r op st r0 r1).groupRamp = d.groupRamp ∧
    (complete d r op st r0 r1).rampLen = d.rampLen ∧ (complete d r op st r0 r1).relWait = d.relWait ∧ (complete d r op st r0 r1).stops = d.stops ∧ (complete d r op st r0 r1).halt = d.halt ∧
    (complete d r op st r0 r1).haltMask = d.haltMask ∧ (complete d r op st r0 r1).evi = d.evi ∧ (complete d r op st r0 r1).awl = d.awl ∧ (complete d r op st r0 r1).mix = d.mix ∧
    (complete d r op st r0 r1).ports = d.ports ∧ (complete d r op st r0 r1).shank = d.shank ∧ (complete d r op st r0 r1).cob = d.cob ∧ (complete d r op st r0 r1).growth = d.growth ∧
    (complete d r op st r0 r1).free = d.free := by
  unfold complete
  (repeat' split) <;> simp

@[simp] theorem completeAt_frame (d : Dev) (r : CmdRef) (op st stc : Nat) :
    (completeAt d r op st stc).chs = d.chs ∧ (completeAt d r op st stc).power = d.power ∧ (completeAt d r op st stc).rails = d.rails ∧ (completeAt d r op st stc).guard = d.guard ∧
    (completeAt d r op st stc).tb = d.tb ∧ (completeAt d r op st stc).core = d.core ∧ (completeAt d r op st stc).groupRel = d.groupRel ∧ (completeAt d r op st stc).groupRamp = d.groupRamp ∧
    (completeAt d r op st stc).rampLen = d.rampLen ∧ (completeAt d r op st stc).relWait = d.relWait ∧ (completeAt d r op st stc).stops = d.stops ∧ (completeAt d r op st stc).halt = d.halt ∧
    (completeAt d r op st stc).haltMask = d.haltMask ∧ (completeAt d r op st stc).evi = d.evi ∧ (completeAt d r op st stc).awl = d.awl ∧ (completeAt d r op st stc).mix = d.mix ∧
    (completeAt d r op st stc).ports = d.ports ∧ (completeAt d r op st stc).shank = d.shank ∧ (completeAt d r op st stc).cob = d.cob ∧ (completeAt d r op st stc).growth = d.growth ∧
    (completeAt d r op st stc).free = d.free := by
  unfold completeAt
  (repeat' split) <;> simp

@[simp] theorem refuse_frame (d : Dev) (r : CmdRef) (op st : Nat) :
    (refuse d r op st).chs = d.chs ∧ (refuse d r op st).power = d.power ∧ (refuse d r op st).rails = d.rails ∧ (refuse d r op st).guard = d.guard ∧
    (refuse d r op st).tb = d.tb ∧ (refuse d r op st).core = d.core ∧ (refuse d r op st).groupRel = d.groupRel ∧ (refuse d r op st).groupRamp = d.groupRamp ∧
    (refuse d r op st).rampLen = d.rampLen ∧ (refuse d r op st).relWait = d.relWait ∧ (refuse d r op st).stops = d.stops ∧ (refuse d r op st).halt = d.halt ∧
    (refuse d r op st).haltMask = d.haltMask ∧ (refuse d r op st).evi = d.evi ∧ (refuse d r op st).awl = d.awl ∧ (refuse d r op st).mix = d.mix ∧
    (refuse d r op st).ports = d.ports ∧ (refuse d r op st).shank = d.shank ∧ (refuse d r op st).cob = d.cob ∧ (refuse d r op st).growth = d.growth := by
  unfold refuse
  (repeat' split) <;> simp

@[simp] theorem hostWrite_frame (d : Dev) (r : CmdRef) (bs : List Byte) :
    (hostWrite d r bs).chs = d.chs ∧ (hostWrite d r bs).power = d.power ∧ (hostWrite d r bs).rails = d.rails ∧ (hostWrite d r bs).guard = d.guard ∧
    (hostWrite d r bs).tb = d.tb ∧ (hostWrite d r bs).core = d.core ∧ (hostWrite d r bs).groupRel = d.groupRel ∧ (hostWrite d r bs).groupRamp = d.groupRamp ∧
    (hostWrite d r bs).rampLen = d.rampLen ∧ (hostWrite d r bs).relWait = d.relWait ∧ (hostWrite d r bs).stops = d.stops ∧ (hostWrite d r bs).halt = d.halt ∧
    (hostWrite d r bs).haltMask = d.haltMask ∧ (hostWrite d r bs).evi = d.evi ∧ (hostWrite d r bs).awl = d.awl ∧ (hostWrite d r bs).mix = d.mix ∧
    (hostWrite d r bs).ports = d.ports ∧ (hostWrite d r bs).qif = d.qif ∧ (hostWrite d r bs).shank = d.shank ∧ (hostWrite d r bs).cob = d.cob ∧
    (hostWrite d r bs).growth = d.growth ∧ (hostWrite d r bs).free = d.free := by
  unfold hostWrite
  (repeat' split) <;> simp

@[simp] theorem eviCount_frame (d : Dev) (e c : Nat) :
    (eviCount d e c).chs = d.chs ∧ (eviCount d e c).power = d.power ∧ (eviCount d e c).rails = d.rails ∧ (eviCount d e c).guard = d.guard ∧
    (eviCount d e c).tb = d.tb ∧ (eviCount d e c).core = d.core ∧ (eviCount d e c).groupRel = d.groupRel ∧ (eviCount d e c).groupRamp = d.groupRamp ∧
    (eviCount d e c).rampLen = d.rampLen ∧ (eviCount d e c).relWait = d.relWait ∧ (eviCount d e c).stops = d.stops ∧ (eviCount d e c).halt = d.halt ∧
    (eviCount d e c).haltMask = d.haltMask ∧ (eviCount d e c).awl = d.awl ∧ (eviCount d e c).mix = d.mix ∧ (eviCount d e c).ports = d.ports ∧
    (eviCount d e c).qif = d.qif ∧ (eviCount d e c).admin = d.admin ∧ (eviCount d e c).shank = d.shank ∧ (eviCount d e c).cob = d.cob ∧
    (eviCount d e c).growth = d.growth ∧ (eviCount d e c).free = d.free := by
  unfold eviCount
  (repeat' split) <;> simp

/-! ### Events and messages -/

/-- An enabled event that isn't masked sends its vector's message; a masked one leaves its pending bit (R425, R426). -/
theorem signal_spec (d : Dev) (v : Nat) :
    ((d.qif.msix.funcMasked = false ∧ v ∈ d.qif.msix.unmasked) →
      (signal d v).qif = { d.qif with msix := { d.qif.msix with sent := v :: d.qif.msix.sent } }) ∧
    ((d.qif.msix.funcMasked = true ∨ v ∉ d.qif.msix.unmasked) →
      (signal d v).qif.msix.sent = d.qif.msix.sent ∧ v ∈ (signal d v).qif.msix.pendBits) := by
  constructor
  · rintro ⟨h1, h2⟩; simp [signal, h1, h2]
  · intro h
    have h' : (d.qif.msix.funcMasked || !d.qif.msix.unmasked.contains v) = true := by
      rcases h with h | h <;> simp [h]
    simp only [signal, h', if_true]
    split <;> simp_all

@[simp] theorem signal_en (d : Dev) (v : Nat) : (signal d v).qif.en = d.qif.en ∧ (signal d v).qif.session = d.qif.session ∧
    (signal d v).qif.queues = d.qif.queues ∧ (signal d v).qif.flights = d.qif.flights ∧ (signal d v).qif.outbox = d.qif.outbox ∧
    (signal d v).qif.evEn = d.qif.evEn ∧ (signal d v).qif.evSel = d.qif.evSel ∧ (signal d v).qif.evVector = d.qif.evVector ∧
    (signal d v).qif.gone = d.qif.gone ∧ (signal d v).qif.waiters = d.qif.waiters ∧ (signal d v).qif.paused = d.qif.paused := by
  simp [signal]

@[simp] theorem raiseEvt_en (d : Dev) (v : Nat) : (raiseEvt d v).qif.en = d.qif.en ∧ (raiseEvt d v).qif.session = d.qif.session ∧
    (raiseEvt d v).qif.queues = d.qif.queues ∧ (raiseEvt d v).qif.flights = d.qif.flights ∧
    (raiseEvt d v).qif.outbox = d.qif.outbox ∧ (raiseEvt d v).qif.gone = d.qif.gone ∧
    (raiseEvt d v).qif.waiters = d.qif.waiters ∧ (raiseEvt d v).qif.paused = d.qif.paused := by
  unfold raiseEvt; split <;> simp

/-- `setGrd` writes the event bit and SMBALERT# of the guard only. -/
theorem setGrd_guard (d : Dev) (i : Nat) : (setGrd d i).guard =
    if d.guard.event.getLsbD i then d.guard
    else { d.guard with event := d.guard.event ||| (1#16 <<< i), smbAlert := true } := by
  unfold setGrd; split <;> simp_all

theorem setTb_tb (d : Dev) (i : Nat) : (setTb d i).tb =
    if d.tb.event.getLsbD i then d.tb else { d.tb with event := d.tb.event ||| (1#5 <<< i) } := by
  unfold setTb; split <;> simp_all

theorem setThm_shank (d : Dev) (i : Nat) : (setThm d i).shank =
    if d.shank.event.getLsbD i then d.shank else { d.shank with event := d.shank.event ||| (1#7 <<< i) } := by
  unfold setThm; split <;> simp_all

/-- The event bit stands after `setGrd`, whatever stood before. -/
theorem setGrd_bit (d : Dev) (i : Nat) (h : i < 16) : (setGrd d i).guard.event.getLsbD i = true := by
  rw [setGrd_guard]; split
  · assumption
  · simp [h]

theorem setTb_bit (d : Dev) (i : Nat) (h : i < 5) : (setTb d i).tb.event.getLsbD i = true := by
  rw [setTb_tb]; split
  · assumption
  · simp [h]

theorem setThm_bit (d : Dev) (i : Nat) (h : i < 7) : (setThm d i).shank.event.getLsbD i = true := by
  rw [setThm_shank]; split
  · assumption
  · simp [h]

/-! ### The history -/

@[simp] theorem copyHist_history (d : Dev) : (copyHist d).guard.history = d.guard.history := by
  unfold copyHist; split <;> rfl

theorem copyHist_guard (d : Dev) : (copyHist d).guard = { d.guard with uncopied := (copyHist d).guard.uncopied } := by
  unfold copyHist; split <;> rfl

/-- The newest history record after `hist` names the channel, the cause and the detail given (R191). -/
theorem hist_head (d : Dev) (ch cause detail : Nat) (l : Bool) :
    ∃ r ∈ (hist d ch cause detail l).guard.history.head?, r.ch = ch ∧ r.cause = cause ∧ r.detail = detail := by
  simp only [hist]
  simp

/-- `hist` and the stewards' copy write the guard's records and their counts only. -/
theorem hist_guard (d : Dev) (ch cause detail : Nat) (l : Bool) : (hist d ch cause detail l).guard =
    { d.guard with history := (hist d ch cause detail l).guard.history
                   uncopied := (hist d ch cause detail l).guard.uncopied } := by
  simp only [hist]
  rw [copyHist_guard]


/-! ### Completions -/

/-- A command whose host is there completes: its flight ends and its completion joins the outbox, none of which is lost (R396, R402, R422). -/
theorem complete_outbox (d : Dev) (r : CmdRef) (op st r0 r1 : Nat) (h : hostLive d r = true) :
    (completionOf d r op st r0 r1) ∈ (complete d r op st r0 r1).qif.outbox ∧
      (∀ x ∈ d.qif.outbox, x ∈ (complete d r op st r0 r1).qif.outbox) := by
  have ins : ∀ (x : Completion) (l : List Completion), ∀ y, y ∈ insertDone x l ↔ y = x ∨ y ∈ l := by
    intro x l
    induction l with
    | nil => intro y; simp [insertDone]
    | cons a t ih =>
      intro y
      unfold insertDone
      split
      · simp only [List.mem_cons, ih]; exact or_left_comm
      · simp
  unfold complete completeWith
  rw [if_neg (by simp [h])]
  dsimp only
  split <;> refine ⟨?_, fun x hx => ?_⟩ <;> simp_all [ins]

end Sys2Proof.Machine
end

