-- ==== Sys2Proof/Laws/Prot.lean ====
section
/-!
SUPPORT. What release, stop, latch and the short check do (chapters 5 and 6).
-/

set_option Elab.async false
set_option linter.all false

namespace Sys2Proof.Machine

/-! ### What each operation leaves -/

@[simp] theorem trackUnbound_frame (d : Dev) :
    (trackUnbound d).chs = d.chs ∧ (trackUnbound d).power = d.power ∧ (trackUnbound d).rails = d.rails ∧ (trackUnbound d).guard = d.guard ∧
    (trackUnbound d).tb = d.tb ∧ (trackUnbound d).core = d.core ∧ (trackUnbound d).groupRel = d.groupRel ∧ (trackUnbound d).groupRamp = d.groupRamp ∧
    (trackUnbound d).rampLen = d.rampLen ∧ (trackUnbound d).relWait = d.relWait ∧ (trackUnbound d).stops = d.stops ∧ (trackUnbound d).halt = d.halt ∧
    (trackUnbound d).haltMask = d.haltMask ∧ (trackUnbound d).evi = d.evi ∧ (trackUnbound d).awl = d.awl ∧ (trackUnbound d).mix = d.mix ∧
    (trackUnbound d).ports = d.ports ∧ (trackUnbound d).qif = d.qif ∧ (trackUnbound d).shank = d.shank ∧ (trackUnbound d).cob = d.cob ∧
    (trackUnbound d).growth = d.growth ∧ (trackUnbound d).free = d.free := by
  unfold trackUnbound
  (repeat' split) <;> simp

@[simp] theorem freeUnits_frame (d : Dev) (c : Ch) (m : Meas) :
    (freeUnits d c m).chs = d.chs ∧ (freeUnits d c m).power = d.power ∧ (freeUnits d c m).rails = d.rails ∧ (freeUnits d c m).guard = d.guard ∧
    (freeUnits d c m).tb = d.tb ∧ (freeUnits d c m).core = d.core ∧ (freeUnits d c m).groupRel = d.groupRel ∧ (freeUnits d c m).groupRamp = d.groupRamp ∧
    (freeUnits d c m).rampLen = d.rampLen ∧ (freeUnits d c m).relWait = d.relWait ∧ (freeUnits d c m).stops = d.stops ∧ (freeUnits d c m).halt = d.halt ∧
    (freeUnits d c m).haltMask = d.haltMask ∧ (freeUnits d c m).evi = d.evi ∧ (freeUnits d c m).mix = d.mix ∧ (freeUnits d c m).ports = d.ports ∧
    (freeUnits d c m).qif = d.qif ∧ (freeUnits d c m).admin = d.admin ∧ (freeUnits d c m).shank = d.shank ∧ (freeUnits d c m).cob = d.cob ∧
    (freeUnits d c m).growth = d.growth ∧ (freeUnits d c m).free = d.free := by
  unfold freeUnits
  (repeat' split) <;> simp

@[simp] theorem measComplete_frame (d : Dev) (c : Ch) (m : Meas) (st : Nat) :
    (measComplete d c m st).power = d.power ∧ (measComplete d c m st).rails = d.rails ∧ (measComplete d c m st).guard = d.guard ∧ (measComplete d c m st).tb = d.tb ∧
    (measComplete d c m st).core = d.core ∧ (measComplete d c m st).groupRel = d.groupRel ∧ (measComplete d c m st).groupRamp = d.groupRamp ∧ (measComplete d c m st).rampLen = d.rampLen ∧
    (measComplete d c m st).relWait = d.relWait ∧ (measComplete d c m st).stops = d.stops ∧ (measComplete d c m st).halt = d.halt ∧ (measComplete d c m st).haltMask = d.haltMask ∧
    (measComplete d c m st).evi = d.evi ∧ (measComplete d c m st).mix = d.mix ∧ (measComplete d c m st).ports = d.ports ∧ (measComplete d c m st).shank = d.shank ∧
    (measComplete d c m st).cob = d.cob ∧ (measComplete d c m st).growth = d.growth ∧ (measComplete d c m st).free = d.free := by
  unfold measComplete
  (repeat' split) <;> simp

@[simp] theorem measStop_frame (d : Dev) (c : Ch) (st : Nat) :
    (measStop d c st).power = d.power ∧ (measStop d c st).rails = d.rails ∧ (measStop d c st).guard = d.guard ∧ (measStop d c st).tb = d.tb ∧
    (measStop d c st).core = d.core ∧ (measStop d c st).groupRel = d.groupRel ∧ (measStop d c st).groupRamp = d.groupRamp ∧ (measStop d c st).rampLen = d.rampLen ∧
    (measStop d c st).relWait = d.relWait ∧ (measStop d c st).stops = d.stops ∧ (measStop d c st).halt = d.halt ∧ (measStop d c st).haltMask = d.haltMask ∧
    (measStop d c st).evi = d.evi ∧ (measStop d c st).mix = d.mix ∧ (measStop d c st).ports = d.ports ∧ (measStop d c st).shank = d.shank ∧
    (measStop d c st).cob = d.cob ∧ (measStop d c st).growth = d.growth ∧ (measStop d c st).free = d.free := by
  unfold measStop
  dsimp only
  (repeat' split) <;> simp

@[simp] theorem measOutside_frame (d : Dev) (c : Ch) :
    (measOutside d c).power = d.power ∧ (measOutside d c).rails = d.rails ∧ (measOutside d c).guard = d.guard ∧ (measOutside d c).tb = d.tb ∧
    (measOutside d c).core = d.core ∧ (measOutside d c).groupRel = d.groupRel ∧ (measOutside d c).groupRamp = d.groupRamp ∧ (measOutside d c).rampLen = d.rampLen ∧
    (measOutside d c).relWait = d.relWait ∧ (measOutside d c).stops = d.stops ∧ (measOutside d c).halt = d.halt ∧ (measOutside d c).haltMask = d.haltMask ∧
    (measOutside d c).evi = d.evi ∧ (measOutside d c).mix = d.mix ∧ (measOutside d c).ports = d.ports ∧ (measOutside d c).shank = d.shank ∧
    (measOutside d c).cob = d.cob ∧ (measOutside d c).growth = d.growth ∧ (measOutside d c).free = d.free := by
  unfold measOutside
  dsimp only
  (repeat' split) <;> simp

@[simp] theorem leaveDrive_frame (d : Dev) (c : Ch) :
    (leaveDrive d c).power = d.power ∧ (leaveDrive d c).rails = d.rails ∧ (leaveDrive d c).guard = d.guard ∧ (leaveDrive d c).tb = d.tb ∧
    (leaveDrive d c).groupRel = d.groupRel ∧ (leaveDrive d c).groupRamp = d.groupRamp ∧ (leaveDrive d c).rampLen = d.rampLen ∧
    (leaveDrive d c).relWait = d.relWait ∧ (leaveDrive d c).stops = d.stops ∧ (leaveDrive d c).halt = d.halt ∧ (leaveDrive d c).haltMask = d.haltMask ∧
    (leaveDrive d c).evi = d.evi ∧ (leaveDrive d c).mix = d.mix ∧ (leaveDrive d c).ports = d.ports ∧ (leaveDrive d c).shank = d.shank ∧
    (leaveDrive d c).cob = d.cob ∧ (leaveDrive d c).growth = d.growth ∧ (leaveDrive d c).free = d.free ∧
    (leaveDrive d c).qif = d.qif ∧ (leaveDrive d c).admin = d.admin ∧ (leaveDrive d c).awl = d.awl := by
  unfold leaveDrive
  (repeat' split) <;> simp

@[simp] theorem measRelease_frame (d : Dev) (c : Ch) :
    (measRelease d c).power = d.power ∧ (measRelease d c).rails = d.rails ∧ (measRelease d c).guard = d.guard ∧ (measRelease d c).tb = d.tb ∧
    (measRelease d c).groupRel = d.groupRel ∧ (measRelease d c).groupRamp = d.groupRamp ∧ (measRelease d c).rampLen = d.rampLen ∧
    (measRelease d c).relWait = d.relWait ∧ (measRelease d c).stops = d.stops ∧ (measRelease d c).halt = d.halt ∧ (measRelease d c).haltMask = d.haltMask ∧
    (measRelease d c).evi = d.evi ∧ (measRelease d c).mix = d.mix ∧ (measRelease d c).ports = d.ports ∧ (measRelease d c).shank = d.shank ∧
    (measRelease d c).cob = d.cob ∧ (measRelease d c).growth = d.growth ∧ (measRelease d c).free = d.free := by
  unfold measRelease
  dsimp only
  (repeat' split) <;> simp

@[simp] theorem measAbort_frame (d : Dev) (c : Ch) (st : Nat) :
    (measAbort d c st).power = d.power ∧ (measAbort d c st).rails = d.rails ∧ (measAbort d c st).guard = d.guard ∧ (measAbort d c st).tb = d.tb ∧
    (measAbort d c st).core = d.core ∧ (measAbort d c st).groupRel = d.groupRel ∧ (measAbort d c st).groupRamp = d.groupRamp ∧ (measAbort d c st).rampLen = d.rampLen ∧
    (measAbort d c st).relWait = d.relWait ∧ (measAbort d c st).stops = d.stops ∧ (measAbort d c st).halt = d.halt ∧ (measAbort d c st).haltMask = d.haltMask ∧
    (measAbort d c st).evi = d.evi ∧ (measAbort d c st).mix = d.mix ∧ (measAbort d c st).ports = d.ports ∧ (measAbort d c st).shank = d.shank ∧
    (measAbort d c st).cob = d.cob ∧ (measAbort d c st).growth = d.growth ∧ (measAbort d c st).free = d.free := by
  unfold measAbort
  dsimp only
  (repeat' split) <;> simp

@[simp] theorem loadStages_frame (d : Dev) (c : Ch) :
    (loadStages d c).chs = d.chs ∧ (loadStages d c).power = d.power ∧ (loadStages d c).rails = d.rails ∧ (loadStages d c).guard = d.guard ∧
    (loadStages d c).tb = d.tb ∧ (loadStages d c).groupRel = d.groupRel ∧ (loadStages d c).groupRamp = d.groupRamp ∧ (loadStages d c).rampLen = d.rampLen ∧
    (loadStages d c).relWait = d.relWait ∧ (loadStages d c).stops = d.stops ∧ (loadStages d c).halt = d.halt ∧ (loadStages d c).haltMask = d.haltMask ∧
    (loadStages d c).evi = d.evi ∧ (loadStages d c).awl = d.awl ∧ (loadStages d c).mix = d.mix ∧ (loadStages d c).ports = d.ports ∧
    (loadStages d c).qif = d.qif ∧ (loadStages d c).admin = d.admin ∧ (loadStages d c).shank = d.shank ∧ (loadStages d c).cob = d.cob ∧
    (loadStages d c).growth = d.growth ∧ (loadStages d c).free = d.free := by
  unfold loadStages
  dsimp only
  (repeat' split) <;> simp

@[simp] theorem restartModel_frame (d : Dev) (c : Ch) :
    (restartModel d c).chs = d.chs ∧ (restartModel d c).power = d.power ∧ (restartModel d c).rails = d.rails ∧ (restartModel d c).guard = d.guard ∧
    (restartModel d c).tb = d.tb ∧ (restartModel d c).groupRel = d.groupRel ∧ (restartModel d c).groupRamp = d.groupRamp ∧ (restartModel d c).rampLen = d.rampLen ∧
    (restartModel d c).relWait = d.relWait ∧ (restartModel d c).stops = d.stops ∧ (restartModel d c).halt = d.halt ∧ (restartModel d c).haltMask = d.haltMask ∧
    (restartModel d c).evi = d.evi ∧ (restartModel d c).awl = d.awl ∧ (restartModel d c).mix = d.mix ∧ (restartModel d c).ports = d.ports ∧
    (restartModel d c).qif = d.qif ∧ (restartModel d c).admin = d.admin ∧ (restartModel d c).shank = d.shank ∧ (restartModel d c).cob = d.cob ∧
    (restartModel d c).growth = d.growth ∧ (restartModel d c).free = d.free := by
  unfold restartModel
  dsimp only
  (repeat' split) <;> simp

@[simp] theorem bindRecord_frame (d : Dev) (c : Ch) :
    (bindRecord d c).power = d.power ∧ (bindRecord d c).rails = d.rails ∧ (bindRecord d c).guard = d.guard ∧ (bindRecord d c).tb = d.tb ∧
    (bindRecord d c).groupRel = d.groupRel ∧ (bindRecord d c).groupRamp = d.groupRamp ∧ (bindRecord d c).rampLen = d.rampLen ∧ (bindRecord d c).relWait = d.relWait ∧
    (bindRecord d c).stops = d.stops ∧ (bindRecord d c).halt = d.halt ∧ (bindRecord d c).haltMask = d.haltMask ∧ (bindRecord d c).evi = d.evi ∧
    (bindRecord d c).awl = d.awl ∧ (bindRecord d c).mix = d.mix ∧ (bindRecord d c).ports = d.ports ∧ (bindRecord d c).qif = d.qif ∧
    (bindRecord d c).shank = d.shank ∧ (bindRecord d c).cob = d.cob ∧ (bindRecord d c).growth = d.growth ∧ (bindRecord d c).free = d.free := by
  unfold bindRecord
  dsimp only
  (repeat' split) <;> simp

@[simp] theorem settleStops_frame (d : Dev) :
    (settleStops d).chs = d.chs ∧ (settleStops d).power = d.power ∧ (settleStops d).rails = d.rails ∧ (settleStops d).guard = d.guard ∧
    (settleStops d).tb = d.tb ∧ (settleStops d).core = d.core ∧ (settleStops d).groupRel = d.groupRel ∧ (settleStops d).groupRamp = d.groupRamp ∧
    (settleStops d).rampLen = d.rampLen ∧ (settleStops d).relWait = d.relWait ∧ (settleStops d).halt = d.halt ∧ (settleStops d).haltMask = d.haltMask ∧
    (settleStops d).evi = d.evi ∧ (settleStops d).awl = d.awl ∧ (settleStops d).mix = d.mix ∧ (settleStops d).ports = d.ports ∧
    (settleStops d).shank = d.shank ∧ (settleStops d).cob = d.cob ∧ (settleStops d).growth = d.growth ∧ (settleStops d).free = d.free := by
  unfold settleStops
  dsimp only
  (repeat' split) <;> simp

@[simp] theorem triggerStop_frame (d : Dev) (c : Ch) :
    (triggerStop d c).power = d.power ∧ (triggerStop d c).rails = d.rails ∧ (triggerStop d c).guard = d.guard ∧ (triggerStop d c).tb = d.tb ∧
    (triggerStop d c).core = d.core ∧ (triggerStop d c).groupRel = d.groupRel ∧ (triggerStop d c).groupRamp = d.groupRamp ∧ (triggerStop d c).rampLen = d.rampLen ∧
    (triggerStop d c).relWait = d.relWait ∧ (triggerStop d c).stops = d.stops ∧ (triggerStop d c).halt = d.halt ∧ (triggerStop d c).haltMask = d.haltMask ∧
    (triggerStop d c).evi = d.evi ∧ (triggerStop d c).awl = d.awl ∧ (triggerStop d c).mix = d.mix ∧ (triggerStop d c).ports = d.ports ∧
    (triggerStop d c).qif = d.qif ∧ (triggerStop d c).admin = d.admin ∧ (triggerStop d c).shank = d.shank ∧ (triggerStop d c).cob = d.cob ∧
    (triggerStop d c).growth = d.growth ∧ (triggerStop d c).free = d.free := by
  unfold triggerStop
  (repeat' split) <;> simp

@[simp] theorem checkFinish_frame (d : Dev) (c : Ch) (cause st : Nat) :
    (checkFinish d c cause st).power = d.power ∧ (checkFinish d c cause st).rails = d.rails ∧ (checkFinish d c cause st).tb = d.tb ∧ (checkFinish d c cause st).core = d.core ∧
    (checkFinish d c cause st).groupRel = d.groupRel ∧ (checkFinish d c cause st).groupRamp = d.groupRamp ∧ (checkFinish d c cause st).rampLen = d.rampLen ∧ (checkFinish d c cause st).relWait = d.relWait ∧
    (checkFinish d c cause st).stops = d.stops ∧ (checkFinish d c cause st).halt = d.halt ∧ (checkFinish d c cause st).haltMask = d.haltMask ∧ (checkFinish d c cause st).evi = d.evi ∧
    (checkFinish d c cause st).awl = d.awl ∧ (checkFinish d c cause st).mix = d.mix ∧ (checkFinish d c cause st).ports = d.ports ∧ (checkFinish d c cause st).shank = d.shank ∧
    (checkFinish d c cause st).cob = d.cob ∧ (checkFinish d c cause st).growth = d.growth := by
  unfold checkFinish
  dsimp only
  (repeat' split) <;> simp

@[simp] theorem checkAbandon_frame (d : Dev) (c : Ch) :
    (checkAbandon d c).power = d.power ∧ (checkAbandon d c).rails = d.rails ∧ (checkAbandon d c).tb = d.tb ∧ (checkAbandon d c).core = d.core ∧
    (checkAbandon d c).groupRel = d.groupRel ∧ (checkAbandon d c).groupRamp = d.groupRamp ∧ (checkAbandon d c).rampLen = d.rampLen ∧ (checkAbandon d c).relWait = d.relWait ∧
    (checkAbandon d c).stops = d.stops ∧ (checkAbandon d c).halt = d.halt ∧ (checkAbandon d c).haltMask = d.haltMask ∧ (checkAbandon d c).evi = d.evi ∧
    (checkAbandon d c).awl = d.awl ∧ (checkAbandon d c).mix = d.mix ∧ (checkAbandon d c).ports = d.ports ∧ (checkAbandon d c).shank = d.shank ∧
    (checkAbandon d c).cob = d.cob ∧ (checkAbandon d c).growth = d.growth := by
  unfold checkAbandon
  (repeat' split) <;> simp

@[simp] theorem dropWork_frame (d : Dev) (c : Ch) :
    (dropWork d c).power = d.power ∧ (dropWork d c).rails = d.rails ∧ (dropWork d c).tb = d.tb ∧ (dropWork d c).core = d.core ∧
    (dropWork d c).groupRel = d.groupRel ∧ (dropWork d c).groupRamp = d.groupRamp ∧ (dropWork d c).rampLen = d.rampLen ∧ (dropWork d c).relWait = d.relWait ∧
    (dropWork d c).stops = d.stops ∧ (dropWork d c).halt = d.halt ∧ (dropWork d c).haltMask = d.haltMask ∧ (dropWork d c).evi = d.evi ∧
    (dropWork d c).mix = d.mix ∧ (dropWork d c).ports = d.ports ∧ (dropWork d c).shank = d.shank ∧ (dropWork d c).cob = d.cob ∧
    (dropWork d c).growth = d.growth := by
  unfold dropWork
  (repeat' split) <;> simp

@[simp] theorem guardOff_frame (d : Dev) (c : Ch) :
    (guardOff d c).power = d.power ∧ (guardOff d c).rails = d.rails ∧ (guardOff d c).guard = d.guard ∧ (guardOff d c).tb = d.tb ∧
    (guardOff d c).core = d.core ∧ (guardOff d c).groupRel = d.groupRel ∧ (guardOff d c).groupRamp = d.groupRamp ∧ (guardOff d c).rampLen = d.rampLen ∧
    (guardOff d c).relWait = d.relWait ∧ (guardOff d c).stops = d.stops ∧ (guardOff d c).halt = d.halt ∧ (guardOff d c).haltMask = d.haltMask ∧
    (guardOff d c).evi = d.evi ∧ (guardOff d c).awl = d.awl ∧ (guardOff d c).mix = d.mix ∧ (guardOff d c).ports = d.ports ∧
    (guardOff d c).qif = d.qif ∧ (guardOff d c).admin = d.admin ∧ (guardOff d c).shank = d.shank ∧ (guardOff d c).cob = d.cob ∧
    (guardOff d c).growth = d.growth ∧ (guardOff d c).free = d.free := by
  unfold guardOff
  (repeat' split) <;> simp

@[simp] theorem releaseAll_frame (d : Dev) (cause : Nat) :
    (releaseAll d cause).power = d.power ∧ (releaseAll d cause).rails = d.rails ∧ (releaseAll d cause).tb = d.tb ∧ (releaseAll d cause).core = d.core ∧
    (releaseAll d cause).groupRel = d.groupRel ∧ (releaseAll d cause).groupRamp = d.groupRamp ∧ (releaseAll d cause).rampLen = d.rampLen ∧ (releaseAll d cause).relWait = d.relWait ∧
    (releaseAll d cause).halt = d.halt ∧ (releaseAll d cause).haltMask = d.haltMask ∧ (releaseAll d cause).evi = d.evi ∧ (releaseAll d cause).mix = d.mix ∧
    (releaseAll d cause).ports = d.ports ∧ (releaseAll d cause).shank = d.shank ∧ (releaseAll d cause).cob = d.cob ∧ (releaseAll d cause).growth = d.growth := by
  unfold releaseAll
  (repeat' split) <;> simp

@[simp] theorem latch_frame (d : Dev) (c : Ch) (cause detail evt : Nat) :
    (latch d c cause detail evt).power = d.power ∧ (latch d c cause detail evt).rails = d.rails ∧ (latch d c cause detail evt).tb = d.tb ∧ (latch d c cause detail evt).core = d.core ∧
    (latch d c cause detail evt).groupRel = d.groupRel ∧ (latch d c cause detail evt).groupRamp = d.groupRamp ∧ (latch d c cause detail evt).rampLen = d.rampLen ∧ (latch d c cause detail evt).relWait = d.relWait ∧
    (latch d c cause detail evt).halt = d.halt ∧ (latch d c cause detail evt).haltMask = d.haltMask ∧ (latch d c cause detail evt).evi = d.evi ∧ (latch d c cause detail evt).mix = d.mix ∧
    (latch d c cause detail evt).ports = d.ports ∧ (latch d c cause detail evt).shank = d.shank ∧ (latch d c cause detail evt).cob = d.cob ∧ (latch d c cause detail evt).growth = d.growth := by
  unfold latch
  (repeat' split) <;> simp

@[simp] theorem guardLatch_frame (d : Dev) (c : Ch) (cause evt : Nat) :
    (guardLatch d c cause evt).power = d.power ∧ (guardLatch d c cause evt).rails = d.rails ∧ (guardLatch d c cause evt).tb = d.tb ∧ (guardLatch d c cause evt).core = d.core ∧
    (guardLatch d c cause evt).groupRel = d.groupRel ∧ (guardLatch d c cause evt).groupRamp = d.groupRamp ∧ (guardLatch d c cause evt).rampLen = d.rampLen ∧ (guardLatch d c cause evt).relWait = d.relWait ∧
    (guardLatch d c cause evt).halt = d.halt ∧ (guardLatch d c cause evt).haltMask = d.haltMask ∧ (guardLatch d c cause evt).evi = d.evi ∧ (guardLatch d c cause evt).mix = d.mix ∧
    (guardLatch d c cause evt).ports = d.ports ∧ (guardLatch d c cause evt).shank = d.shank ∧ (guardLatch d c cause evt).cob = d.cob ∧ (guardLatch d c cause evt).growth = d.growth := by
  unfold guardLatch
  (repeat' split) <;> simp

@[simp] theorem stopFrom_frame (d : Dev) (cs : List Ch) :
    (stopFrom d cs).power = d.power ∧ (stopFrom d cs).rails = d.rails ∧ (stopFrom d cs).tb = d.tb ∧ (stopFrom d cs).core = d.core ∧
    (stopFrom d cs).groupRel = d.groupRel ∧ (stopFrom d cs).groupRamp = d.groupRamp ∧ (stopFrom d cs).rampLen = d.rampLen ∧ (stopFrom d cs).relWait = d.relWait ∧
    (stopFrom d cs).halt = d.halt ∧ (stopFrom d cs).haltMask = d.haltMask ∧ (stopFrom d cs).evi = d.evi ∧ (stopFrom d cs).mix = d.mix ∧
    (stopFrom d cs).ports = d.ports ∧ (stopFrom d cs).shank = d.shank ∧ (stopFrom d cs).cob = d.cob ∧ (stopFrom d cs).growth = d.growth := by
  unfold stopFrom
  (repeat' split) <;> simp

@[simp] theorem hsgOff_frame (d : Dev) :
    (hsgOff d).chs = d.chs ∧ (hsgOff d).power = d.power ∧ (hsgOff d).guard = d.guard ∧ (hsgOff d).tb = d.tb ∧
    (hsgOff d).core = d.core ∧ (hsgOff d).groupRel = d.groupRel ∧ (hsgOff d).groupRamp = d.groupRamp ∧ (hsgOff d).rampLen = d.rampLen ∧
    (hsgOff d).relWait = d.relWait ∧ (hsgOff d).stops = d.stops ∧ (hsgOff d).halt = d.halt ∧ (hsgOff d).haltMask = d.haltMask ∧
    (hsgOff d).evi = d.evi ∧ (hsgOff d).awl = d.awl ∧ (hsgOff d).mix = d.mix ∧ (hsgOff d).ports = d.ports ∧
    (hsgOff d).qif = d.qif ∧ (hsgOff d).admin = d.admin ∧ (hsgOff d).shank = d.shank ∧ (hsgOff d).cob = d.cob ∧
    (hsgOff d).growth = d.growth ∧ (hsgOff d).free = d.free := by
  unfold hsgOff
  (repeat' split) <;> simp

@[simp] theorem releaseChan_frame (d : Dev) (c : Ch) :
    (releaseChan d c).power = d.power ∧ (releaseChan d c).rails = d.rails ∧ (releaseChan d c).guard = d.guard ∧ (releaseChan d c).tb = d.tb ∧
    (releaseChan d c).groupRel = d.groupRel ∧ (releaseChan d c).groupRamp = d.groupRamp ∧ (releaseChan d c).rampLen = d.rampLen ∧ (releaseChan d c).relWait = d.relWait ∧
    (releaseChan d c).stops = d.stops ∧ (releaseChan d c).halt = d.halt ∧ (releaseChan d c).haltMask = d.haltMask ∧ (releaseChan d c).evi = d.evi ∧
    (releaseChan d c).mix = d.mix ∧ (releaseChan d c).ports = d.ports ∧ (releaseChan d c).shank = d.shank ∧ (releaseChan d c).cob = d.cob ∧
    (releaseChan d c).growth = d.growth ∧ (releaseChan d c).free = d.free := by
  unfold releaseChan
  dsimp only
  (repeat' split) <;> simp

@[simp] theorem rampAgain_frame (d : Dev) (c : Ch) :
    (rampAgain d c).chs = d.chs ∧ (rampAgain d c).power = d.power ∧ (rampAgain d c).rails = d.rails ∧ (rampAgain d c).guard = d.guard ∧
    (rampAgain d c).tb = d.tb ∧ (rampAgain d c).core = d.core ∧ (rampAgain d c).groupRel = d.groupRel ∧ (rampAgain d c).rampLen = d.rampLen ∧
    (rampAgain d c).relWait = d.relWait ∧ (rampAgain d c).stops = d.stops ∧ (rampAgain d c).halt = d.halt ∧ (rampAgain d c).haltMask = d.haltMask ∧
    (rampAgain d c).evi = d.evi ∧ (rampAgain d c).awl = d.awl ∧ (rampAgain d c).mix = d.mix ∧ (rampAgain d c).ports = d.ports ∧
    (rampAgain d c).qif = d.qif ∧ (rampAgain d c).admin = d.admin ∧ (rampAgain d c).shank = d.shank ∧ (rampAgain d c).cob = d.cob ∧
    (rampAgain d c).growth = d.growth ∧ (rampAgain d c).free = d.free := by
  unfold rampAgain
  (repeat' split) <;> simp

@[simp] theorem doStop_frame (d : Dev) (r : CmdRef) (cs : List Ch) :
    (doStop d r cs).power = d.power ∧ (doStop d r cs).rails = d.rails ∧ (doStop d r cs).guard = d.guard ∧ (doStop d r cs).tb = d.tb ∧
    (doStop d r cs).core = d.core ∧ (doStop d r cs).groupRel = d.groupRel ∧ (doStop d r cs).groupRamp = d.groupRamp ∧ (doStop d r cs).rampLen = d.rampLen ∧
    (doStop d r cs).relWait = d.relWait ∧ (doStop d r cs).halt = d.halt ∧ (doStop d r cs).haltMask = d.haltMask ∧ (doStop d r cs).evi = d.evi ∧
    (doStop d r cs).awl = d.awl ∧ (doStop d r cs).mix = d.mix ∧ (doStop d r cs).ports = d.ports ∧ (doStop d r cs).shank = d.shank ∧
    (doStop d r cs).cob = d.cob ∧ (doStop d r cs).growth = d.growth ∧ (doStop d r cs).free = d.free := by
  unfold doStop
  simp [ite_dev]

@[simp] theorem doStopGroup_frame (d : Dev) (r : CmdRef) (g : RGroup) :
    (doStopGroup d r g).power = d.power ∧ (doStopGroup d r g).rails = d.rails ∧ (doStopGroup d r g).guard = d.guard ∧ (doStopGroup d r g).tb = d.tb ∧
    (doStopGroup d r g).core = d.core ∧ (doStopGroup d r g).rampLen = d.rampLen ∧ (doStopGroup d r g).relWait = d.relWait ∧ (doStopGroup d r g).halt = d.halt ∧
    (doStopGroup d r g).haltMask = d.haltMask ∧ (doStopGroup d r g).evi = d.evi ∧ (doStopGroup d r g).awl = d.awl ∧ (doStopGroup d r g).mix = d.mix ∧
    (doStopGroup d r g).ports = d.ports ∧ (doStopGroup d r g).shank = d.shank ∧ (doStopGroup d r g).cob = d.cob ∧ (doStopGroup d r g).growth = d.growth := by
  unfold doStopGroup
  dsimp only
  (repeat' split) <;> simp

@[simp] theorem doStopChannel_frame (d : Dev) (r : CmdRef) (c : Ch) :
    (doStopChannel d r c).power = d.power ∧ (doStopChannel d r c).rails = d.rails ∧ (doStopChannel d r c).guard = d.guard ∧ (doStopChannel d r c).tb = d.tb ∧
    (doStopChannel d r c).core = d.core ∧ (doStopChannel d r c).groupRel = d.groupRel ∧ (doStopChannel d r c).groupRamp = d.groupRamp ∧ (doStopChannel d r c).rampLen = d.rampLen ∧
    (doStopChannel d r c).relWait = d.relWait ∧ (doStopChannel d r c).halt = d.halt ∧ (doStopChannel d r c).haltMask = d.haltMask ∧ (doStopChannel d r c).evi = d.evi ∧
    (doStopChannel d r c).awl = d.awl ∧ (doStopChannel d r c).mix = d.mix ∧ (doStopChannel d r c).ports = d.ports ∧ (doStopChannel d r c).shank = d.shank ∧
    (doStopChannel d r c).cob = d.cob ∧ (doStopChannel d r c).growth = d.growth := by
  unfold doStopChannel
  (repeat' split) <;> simp

@[simp] theorem doClear_frame (d : Dev) (r : Option CmdRef) (c : Ch) :
    (doClear d r c).power = d.power ∧ (doClear d r c).rails = d.rails ∧ (doClear d r c).tb = d.tb ∧ (doClear d r c).core = d.core ∧
    (doClear d r c).groupRel = d.groupRel ∧ (doClear d r c).groupRamp = d.groupRamp ∧ (doClear d r c).rampLen = d.rampLen ∧ (doClear d r c).relWait = d.relWait ∧
    (doClear d r c).stops = d.stops ∧ (doClear d r c).halt = d.halt ∧ (doClear d r c).haltMask = d.haltMask ∧ (doClear d r c).evi = d.evi ∧
    (doClear d r c).awl = d.awl ∧ (doClear d r c).mix = d.mix ∧ (doClear d r c).ports = d.ports ∧ (doClear d r c).shank = d.shank ∧
    (doClear d r c).cob = d.cob ∧ (doClear d r c).growth = d.growth := by
  unfold doClear
  dsimp only
  (repeat' split) <;> simp

@[simp] theorem checkStep_frame (d : Dev) (c : Ch) (f : Check → Check) :
    (checkStep d c f).power = d.power ∧ (checkStep d c f).rails = d.rails ∧ (checkStep d c f).guard = d.guard ∧ (checkStep d c f).tb = d.tb ∧
    (checkStep d c f).core = d.core ∧ (checkStep d c f).groupRel = d.groupRel ∧ (checkStep d c f).groupRamp = d.groupRamp ∧ (checkStep d c f).rampLen = d.rampLen ∧
    (checkStep d c f).relWait = d.relWait ∧ (checkStep d c f).stops = d.stops ∧ (checkStep d c f).halt = d.halt ∧ (checkStep d c f).haltMask = d.haltMask ∧
    (checkStep d c f).evi = d.evi ∧ (checkStep d c f).awl = d.awl ∧ (checkStep d c f).mix = d.mix ∧ (checkStep d c f).ports = d.ports ∧
    (checkStep d c f).qif = d.qif ∧ (checkStep d c f).admin = d.admin ∧ (checkStep d c f).shank = d.shank ∧ (checkStep d c f).cob = d.cob ∧
    (checkStep d c f).growth = d.growth ∧ (checkStep d c f).free = d.free := by
  unfold checkStep
  (repeat' split) <;> simp

@[simp] theorem checkObserved_frame (d : Dev) (c : Ch) :
    (checkObserved d c).power = d.power ∧ (checkObserved d c).rails = d.rails ∧ (checkObserved d c).tb = d.tb ∧ (checkObserved d c).core = d.core ∧
    (checkObserved d c).groupRel = d.groupRel ∧ (checkObserved d c).groupRamp = d.groupRamp ∧ (checkObserved d c).rampLen = d.rampLen ∧ (checkObserved d c).relWait = d.relWait ∧
    (checkObserved d c).stops = d.stops ∧ (checkObserved d c).halt = d.halt ∧ (checkObserved d c).haltMask = d.haltMask ∧ (checkObserved d c).evi = d.evi ∧
    (checkObserved d c).awl = d.awl ∧ (checkObserved d c).mix = d.mix ∧ (checkObserved d c).ports = d.ports ∧ (checkObserved d c).shank = d.shank ∧
    (checkObserved d c).cob = d.cob ∧ (checkObserved d c).growth = d.growth := by
  unfold checkObserved
  dsimp only
  (repeat' split) <;> simp

@[simp] theorem checkDriven_frame (d : Dev) (c : Ch) :
    (checkDriven d c).power = d.power ∧ (checkDriven d c).rails = d.rails ∧ (checkDriven d c).guard = d.guard ∧ (checkDriven d c).tb = d.tb ∧
    (checkDriven d c).core = d.core ∧ (checkDriven d c).groupRel = d.groupRel ∧ (checkDriven d c).groupRamp = d.groupRamp ∧ (checkDriven d c).rampLen = d.rampLen ∧
    (checkDriven d c).relWait = d.relWait ∧ (checkDriven d c).stops = d.stops ∧ (checkDriven d c).halt = d.halt ∧ (checkDriven d c).haltMask = d.haltMask ∧
    (checkDriven d c).evi = d.evi ∧ (checkDriven d c).awl = d.awl ∧ (checkDriven d c).mix = d.mix ∧ (checkDriven d c).ports = d.ports ∧
    (checkDriven d c).qif = d.qif ∧ (checkDriven d c).admin = d.admin ∧ (checkDriven d c).shank = d.shank ∧ (checkDriven d c).cob = d.cob ∧
    (checkDriven d c).growth = d.growth ∧ (checkDriven d c).free = d.free := by
  unfold checkDriven
  dsimp only
  (repeat' split) <;> simp

@[simp] theorem checkEnded_frame (d : Dev) (c : Ch) :
    (checkEnded d c).power = d.power ∧ (checkEnded d c).rails = d.rails ∧ (checkEnded d c).tb = d.tb ∧ (checkEnded d c).core = d.core ∧
    (checkEnded d c).groupRel = d.groupRel ∧ (checkEnded d c).groupRamp = d.groupRamp ∧ (checkEnded d c).rampLen = d.rampLen ∧ (checkEnded d c).relWait = d.relWait ∧
    (checkEnded d c).stops = d.stops ∧ (checkEnded d c).halt = d.halt ∧ (checkEnded d c).haltMask = d.haltMask ∧ (checkEnded d c).evi = d.evi ∧
    (checkEnded d c).awl = d.awl ∧ (checkEnded d c).mix = d.mix ∧ (checkEnded d c).ports = d.ports ∧ (checkEnded d c).shank = d.shank ∧
    (checkEnded d c).cob = d.cob ∧ (checkEnded d c).growth = d.growth := by
  unfold checkEnded
  dsimp only
  (repeat' split) <;> simp

@[simp] theorem class1_frame (d : Dev) (c : Ch) (low : Bool) (pos ma : Nat) :
    (class1 d c low pos ma).power = d.power ∧ (class1 d c low pos ma).rails = d.rails ∧ (class1 d c low pos ma).tb = d.tb ∧ (class1 d c low pos ma).core = d.core ∧
    (class1 d c low pos ma).groupRel = d.groupRel ∧ (class1 d c low pos ma).groupRamp = d.groupRamp ∧ (class1 d c low pos ma).rampLen = d.rampLen ∧ (class1 d c low pos ma).relWait = d.relWait ∧
    (class1 d c low pos ma).halt = d.halt ∧ (class1 d c low pos ma).haltMask = d.haltMask ∧ (class1 d c low pos ma).evi = d.evi ∧ (class1 d c low pos ma).mix = d.mix ∧
    (class1 d c low pos ma).ports = d.ports ∧ (class1 d c low pos ma).shank = d.shank ∧ (class1 d c low pos ma).cob = d.cob ∧ (class1 d c low pos ma).growth = d.growth := by
  unfold class1
  dsimp only
  (repeat' split) <;> simp

@[simp] theorem backstopRelease_frame (d : Dev) (cause : Nat) :
    (backstopRelease d cause).power = d.power ∧ (backstopRelease d cause).rails = d.rails ∧ (backstopRelease d cause).tb = d.tb ∧ (backstopRelease d cause).core = d.core ∧
    (backstopRelease d cause).groupRel = d.groupRel ∧ (backstopRelease d cause).groupRamp = d.groupRamp ∧ (backstopRelease d cause).rampLen = d.rampLen ∧ (backstopRelease d cause).relWait = d.relWait ∧
    (backstopRelease d cause).halt = d.halt ∧ (backstopRelease d cause).haltMask = d.haltMask ∧ (backstopRelease d cause).evi = d.evi ∧ (backstopRelease d cause).mix = d.mix ∧
    (backstopRelease d cause).ports = d.ports ∧ (backstopRelease d cause).shank = d.shank ∧ (backstopRelease d cause).cob = d.cob ∧ (backstopRelease d cause).growth = d.growth := by
  unfold backstopRelease
  simp [ite_dev]

/-! ### The guard but for its history -/

/-- The guard without its history: what a record leaves of it. -/
def Guard.sansHist (g : Guard) : Guard := { g with history := [], uncopied := 0 }

theorem sansHist_eq (g h : Guard) (e : g.sansHist = h.sansHist) : g = { h with history := g.history, uncopied := g.uncopied } := by
  cases g; cases h; simp_all [Guard.sansHist]

@[simp] theorem hist_sans (d : Dev) (ch cause detail : Nat) (l : Bool) :
    (hist d ch cause detail l).guard.sansHist = d.guard.sansHist := by
  rw [hist_guard]; rfl

@[simp] theorem checkFinish_sans (d : Dev) (c : Ch) (cause st : Nat) :
    (checkFinish d c cause st).guard.sansHist = d.guard.sansHist := by
  unfold checkFinish
  dsimp only
  split
  · rfl
  · simp

@[simp] theorem checkAbandon_sans (d : Dev) (c : Ch) : (checkAbandon d c).guard.sansHist = d.guard.sansHist := checkFinish_sans d c _ _

@[simp] theorem dropWork_sans (d : Dev) (c : Ch) : (dropWork d c).guard.sansHist = d.guard.sansHist := by
  simp [dropWork]

@[simp] theorem releaseAll_sans (d : Dev) (cause : Nat) : (releaseAll d cause).guard.sansHist = d.guard.sansHist := by
  simp only [releaseAll, settleStops_frame, hist_sans, chAll_frame]
  exact foldl_keeps (fun e => e.guard.sansHist) _ (fun e a => dropWork_sans e a) _ d

@[simp] theorem stopFrom_sans (d : Dev) (cs : List Ch) : (stopFrom d cs).guard.sansHist = d.guard.sansHist := by
  simp only [stopFrom, settleStops_frame]
  exact foldl_keeps (fun e => e.guard.sansHist) _ (fun e a => by simp) _ d

/-! ### Channels that are off -/

theorem chanOff_spec (x : Chan) : (chanOff x).mod.hs = false ∧ (chanOff x).mod.ls = false ∧ (chanOff x).mod.plan = [] ∧
    (chanOff x).prot.released = false ∧ (chanOff x).prot.drive = .off ∧ (chanOff x).prot.latched = x.prot.latched :=
  ⟨rfl, rfl, rfl, rfl, rfl, rfl⟩

/-- A guard release of every channel turns both switches of each off and unreleases it (R181). -/
theorem releaseAll_off (d : Dev) (cause : Nat) (c : Ch) : (releaseAll d cause).chs[c] = chanOff (forCh (ixs 128) dropWork d).chs[c] := by
  simp only [releaseAll, settleStops_frame, hist_frame, chAll_get]

/-! ### Channels that stop -/

/-- A released channel that waits for its safe stop or is in it. -/
def Chan.stopping (x : Chan) : Prop := x.prot.released = true → x.prot.drive = .safeStop ∨ x.prot.ssPend = true

theorem triggerChan_stopping (x : Chan) : (triggerChan x).stopping := by
  unfold triggerChan Chan.stopping
  dsimp only
  split <;> (try split) <;> (try split) <;> simp_all

theorem chanOff_stopping (x : Chan) : (chanOff x).stopping := by simp [Chan.stopping, chanOff]

/-- A change of one channel that keeps it stopping keeps every channel that was. -/
theorem ch_stopping (d : Dev) (k c : Ch) (f : Chan → Chan) (hf : ∀ x : Chan, x.stopping → (f x).stopping) (h : d.chs[c].stopping) :
    (d.ch k f).chs[c].stopping := by
  rw [ch_get]; split
  · exact hf _ h
  · exact h

theorem checkFinish_stopping (d : Dev) (k c : Ch) (cause st : Nat) (h : d.chs[c].stopping) :
    (checkFinish d k cause st).chs[c].stopping := by
  unfold checkFinish
  dsimp only
  split
  · exact h
  · simp only [foldl_chs, completeAt_frame, hist_frame, implies_true]
    refine forCh_holds (fun e => e.chs[c].stopping) _ (fun e a he => ?_) _ d h
    exact ch_stopping e a c _ (fun x _ => by simp [Chan.stopping, chanOff]) he

theorem measStop_stopping (d : Dev) (k c : Ch) (st : Nat) (h : d.chs[c].stopping) : (measStop d k st).chs[c].stopping := by
  unfold measStop
  dsimp only
  split
  · exact h
  · unfold measComplete
    refine ch_stopping _ _ c _ (fun x hx => hx) ?_
    simp only [freeUnits_frame, complete_frame, hostWrite_frame]
    refine forCh_holds (fun e => e.chs[c].stopping) _ (fun e a he => ?_) _ d h
    refine ch_stopping e a c _ (fun x hx => ?_) he
    split
    · exact chanOff_stopping x
    · exact hx

theorem measOutside_stopping (d : Dev) (k c : Ch) (h : d.chs[c].stopping) : (measOutside d k).chs[c].stopping := by
  unfold measOutside
  dsimp only
  split
  · exact h
  · unfold measComplete
    refine ch_stopping _ _ c _ (fun x hx => hx) ?_
    simp only [freeUnits_frame, complete_frame, hostWrite_frame]
    refine forCh_holds (fun e => e.chs[c].stopping) _ (fun e a he => ?_) _ d h
    refine ch_stopping e a c _ (fun x hx => ?_) he
    split
    · exact fun _ => .inr rfl
    · exact hx

theorem triggerStop_stopping (d : Dev) (k c : Ch) (h : d.chs[c].stopping) : (triggerStop d k).chs[c].stopping :=
  forCh_holds (fun e => e.chs[c].stopping) _ (fun e a he => ch_stopping e a c _ (fun x _ => triggerChan_stopping x) he) _ d h

theorem triggerStop_self (d : Dev) (c : Ch) : (triggerStop d c).chs[c].stopping := by
  unfold triggerStop halves
  split
  · rename_i h
    have hc : c = evenOf c ∨ c = oddOf c := by
      rcases Nat.mod_two_eq_zero_or_one c.val with h | h
      · left; apply Fin.ext; simp only [evenOf]; omega
      · right; apply Fin.ext; simp only [oddOf]; omega
    simp only [forCh, List.foldl]
    rcases hc with hc | hc
    · refine ch_stopping _ _ c _ (fun x _ => triggerChan_stopping x) ?_
      rw [ch_get, if_pos hc]; exact triggerChan_stopping _
    · rw [ch_get, if_pos hc]; exact triggerChan_stopping _
  · simp only [forCh, List.foldl, ch_same]; exact triggerChan_stopping _

/-- `stopFrom` leaves no channel of its list released outside a safe stop that runs or waits (R166). -/
theorem stopFrom_stopping (d : Dev) (cs : List Ch) (c : Ch) (h : c ∈ cs ∨ d.chs[c].stopping) : (stopFrom d cs).chs[c].stopping := by
  simp only [stopFrom, settleStops_frame]
  induction cs generalizing d with
  | nil => exact h.elim (fun h => by cases h) id
  | cons a t ih =>
    simp only [forCh, List.foldl_cons] at ih ⊢
    refine ih _ ?_
    by_cases ha : c = a
    · exact .inr (ha ▸ triggerStop_self _ _)
    · rcases h with h | h
      · rcases List.mem_cons.mp h with h | h
        · exact absurd h ha
        · exact .inl h
      · exact .inr (triggerStop_stopping _ _ _ (measOutside_stopping _ _ _ (checkFinish_stopping _ _ _ _ _ h)))
end Sys2Proof.Machine
end

