-- ==== Sys2Proof/Laws/Safe.lean ====
section
/-!
SUPPORT. The safe states of the part (Safety): reset is safe, and the shared operations and parts of the commands keep a safe state safe.
-/

set_option Elab.async false
set_option linter.all false

namespace Sys2Proof.Machine

/-! ### Gates -/

theorem edgesSound_start (hs ls : Bool) (l : List Edge) (h : edgesSound hs ls l = true) : (hs && ls) = false := by
  cases l <;> cases hs <;> cases ls <;> simp_all [edgesSound]

theorem edgesSound_nil (hs ls : Bool) (h : (hs && ls) = false) : edgesSound hs ls [] = true := by simp [edgesSound, h]

theorem sound_gatesOff (m : Mod) : (gatesOff m).sound = true := rfl

@[simp] theorem sound_chanOff (x : Chan) : (chanOff x).sound = true := rfl

theorem realEdges_mem (l : List Edge) (hs ls : Bool) (e : Edge) (h : e ∈ realEdges hs ls l) : e ∈ l := by
  induction l generalizing hs ls with
  | nil => exact h
  | cons a t ih =>
    unfold realEdges at h
    by_cases k : (if a.high then hs else ls) = a.on
    · rw [if_pos k] at h; exact List.mem_cons_of_mem _ (ih _ _ h)
    · rw [if_neg k] at h
      rcases List.mem_cons.mp h with h | h
      · exact h ▸ List.mem_cons_self
      · cases hh : a.high <;> simp only [hh, Bool.false_eq_true, if_false, if_true] at h <;> exact List.mem_cons_of_mem _ (ih _ _ h)

theorem realEdges_sound (l : List Edge) (hs ls : Bool) (h : edgesSound hs ls l = true) : edgesSound hs ls (realEdges hs ls l) = true := by
  induction l generalizing hs ls with
  | nil => exact h
  | cons e t ih =>
    simp only [edgesSound, Bool.and_eq_true] at h
    obtain ⟨⟨h1, h2⟩, h3⟩ := h
    simp only [realEdges]
    by_cases he : (if e.high then hs else ls) = e.on
    · rw [if_pos he]
      apply ih
      cases hh : e.high <;> simp [hh] at he h3 <;> simpa [he] using h3
    · rw [if_neg he]
      have h2' : ∀ l' : List Edge, (∀ x ∈ l', x ∈ t) → l'.all (fun x => decide (e.pos ≤ x.pos)) = true := by
        intro l' hl; simp only [List.all_eq_true] at h2 ⊢; exact fun x hx => h2 x (hl x hx)
      cases hh : e.high <;> simp only [hh, Bool.false_eq_true, if_false, if_true] at h3 ⊢
      · simp only [edgesSound, hh, h1, Bool.false_eq_true, if_false, Bool.true_and, Bool.and_eq_true]
        exact ⟨h2' _ (fun x hx => realEdges_mem _ _ _ _ hx), ih _ _ h3⟩
      · simp only [edgesSound, hh, h1, if_true, Bool.true_and, Bool.and_eq_true]
        exact ⟨h2' _ (fun x hx => realEdges_mem _ _ _ _ hx), ih _ _ h3⟩

theorem planPeriod_sound (y dt on t : Nat) (hs ls : Bool) (ho : on ≤ dt) (h : (hs && ls) = false) :
    edgesSound hs ls (planPeriod y dt on t hs) = true := by
  unfold planPeriod
  (repeat' split) <;> cases hs <;> cases ls <;> simp_all [edgesSound] <;> omega

theorem planFrom_sound (y dt on t : Nat) (hs ls : Bool) (ho : on ≤ dt) (h : (hs && ls) = false) :
    edgesSound hs ls (planFrom y dt on t hs ls) = true := by
  unfold planFrom; split
  · exact edgesSound_nil hs ls h
  · exact realEdges_sound _ _ _ (planPeriod_sound y dt on t hs ls ho h)

theorem applyEdge_gates (m : Mod) (e : Edge) : (applyEdge m e).hs = (if e.high then e.on else m.hs) ∧ (applyEdge m e).ls = (if e.high then m.ls else e.on) ∧
    (applyEdge m e).plan = m.plan := by
  unfold applyEdge; dsimp only; cases e.high <;> simp

theorem foldEdges_sound (l : List Edge) (m : Mod) (h : edgesSound m.hs m.ls l = true) :
    ((l.foldl applyEdge m).hs && (l.foldl applyEdge m).ls) = false := by
  induction l generalizing m with
  | nil => exact edgesSound_start _ _ _ h
  | cons e t ih =>
    simp only [edgesSound, Bool.and_eq_true] at h
    apply ih; rw [(applyEdge_gates m e).1, (applyEdge_gates m e).2.1]; exact h.2

/-- A sorted list of sound edges parts at a position into those before it, performed, and those from it on, which stay sound. -/
theorem splitEdges_sound (t : Nat) (l : List Edge) (m : Mod) (h : edgesSound m.hs m.ls l = true) :
    edgesSound ((l.filter fun e => decide (e.pos < t)).foldl applyEdge m).hs ((l.filter fun e => decide (e.pos < t)).foldl applyEdge m).ls
      (l.filter fun e => decide (t ≤ e.pos)) = true := by
  induction l generalizing m with
  | nil => exact h
  | cons e r ih =>
    have hs := h
    simp only [edgesSound, Bool.and_eq_true, List.all_eq_true, decide_eq_true_eq] at hs
    by_cases hp : e.pos < t
    · rw [List.filter_cons_of_pos (by simpa using hp), List.filter_cons_of_neg (by simp; omega), List.foldl_cons]
      apply ih
      rw [(applyEdge_gates m e).1, (applyEdge_gates m e).2.1]
      exact hs.2
    · have h1 : (e :: r).filter (fun e => decide (e.pos < t)) = [] := by
        apply List.filter_eq_nil_iff.mpr; intro x hx
        rcases List.mem_cons.mp hx with rfl | hx
        · simp; omega
        · have := hs.1.2 x hx; simp; omega
      have h2 : (e :: r).filter (fun e => decide (t ≤ e.pos)) = e :: r := by
        apply List.filter_eq_self.mpr; intro x hx
        rcases List.mem_cons.mp hx with rfl | hx
        · simp; omega
        · have := hs.1.2 x hx; simp; omega
      rw [h1, h2]; exact h

/-- Edges that all move by one amount stay sound. -/
theorem shiftEdges_sound (t : Nat) (l : List Edge) (hs ls : Bool) (h : edgesSound hs ls l = true) :
    edgesSound hs ls (l.map fun e => { e with pos := e.pos - t }) = true := by
  induction l generalizing hs ls with
  | nil => exact h
  | cons e r ih =>
    simp only [edgesSound, Bool.and_eq_true, List.all_eq_true, decide_eq_true_eq, List.map_cons, List.mem_map] at h ⊢
    refine ⟨⟨h.1.1, ?_⟩, ih _ _ h.2⟩
    rintro _ ⟨x, hx, rfl⟩
    have := h.1.2 x hx
    dsimp only; omega

theorem finishPlan_sound (m : Mod) (h : m.sound = true) : (finishPlan m).sound = true :=
  shiftEdges_sound _ _ _ _ (splitEdges_sound (16 * m.period) m.plan m h)

theorem midFold_sound (l : List Edge) (m : Mod) (h : edgesSound m.hs m.ls l = true) :
    edgesSound (l.foldl (fun n e => if e.pos < 2048 then applyEdge n e else n) m).hs
      (l.foldl (fun n e => if e.pos < 2048 then applyEdge n e else n) m).ls (l.filter fun e => decide (2048 ≤ e.pos)) = true := by
  induction l generalizing m with
  | nil => exact h
  | cons e t ih =>
    by_cases hp : e.pos < 2048
    · rw [List.foldl_cons, if_pos hp, List.filter_cons_of_neg (by simp; omega)]
      simp only [edgesSound, Bool.and_eq_true] at h
      apply ih; rw [(applyEdge_gates m e).1, (applyEdge_gates m e).2.1]; exact h.2
    · have hs := h
      simp only [edgesSound, Bool.and_eq_true, List.all_eq_true, decide_eq_true_eq] at hs
      have hf : (e :: t).filter (fun e => decide (2048 ≤ e.pos)) = e :: t := by
        apply List.filter_eq_self.mpr; intro x hx
        rcases List.mem_cons.mp hx with rfl | hx
        · simp; omega
        · have := hs.1.2 x hx; simp; omega
      have hg : ∀ l' : List Edge, (∀ x ∈ l', ¬ x.pos < 2048) → l'.foldl (fun n e => if e.pos < 2048 then applyEdge n e else n) m = m := by
        intro l'; induction l' with
        | nil => intro _; rfl
        | cons x r ihr =>
          intro hl; rw [List.foldl_cons, if_neg (hl x List.mem_cons_self)]
          exact ihr fun y hy => hl y (List.mem_cons_of_mem _ hy)
      rw [hf, hg]
      · exact h
      · intro x hx
        rcases List.mem_cons.mp hx with rfl | hx
        · exact hp
        · have := hs.1.2 x hx; omega

theorem atMid_sound (m : Mod) (h : m.sound = true) : (atMid m).sound = true := midFold_sound m.plan m h

theorem midUpdate_sound (m : Mod) (y dt : Nat) (h : m.sound = true) : (midUpdate m y dt).sound = true := by
  have k := atMid_sound m h
  unfold midUpdate
  simp only
  split
  · rename_i hh
    have hl : (atMid m).ls = false := by
      have := edgesSound_start _ _ _ k; simp_all
    (repeat' split) <;> simp [Mod.sound, edgesSound, hl] <;> omega
  · exact k

theorem tripGates_sound (m : Mod) (low : Bool) (pos : Nat) : (tripGates m low pos).sound = true := by
  unfold tripGates
  dsimp only
  cases low
  · rw [if_neg (by decide)]; dsimp only [Mod.sound]; split <;> simp [edgesSound]
  · rw [if_pos rfl]; dsimp only [Mod.sound]; split <;> simp [edgesSound]

theorem planStart_sound (m : Mod) (dt on t y : Nat) (ho : on ≤ dt) (h : (m.hs && m.ls) = false) :
    Mod.sound { m with plan := planFrom y dt on t m.hs m.ls } = true :=
  planFrom_sound y dt on t m.hs m.ls ho h

/-! ### Channels -/

/-- A change that leaves a channel's gates and its protection's release, latch and service alone keeps it sound. -/
theorem sound_same (x y : Chan) (h : x.sound = true) (h1 : y.mod.hs = x.mod.hs) (h2 : y.mod.ls = x.mod.ls) (h3 : y.mod.plan = x.mod.plan)
    (h4 : y.prot.released = x.prot.released) (h5 : y.prot.latched = x.prot.latched) (h6 : y.prot.oos = x.prot.oos) : y.sound = true := by
  simpa only [Chan.sound, Mod.sound, h1, h2, h3, h4, h5, h6] using h

/-- A channel whose gates are sound and whose protection stands as in a sound channel is sound. -/
theorem sound_mod (x y : Chan) (h : x.sound = true) (hm : y.mod.sound = true)
    (h4 : y.prot.released = x.prot.released) (h5 : y.prot.latched = x.prot.latched) (h6 : y.prot.oos = x.prot.oos) : y.sound = true := by
  simp only [Chan.sound, Bool.and_eq_true, h4, h5, h6] at h ⊢
  exact ⟨hm, h.2⟩

/-- A channel whose gates are sound and that is not released is sound. -/
theorem sound_idle (y : Chan) (hm : y.mod.sound = true) (hr : y.prot.released = false) : y.sound = true := by
  simp only [Chan.sound, hm, hr, Bool.not_false, Bool.true_or, Bool.and_self]

theorem sound_gates (x : Chan) (h : x.sound = true) : x.mod.sound = true := by
  simp only [Chan.sound, Bool.and_eq_true] at h; exact h.1

theorem mod_sound_pair (m : Mod) (h : m.sound = true) : (m.hs && m.ls) = false := edgesSound_start _ _ _ h

theorem triggerChan_sound (x : Chan) (h : x.sound = true) : (triggerChan x).sound = true := by
  unfold triggerChan
  dsimp only
  (repeat' split) <;> first | exact h | exact sound_same x _ h rfl rfl rfl rfl rfl rfl | exact sound_mod x _ h rfl rfl rfl rfl

theorem manualExit_sound (x : Chan) (h : x.sound = true) : (manualExit x).sound = true := by
  unfold manualExit
  split
  · rfl
  · exact sound_mod x _ h rfl rfl rfl rfl

theorem handShadow_sound (m : Mod) (w : Q23) (near : Bool) : (handShadow m w near).sound = m.sound := by
  unfold handShadow; split <;> rfl

theorem handPeriod_sound (m : Mod) (p : Nat) (near : Bool) : (handPeriod m p near).sound = m.sound := by
  unfold handPeriod; split <;> rfl

theorem manualReload_sound (m : Mod) (take takeP : Bool) : (manualReload m take takeP).sound = m.sound := by
  unfold manualReload; dsimp only; (repeat' split) <;> rfl

theorem loopReload_sound (m : Mod) (take : Bool) : (loopReload m take).sound = m.sound := by
  unfold loopReload; dsimp only; (repeat' split) <;> rfl

theorem takeDuty_sound (c : Chan) (d : Nat) (sat : Bool) (p : Nat) (r : Bool) : (takeDuty c d sat p r).sound = c.mod.sound := rfl

theorem takeWord_sound (c : Chan) (w : Nat) (ff : Bool) (p : Nat) (r1 r2 : Bool) : (takeWord c w ff p r1 r2).sound = c.mod.sound := rfl

theorem takeUpMod_sound (d : Dev) (c : Ch) (r0 r1 r2 : Bool) : (takeUpMod d c r0 r1 r2).sound = d.chs[c].mod.sound := by
  unfold takeUpMod; dsimp only; split <;> rfl

theorem startPeriod_sound (x : Chan) (m : Mod) (h : x.sound = true) (hm : m.sound = true) : (startPeriod x m).sound = true := by
  refine sound_mod x _ h ?_ rfl rfl rfl
  unfold startPeriod
  dsimp only
  split
  · refine planFrom_sound _ _ _ _ _ _ ?_ (mod_sound_pair m hm)
    split <;> omega
  · rfl

theorem countZero_sound (x : Chan) (h : x.sound = true) : (countZero x).sound = true :=
  sound_mod x _ h (finishPlan_sound _ (sound_gates x h)) rfl rfl rfl

theorem openStop_sound (x : Chan) (h : x.sound = true) : (openStop x).sound = true := by
  unfold openStop; split
  · exact sound_same x _ h rfl rfl rfl rfl rfl rfl
  · exact h

theorem enableStep_sound (x : Chan) (man : Mod) (h : x.sound = true) : (enableStep x man).sound = true := by
  unfold enableStep
  (repeat' split) <;> first | exact h | exact sound_same x _ h rfl rfl rfl rfl rfl rfl

theorem reloadStep_sound (x : Chan) (rails : RailSample) (take : Bool) (h : x.sound = true) : (reloadStep x rails take).sound = true :=
  sound_mod x _ h ((loopReload_sound x.mod take).trans (sound_gates x h)) rfl rfl rfl

theorem boundaryMod_sound (x : Chan) (man : Mod) (rails : RailSample) (take : Bool) (h : x.sound = true) :
    (boundaryMod x man rails take).sound = true := by
  have h0 : (openStop { x with mod := { x.mod with counting := true } }).sound = true :=
    openStop_sound _ (sound_same x _ h rfl rfl rfl rfl rfl rfl)
  have h1 := enableStep_sound _ man h0
  unfold boundaryMod
  dsimp only
  (repeat' split) <;> first
    | exact h0
    | exact reloadStep_sound _ _ _ h1
    | exact sound_same _ _ h1 rfl rfl rfl rfl rfl rfl

theorem countTrip_same (p : Prot) : (countTrip p).released = p.released ∧ (countTrip p).latched = p.latched ∧
    (countTrip p).oos = p.oos := by
  unfold countTrip; split <;> exact ⟨rfl, rfl, rfl⟩

theorem writeChan_sound (o v : Nat) (rwl : Bool) (x : Chan) (h : x.sound = true) : (writeChan o v rwl x).sound = true := by
  unfold writeChan
  (repeat' split) <;> first | exact h | exact sound_same x _ h rfl rfl rfl rfl rfl rfl

/-! ### Safe states -/

/-- The reset state is safe. -/
theorem reset_safe : Safe Dev.reset := by
  intro c
  simp [Dev.reset, Chan.reset, Chan.sound, Mod.sound, Mod.reset, Prot.reset, edgesSound]

theorem sound_ite (p : Prop) [Decidable p] (a b : Bank Chan 128) : Sound (if p then a else b) ↔ (p → Sound a) ∧ (¬p → Sound b) := by
  split <;> simp_all

theorem sound_if (p : Prop) [Decidable p] (a b : Dev) (ha : p → Sound a.chs) (hb : ¬p → Sound b.chs) : Sound (if p then a else b).chs := by
  split
  · exact ha ‹_›
  · exact hb ‹_›

/-- An update of a channel that keeps a sound channel sound. -/
def Keeps (f : Chan → Chan) : Prop := ∀ x, x.sound = true → (f x).sound = true

/-- An update of every channel that keeps sound channels sound. -/
def KeepsAll (f : Ch → Chan → Chan) : Prop := ∀ c x, x.sound = true → (f c x).sound = true

/-- A step of a fold that keeps a safe part safe. -/
def KeepsSafe {α : Type} (f : Dev → α → Dev) : Prop := ∀ e a, Sound e.chs → Sound (f e a).chs

theorem keeps_iff (f : Chan → Chan) : Keeps f ↔ ∀ x, x.sound = true → (f x).sound = true := ⟨fun h => h, fun h => h⟩

theorem keepsAll_iff (f : Ch → Chan → Chan) : KeepsAll f ↔ ∀ c x, x.sound = true → (f c x).sound = true := ⟨fun h => h, fun h => h⟩

theorem keepsSafe_iff {α : Type} (f : Dev → α → Dev) : KeepsSafe f ↔ ∀ e a, Sound e.chs → Sound (f e a).chs :=
  ⟨fun h => h, fun h => h⟩

theorem chan_ite_sound (p : Prop) [Decidable p] (x y : Chan) : (if p then x else y).sound = true ↔ (p → x.sound = true) ∧ (¬p → y.sound = true) := by
  split <;> simp_all

theorem sound_tab (v : Bank Chan 128) (f : Ch → Chan → Chan) (hs : Sound v) (hf : KeepsAll f) : Sound (tab v f) :=
  fun c => by rw [tab_get]; exact hf _ _ (hs c)

theorem sound_upd_at (v : Bank Chan 128) (c : Ch) (f : Chan → Chan) (hs : Sound v) (hf : v[c].sound = true → (f v[c]).sound = true) :
    Sound (upd v c f) := fun k => by
  rw [upd_get]; split
  · rename_i hk; subst hk; exact hf (hs _)
  · exact hs k

theorem sound_upd (v : Bank Chan 128) (c : Ch) (f : Chan → Chan) (hs : Sound v) (hf : Keeps f) : Sound (upd v c f) :=
  sound_upd_at v c f hs (hf _)

theorem sound_updN (v : Bank Chan 128) (c : Nat) (f : Chan → Chan) (hs : Sound v) (hf : Keeps f) : Sound (updN v c f) := by
  unfold updN; split
  · exact sound_upd v ⟨c, ‹_›⟩ f hs hf
  · exact hs

theorem ch_sound (d : Dev) (c : Ch) (f : Chan → Chan) (h : Sound d.chs) (hf : Keeps f) : Sound (d.ch c f).chs :=
  sound_upd d.chs c f h hf

theorem chAll_sound (d : Dev) (f : Ch → Chan → Chan) (h : Sound d.chs) (hf : KeepsAll f) : Sound (d.chAll f).chs := sound_tab d.chs f h hf

theorem foldl_sound {α : Type} (f : Dev → α → Dev) (l : List α) (d : Dev) (h : Sound d.chs) (hf : KeepsSafe f) : Sound (l.foldl f d).chs :=
  foldl_holds Safe f hf l d h

theorem forCh_sound (f : Dev → Ch → Dev) (l : List Ch) (d : Dev) (h : Sound d.chs) (hf : KeepsSafe f) : Sound (forCh l f d).chs :=
  forCh_holds Safe f hf l d h

end Sys2Proof.Machine
end

