-- ==== Sys2Proof/Laws/Frames.lean ====
section
/-!
SUPPORT. The parts of the commands that leave every channel alone, one frame for each.
-/

set_option Elab.async false
set_option linter.all false

namespace Sys2Proof.Machine

theorem onQ0_holds (p : Dev → Prop) (d : Dev) (r : CmdRef) (op : Nat) (f : Dev) (h : p (refuse d r op stOpcode)) (hf : p f) :
    p (onQ0 d r op f) := by unfold onQ0; split <;> assumption

theorem adminOpen_holds (p : Dev → Prop) (d : Dev) (r : CmdRef) (op : Nat) (f : Dev) (h : ∀ st, p (refuse d r op st)) (hf : p f) :
    p (adminOpen d r op f) := by
  unfold adminOpen; refine onQ0_holds p d r op _ (h _) ?_; split
  · exact h _
  · exact hf

@[simp] theorem dev_tick_chs (d : Dev) : (Dev.tick d).chs = d.chs := by
  unfold Dev.tick; (try dsimp only) <;> (repeat' split) <;> simp [ite_dev]

@[simp] theorem dev_ticks_chs (d : Dev) (n : Nat) : (Dev.ticks d n).chs = d.chs := by
  unfold Dev.ticks; (try dsimp only) <;> (repeat' split) <;> simp [ite_dev]

@[simp] theorem signal_chs (d : Dev) (v : Nat) : (signal d v).chs = d.chs := by
  unfold signal; (try dsimp only) <;> (repeat' split) <;> simp [ite_dev]

@[simp] theorem raiseEvt_chs (d : Dev) (src : Nat) : (raiseEvt d src).chs = d.chs := by
  unfold raiseEvt; (try dsimp only) <;> (repeat' split) <;> simp [ite_dev]

@[simp] theorem setGrd_chs (d : Dev) (i : Nat) : (setGrd d i).chs = d.chs := by
  unfold setGrd; (try dsimp only) <;> (repeat' split) <;> simp [ite_dev]

@[simp] theorem setTb_chs (d : Dev) (i : Nat) : (setTb d i).chs = d.chs := by
  unfold setTb; (try dsimp only) <;> (repeat' split) <;> simp [ite_dev]

@[simp] theorem setThm_chs (d : Dev) (i : Nat) : (setThm d i).chs = d.chs := by
  unfold setThm; (try dsimp only) <;> (repeat' split) <;> simp [ite_dev]

@[simp] theorem copyHist_chs (d : Dev) : (copyHist d).chs = d.chs := by
  unfold copyHist; (try dsimp only) <;> (repeat' split) <;> simp [ite_dev]

@[simp] theorem hist_chs (d : Dev) (ch cause detail : Nat) (latched : Bool) : (hist d ch cause detail latched).chs = d.chs := by
  unfold hist; (try dsimp only) <;> (repeat' split) <;> simp [ite_dev]

@[simp] theorem errLog_chs (d : Dev) (sq cid op status : Nat) (i : FailInfo) (r0 r1 : Nat) : (errLog d sq cid op status i r0 r1).chs = d.chs := by
  unfold errLog; (try dsimp only) <;> (repeat' split) <;> simp [ite_dev]

@[simp] theorem completeWith_chs (d : Dev) (r : CmdRef) (op status : Nat) (i : FailInfo) (r0 r1 : Nat) : (completeWith d r op status i r0 r1).chs = d.chs := by
  unfold completeWith; (try dsimp only) <;> (repeat' split) <;> simp [ite_dev]

@[simp] theorem complete_chs (d : Dev) (r : CmdRef) (op status r0 r1 : Nat) : (complete d r op status r0 r1).chs = d.chs := by
  unfold complete; (try dsimp only) <;> (repeat' split) <;> simp [ite_dev]

@[simp] theorem completeAt_chs (d : Dev) (r : CmdRef) (op status stc : Nat) : (completeAt d r op status stc).chs = d.chs := by
  unfold completeAt; (try dsimp only) <;> (repeat' split) <;> simp [ite_dev]

@[simp] theorem refuse_chs (d : Dev) (r : CmdRef) (op status : Nat) : (refuse d r op status).chs = d.chs := by
  unfold refuse; (try dsimp only) <;> (repeat' split) <;> simp [ite_dev]

@[simp] theorem hostWrite_chs (d : Dev) (r : CmdRef) (bs : List Byte) : (hostWrite d r bs).chs = d.chs := by
  unfold hostWrite; (try dsimp only) <;> (repeat' split) <;> simp [ite_dev]

@[simp] theorem eviCount_chs (d : Dev) (e : Nat) (c : Nat) : (eviCount d e c).chs = d.chs := by
  unfold eviCount; (try dsimp only) <;> (repeat' split) <;> simp [ite_dev]

@[simp] theorem freeUnits_chs (d : Dev) (c : Ch) (m : Meas) : (freeUnits d c m).chs = d.chs := by
  unfold freeUnits; (try dsimp only) <;> (repeat' split) <;> simp [ite_dev]

@[simp] theorem trackUnbound_chs (d : Dev) : (trackUnbound d).chs = d.chs := by
  unfold trackUnbound; (try dsimp only) <;> (repeat' split) <;> simp [ite_dev]

@[simp] theorem capPoint_chs (d : Dev) (p : CapPoint) (st : CapStrobe) (c : Ch) (val : Int) (trip range : Bool) : (capPoint d p st c val trip range).chs = d.chs := by
  unfold capPoint; (try dsimp only) <;> (repeat' split) <;> simp [ite_dev]

@[simp] theorem dev_tile_chs (d : Dev) (t : LTile) (f : TileState → TileState) : (Dev.tile d t f).chs = d.chs := by
  unfold Dev.tile; (try dsimp only) <;> (repeat' split) <;> simp [ite_dev]

@[simp] theorem awlLane_chs (d : Dev) (t : LTile) (s : Stitch) (c : Ch) (i : Nat) : (awlLane d t s c i).chs = d.chs := by
  unfold awlLane; (try dsimp only) <;> (repeat' split) <;> simp [ite_dev]

@[simp] theorem loadConds_chs (d : Dev) (c : Ch) : (loadConds d c).chs = d.chs := by
  unfold loadConds; (try dsimp only) <;> (repeat' split) <;> simp [ite_dev]

@[simp] theorem loadStages_chs (d : Dev) (c : Ch) : (loadStages d c).chs = d.chs := by
  unfold loadStages; (try dsimp only) <;> (repeat' split) <;> simp [ite_dev]

@[simp] theorem restartModel_chs (d : Dev) (c : Ch) : (restartModel d c).chs = d.chs := by
  unfold restartModel; (try dsimp only) <;> (repeat' split) <;> simp [ite_dev]

@[simp] theorem grantLane_chs (d : Dev) (t : LTile) (s : Stitch) (c : Ch) : (grantLane d t s c).chs = d.chs := by
  unfold grantLane; (try dsimp only) <;> (repeat' split) <;> simp [ite_dev]

@[simp] theorem countMisses_chs (d : Dev) : (countMisses d).chs = d.chs := by
  unfold countMisses; (try dsimp only) <;> (repeat' split) <;> simp [ite_dev]

@[simp] theorem closeLane_chs (d : Dev) (t : LTile) (s : Stitch) (c : Ch) : (closeLane d t s c).chs = d.chs := by
  unfold closeLane; (try dsimp only) <;> (repeat' split) <;> simp [ite_dev]

@[simp] theorem dev_sap_chs (d : Dev) (p : Nat) (f : Sap → Sap) : (Dev.sap d p f).chs = d.chs := by
  unfold Dev.sap; (try dsimp only) <;> (repeat' split) <;> simp [ite_dev]

@[simp] theorem dev_stream_chs (d : Dev) (h : Nat) (f : Stream → Stream) : (Dev.stream d h f).chs = d.chs := by
  unfold Dev.stream; (try dsimp only) <;> (repeat' split) <;> simp [ite_dev]

@[simp] theorem dev_streamAll_chs (d : Dev) (f : Stream → Stream) : (Dev.streamAll d f).chs = d.chs := by
  unfold Dev.streamAll; (try dsimp only) <;> (repeat' split) <;> simp [ite_dev]

@[simp] theorem streamUnstart_chs (d : Dev) (r : CmdRef) : (streamUnstart d r).chs = d.chs := by
  unfold streamUnstart; (try dsimp only) <;> (repeat' split) <;> simp [ite_dev]

@[simp] theorem streamAt_chs (d : Dev) (r : CmdRef) (b : Nat) : (streamAt d r b).chs = d.chs := by
  unfold streamAt; (try dsimp only) <;> (repeat' split) <;> simp [ite_dev]

@[simp] theorem advanceGens_chs (d : Dev) (inner : Bool) : (advanceGens d inner).chs = d.chs := by
  unfold advanceGens; (try dsimp only) <;> (repeat' split) <;> simp [ite_dev]

@[simp] theorem genStopDev_chs (d : Dev) (g : Fin 8) : (genStopDev d g).chs = d.chs := by
  unfold genStopDev; (try dsimp only) <;> (repeat' split) <;> simp [ite_dev]

@[simp] theorem setAcc_chs (d : Dev) (m a : Nat) : (setAcc d m a).chs = d.chs := by
  unfold setAcc; (try dsimp only) <;> (repeat' split) <;> simp [ite_dev]

@[simp] theorem tickSet_chs (grp : Option Nat) (all : List Nat) (e : Dev) (j : Nat) : (tickSet grp all e j).chs = e.chs := by
  unfold tickSet; (try dsimp only) <;> (repeat' split) <;> simp [ite_dev]

@[simp] theorem tickMembers_chs (d : Dev) (grp : Option Nat) (ms : List Nat) : (tickMembers d grp ms).chs = d.chs := by
  unfold tickMembers
  split
  · rfl
  · dsimp only
    rw [foldl_chs _ _ _ (fun e a => setAcc_chs _ _ _), foldl_chs _ _ _ (fun e a => tickSet_chs _ _ _ _), dev_tick_chs]

@[simp] theorem outTicks_chs (d : Dev) (p : Nat) : (outTicks d p).chs = d.chs := by
  unfold outTicks; dsimp only; (repeat' split) <;> (try rw [setAcc_chs]) <;> (try rw [times_keeps Dev.chs _ (fun e => by simp)]) <;> simp

@[simp] theorem startStream_chs (d : Dev) (h : Nat) : (startStream d h).chs = d.chs := by
  unfold startStream; (try dsimp only) <;> (repeat' split) <;> simp [ite_dev]

@[simp] theorem startStreams_chs (d : Dev) : (startStreams d).chs = d.chs := by
  unfold startStreams; (try dsimp only) <;> (repeat' split) <;> simp [ite_dev]

@[simp] theorem idleStreams_chs (d : Dev) : (idleStreams d).chs = d.chs := by
  unfold idleStreams; (try dsimp only) <;> (repeat' split) <;> simp [ite_dev]

@[simp] theorem allTicks_chs (d : Dev) : (allTicks d).chs = d.chs := by
  unfold allTicks; (try dsimp only) <;> (repeat' split) <;> simp [ite_dev]

@[simp] theorem filterSource_chs (d : Dev) (m code : Nat) : (filterSource d m code).chs = d.chs := by
  unfold filterSource; (try dsimp only) <;> (repeat' split) <;> simp [ite_dev]

@[simp] theorem filterSources_chs (d : Dev) (i : Image) : (filterSources d i).chs = d.chs := by
  unfold filterSources; (try dsimp only) <;> (repeat' split) <;> simp [ite_dev]

@[simp] theorem dev_mixCh_chs (d : Dev) (c : Nat) (f : MixCh → MixCh) : (Dev.mixCh d c f).chs = d.chs := by
  unfold Dev.mixCh; (try dsimp only) <;> (repeat' split) <;> simp [ite_dev]

@[simp] theorem gainPut_chs (d : Dev) (o : GainObj) (v : Int) : (gainPut d o v).chs = d.chs := by
  unfold gainPut; (try dsimp only) <;> (repeat' split) <;> simp [ite_dev]

@[simp] theorem endTraj_chs (d : Dev) (o : GainObj) : (endTraj d o).chs = d.chs := by
  unfold endTraj; (try dsimp only) <;> (repeat' split) <;> simp [ite_dev]

@[simp] theorem gainChange_chs (d : Dev) (o : GainObj) (v : Int) : (gainChange d o v).chs = d.chs := by
  unfold gainChange; (try dsimp only) <;> (repeat' split) <;> simp [ite_dev]

@[simp] theorem stepTrajs_chs (d : Dev) : (stepTrajs d).chs = d.chs := by
  unfold stepTrajs; (try dsimp only) <;> (repeat' split) <;> simp [ite_dev]

@[simp] theorem trajEndDev_chs (d : Dev) (q : QId) (cid : BitVec 16) : (trajEndDev d q cid).chs = d.chs := by
  unfold trajEndDev; (try dsimp only) <;> (repeat' split) <;> simp [ite_dev]

@[simp] theorem dlyWrLane_chs (d : Dev) (c : Ch) : (dlyWrLane d c).chs = d.chs := by
  unfold dlyWrLane; (try dsimp only) <;> (repeat' split) <;> simp [ite_dev]

@[simp] theorem dlyRdLane_chs (d : Dev) (c : Ch) : (dlyRdLane d c).chs = d.chs := by
  unfold dlyRdLane; (try dsimp only) <;> (repeat' split) <;> simp [ite_dev]

@[simp] theorem limitLane_chs (d : Dev) (c : Ch) (x : Int) : (limitLane d c x).chs = d.chs := by
  unfold limitLane; (try dsimp only) <;> (repeat' split) <;> simp [ite_dev]

@[simp] theorem mixAwlLane_chs (d : Dev) (c : Ch) : (mixAwlLane d c).chs = d.chs := by
  unfold mixAwlLane; (try dsimp only) <;> (repeat' split) <;> simp [ite_dev]

@[simp] theorem mixLost_chs (d : Dev) (c : Ch) : (mixLost d c).chs = d.chs := by
  unfold mixLost; (try dsimp only) <;> (repeat' split) <;> simp [ite_dev]

@[simp] theorem xferSend_chs (d : Dev) (img : Image) (t : LTile) (s : Stitch) (p : Nat) : (xferSend d img t s p).chs = d.chs := by
  unfold xferSend; (try dsimp only) <;> (repeat' split) <;> simp [ite_dev]

@[simp] theorem xferTake_chs (d : Dev) (img : Image) (t : LTile) (s : Stitch) : (xferTake d img t s).chs = d.chs := by
  unfold xferTake; (try dsimp only) <;> (repeat' split) <;> simp [ite_dev]

@[simp] theorem sharedMove_chs (d : Dev) (t : LTile) (s : Stitch) : (sharedMove d t s).chs = d.chs := by
  unfold sharedMove; (try dsimp only) <;> (repeat' split) <;> simp [ite_dev]

@[simp] theorem mixStitch_chs (img : Image) (m : Fin 4) (p : Nat) (d : Dev) (s : Stitch) : (mixStitch img m p d s).chs = d.chs := by
  unfold mixStitch; (try dsimp only) <;> (repeat' split) <;> simp [ite_dev]

@[simp] theorem mixTileRun_chs (img : Image) (d : Dev) (m : Fin 4) : (mixTileRun img d m).chs = d.chs := by
  unfold mixTileRun; (try dsimp only) <;> (repeat' split) <;> simp [ite_dev]

@[simp] theorem feedOutputs_chs (d : Dev) : (feedOutputs d).chs = d.chs := by
  unfold feedOutputs; (try dsimp only) <;> (repeat' split) <;> simp [ite_dev]

@[simp] theorem mixPeriod_chs (d : Dev) : (mixPeriod d).chs = d.chs := by
  unfold mixPeriod; (try dsimp only) <;> (repeat' split) <;> simp [ite_dev]

@[simp] theorem settleStops_chs (d : Dev) : (settleStops d).chs = d.chs := by
  unfold settleStops; (try dsimp only) <;> (repeat' split) <;> simp [ite_dev]

@[simp] theorem hsgOff_chs (d : Dev) : (hsgOff d).chs = d.chs := by
  unfold hsgOff; (try dsimp only) <;> (repeat' split) <;> simp [ite_dev]

@[simp] theorem rampAgain_chs (d : Dev) (c : Ch) : (rampAgain d c).chs = d.chs := by
  unfold rampAgain; (try dsimp only) <;> (repeat' split) <;> simp [ite_dev]

@[simp] theorem cmpDev_chs (d : Dev) (c : Ch) (b : Bool) (ticks : Nat) (smp : Sample) : (cmpDev d c b ticks smp).chs = d.chs := by
  unfold cmpDev; (try dsimp only) <;> (repeat' split) <;> simp [ite_dev]

@[simp] theorem eviSignalDev_chs (d : Dev) (u : Fin 16) : (eviSignalDev d u).chs = d.chs := by
  unfold eviSignalDev; (try dsimp only) <;> (repeat' split) <;> simp [ite_dev]

@[simp] theorem railWide_chs (d : Dev) : (railWide d).chs = d.chs := by
  unfold railWide; (try dsimp only) <;> (repeat' split) <;> simp [ite_dev]

@[simp] theorem supplySample_chs (was : List RailSample) (d : Dev) : (supplySample was d).chs = d.chs := by
  unfold supplySample; (try dsimp only) <;> (repeat' split) <;> simp [ite_dev]

@[simp] theorem captureSample_chs (d : Dev) (c : Ch) : (captureSample d c).chs = d.chs := by
  unfold captureSample; (try dsimp only) <;> (repeat' split) <;> simp [ite_dev]

@[simp] theorem thermEval_chs (d : Dev) : (thermEval d).chs = d.chs := by
  unfold thermEval; (try dsimp only) <;> (repeat' split) <;> simp [ite_dev]

@[simp] theorem thermalDev_chs (d : Dev) (i : Sensor) (reading : Int) (fault : Bool) : (thermalDev d i reading fault).chs = d.chs := by
  unfold thermalDev; (try dsimp only) <;> (repeat' split) <;> simp [ite_dev]

@[simp] theorem setSensor_chs (d : Dev) (i : Nat) (f : Therm → Therm) : (setSensor d i f).chs = d.chs := by
  unfold setSensor; (try dsimp only) <;> (repeat' split) <;> simp [ite_dev]

@[simp] theorem swapSensor_chs (d : Dev) (i : Nat) : (swapSensor d i).chs = d.chs := by
  unfold swapSensor; (try dsimp only) <;> (repeat' split) <;> simp [ite_dev]

@[simp] theorem brokenDev_chs (d : Dev) (i : Sensor) : (brokenDev d i).chs = d.chs := by
  unfold brokenDev; (try dsimp only) <;> (repeat' split) <;> simp [ite_dev]

@[simp] theorem retireDev_chs (d : Dev) (i : Sensor) : (retireDev d i).chs = d.chs := by
  unfold retireDev; (try dsimp only) <;> (repeat' split) <;> simp [ite_dev]

@[simp] theorem nvOwn_chs (d : Dev) (j : NvJob) : (nvOwn d j).chs = d.chs := by
  unfold nvOwn; (try dsimp only) <;> (repeat' split) <;> simp [ite_dev]

@[simp] theorem nvWindowDev_chs (d : Dev) : (nvWindowDev d).chs = d.chs := by
  unfold nvWindowDev; (try dsimp only) <;> (repeat' split) <;> simp [ite_dev]

@[simp] theorem healthDev_chs (d : Dev) : (healthDev d).chs = d.chs := by
  unfold healthDev; (try dsimp only) <;> (repeat' split) <;> simp [ite_dev]

@[simp] theorem pollDev_chs (d : Dev) (answered : Bool) (hsvP hsvN : Nat) (levels : PollLevels) : (pollDev d answered hsvP hsvN levels).chs = d.chs := by
  unfold pollDev; (try dsimp only) <;> (repeat' split) <;> simp [ite_dev]

@[simp] theorem refQualDev_chs (d : Dev) (e : Fin 3) (rate : Fin 8) : (refQualDev d e rate).chs = d.chs := by
  unfold refQualDev; (try dsimp only) <;> (repeat' split) <;> simp [ite_dev]

@[simp] theorem marksAbsent_chs (d : Dev) : (marksAbsent d).chs = d.chs := by
  unfold marksAbsent; (try dsimp only) <;> (repeat' split) <;> simp [ite_dev]

@[simp] theorem refLostDev_chs (d : Dev) (e : Fin 3) : (refLostDev d e).chs = d.chs := by
  unfold refLostDev; (try dsimp only) <;> (repeat' split) <;> simp [ite_dev]

@[simp] theorem dropSapRef_chs (d : Dev) : (dropSapRef d).chs = d.chs := by
  unfold dropSapRef; (try dsimp only) <;> (repeat' split) <;> simp [ite_dev]

@[simp] theorem selectSrc_chs (d : Dev) (x : BitVec 2) : (selectSrc d x).chs = d.chs := by
  unfold selectSrc; (try dsimp only) <;> (repeat' split) <;> simp [ite_dev]

@[simp] theorem refSelectDev_chs (d : Dev) : (refSelectDev d).chs = d.chs := by
  unfold refSelectDev; (try dsimp only) <;> (repeat' split) <;> simp [ite_dev]

@[simp] theorem refRevertDev_chs (d : Dev) : (refRevertDev d).chs = d.chs := by
  unfold refRevertDev; (try dsimp only) <;> (repeat' split) <;> simp [ite_dev]

@[simp] theorem snapCaptureDev_chs (d : Dev) : (snapCaptureDev d).chs = d.chs := by
  unfold snapCaptureDev; (try dsimp only) <;> (repeat' split) <;> simp [ite_dev]

@[simp] theorem dropAct_chs (d : Dev) (r : CmdRef) : (dropAct d r).chs = d.chs := by
  unfold dropAct; (try dsimp only) <;> (repeat' split) <;> simp [ite_dev]

@[simp] theorem setFlight_chs (d : Dev) (o : Nat) (u : Flight → Flight) : (setFlight d o u).chs = d.chs := by
  unfold setFlight; (try dsimp only) <;> (repeat' split) <;> simp [ite_dev]

@[simp] theorem lateFlight_chs (d : Dev) (f : Flight) : (lateFlight d f).chs = d.chs := by
  unfold lateFlight; (try dsimp only) <;> (repeat' split) <;> simp [ite_dev]

@[simp] theorem resolveFrame_chs (d : Dev) (n mark : Nat) : (resolveFrame d n mark).chs = d.chs := by
  unfold resolveFrame; (try dsimp only) <;> (repeat' split) <;> simp [ite_dev]

@[simp] theorem skipFrames_chs (d : Dev) (lo hi : Nat) : (skipFrames d lo hi).chs = d.chs := by
  unfold skipFrames; (try dsimp only) <;> (repeat' split) <;> simp [ite_dev]

@[simp] theorem markReceived_chs (d : Dev) (frame stc phase : Nat) : (markReceived d frame stc phase).chs = d.chs := by
  unfold markReceived; (try dsimp only) <;> (repeat' split) <;> simp [ite_dev]

@[simp] theorem frameDelivered_chs (d : Dev) (n : Nat) : (frameDelivered d n).chs = d.chs := by
  unfold frameDelivered; (try dsimp only) <;> (repeat' split) <;> simp [ite_dev]

@[simp] theorem zaithDev_chs (d : Dev) (w : W64) (phase : Nat) : (zaithDev d w phase).chs = d.chs := by
  unfold zaithDev; (try dsimp only) <;> (repeat' split) <;> simp [ite_dev]

@[simp] theorem sapFrameDev_chs (d : Dev) (p : Port) (bs : List Bool) (clocks : Nat) : (sapFrameDev d p bs clocks).chs = d.chs := by
  unfold sapFrameDev; (try dsimp only) <;> (repeat' split) <;> simp [ite_dev]

@[simp] theorem sapTimeoutDev_chs (d : Dev) (p : Port) : (sapTimeoutDev d p).chs = d.chs := by
  unfold sapTimeoutDev; (try dsimp only) <;> (repeat' split) <;> simp [ite_dev]

@[simp] theorem partnerDev_chs (d : Dev) (p : Port) (bclk mhz : Nat) : (partnerDev d p bclk mhz).chs = d.chs := by
  unfold partnerDev; (try dsimp only) <;> (repeat' split) <;> simp [ite_dev]

@[simp] theorem rescaleTile_chs (d : Dev) (t : LTile) : (rescaleTile d t).chs = d.chs := by
  unfold rescaleTile; (try dsimp only) <;> (repeat' split) <;> simp [ite_dev]

@[simp] theorem doTableRead_chs (d : Dev) (r : CmdRef) (c : Ch) (kind : Fin 3) (q : Fin 8) : (doTableRead d r c kind q).chs = d.chs := by
  unfold doTableRead; (try dsimp only) <;> (repeat' split) <;> simp [ite_dev]

@[simp] theorem streamCopy_chs (d : Dev) (r : CmdRef) (h : Nat) (fin : Bool) (samples : List Int) (start : Option Nat) : (streamCopy d r h fin samples start).chs = d.chs := by
  unfold streamCopy; (try dsimp only) <;> (repeat' split) <;> simp [ite_dev]

@[simp] theorem doStreamWrite_chs (d : Dev) (r : CmdRef) (h : Nat) (fin : Bool) (samples : List Int) (start : Option Nat) : (doStreamWrite d r h fin samples start).chs = d.chs := by
  unfold doStreamWrite; (try dsimp only) <;> (repeat' split) <;> simp [ite_dev]

@[simp] theorem streamRoomDev_chs (d : Dev) (h : Nat) : (streamRoomDev d h).chs = d.chs := by
  unfold streamRoomDev
  refine foldl_keeps Dev.chs _ (fun e a => ?_) _ d
  (repeat' split) <;> simp

@[simp] theorem applySet_chs (d : Dev) (o : SetObj) : (applySet d o).chs = d.chs := by cases o <;> simp [applySet]

@[simp] theorem doTimedSet_chs (d : Dev) (r : CmdRef) (o : SetObj) : (doTimedSet d r o).chs = d.chs := by
  unfold doTimedSet; (repeat' split) <;> simp

@[simp] theorem doTraj_chs (d : Dev) (r : CmdRef) (o : GainObj) (log : Bool) (g1 : Int) (steps : Nat) : (doTraj d r o log g1 steps).chs = d.chs := by
  unfold doTraj; (try dsimp only) <;> (repeat' split) <;> simp [ite_dev]

@[simp] theorem doInjectArm_chs (d : Dev) (r : CmdRef) (recs : List InjectRec) : (doInjectArm d r recs).chs = d.chs := by
  unfold doInjectArm; (try dsimp only) <;> (repeat' split) <;> simp [ite_dev]

@[simp] theorem doInjectStop_chs (d : Dev) (r : CmdRef) (gens : Byte) (taps units : BitVec 16) : (doInjectStop d r gens taps units).chs = d.chs := by
  unfold doInjectStop; (try dsimp only) <;> (repeat' split) <;> simp [ite_dev]

@[simp] theorem doCaptureRead_chs (d : Dev) (r : CmdRef) (u : Fin 16) (start : Nat) : (doCaptureRead d r u start).chs = d.chs := by
  unfold doCaptureRead; (try dsimp only) <;> (repeat' split) <;> simp [ite_dev]

@[simp] theorem setMismatch_chs (d : Dev) (c : Ch) : (setMismatch d c).chs = d.chs := by
  unfold setMismatch; (try dsimp only) <;> (repeat' split) <;> simp [ite_dev]

@[simp] theorem sweepUnitsOff_chs (d : Dev) (c : Ch) (m : Meas) : (sweepUnitsOff d c m).chs = d.chs := by
  unfold sweepUnitsOff; (try dsimp only) <;> (repeat' split) <;> simp [ite_dev]

@[simp] theorem supplyEnd_chs (d : Dev) (tileP tileN : PTile) : (supplyEnd d tileP tileN).chs = d.chs := by
  unfold supplyEnd; (try dsimp only) <;> (repeat' split) <;> simp [ite_dev]

@[simp] theorem dev_flights_chs (d : Dev) (f : List Flight → List Flight) : (Dev.flights d f).chs = d.chs := by
  unfold Dev.flights; (try dsimp only) <;> (repeat' split) <;> simp [ite_dev]

@[simp] theorem dev_flight_chs (d : Dev) (r : CmdRef) (f : Flight → Flight) : (Dev.flight d r f).chs = d.chs := by
  unfold Dev.flight; (try dsimp only) <;> (repeat' split) <;> simp [ite_dev]

@[simp] theorem dropFlight_chs (d : Dev) (r : CmdRef) : (dropFlight d r).chs = d.chs := by
  unfold dropFlight; (try dsimp only) <;> (repeat' split) <;> simp [ite_dev]

@[simp] theorem addFlight_chs (d : Dev) (f : Flight) : (addFlight d f).chs = d.chs := by
  unfold addFlight; (try dsimp only) <;> (repeat' split) <;> simp [ite_dev]

@[simp] theorem commitDev_chs (d : Dev) (q : QId) (cid : BitVec 16) : (commitDev d q cid).chs = d.chs := by
  unfold commitDev; (try dsimp only) <;> (repeat' split) <;> simp [ite_dev]

@[simp] theorem weltRamp_chs (old : Option Image) (new : Image) (d : Dev) (c : Ch) : (weltRamp old new d c).chs = d.chs := by
  unfold weltRamp; (try dsimp only) <;> (repeat' split) <;> simp [ite_dev]

@[simp] theorem zeroOuter_chs (old : Option Image) (new : Image) (d : Dev) (c : Ch) : (zeroOuter old new d c).chs = d.chs := by
  unfold zeroOuter; (try dsimp only) <;> (repeat' split) <;> simp [ite_dev]

@[simp] theorem endForeign_chs (d : Dev) : (endForeign d).chs = d.chs := by
  unfold endForeign; (try dsimp only) <;> (repeat' split) <;> simp [ite_dev]

@[simp] theorem installSound_chs (old : Option Image) (new : Image) (d : Dev) : (installSound old new d).chs = d.chs := by
  unfold installSound; (try dsimp only) <;> (repeat' split) <;> simp [ite_dev]

@[simp] theorem setBudget_chs (d : Dev) (b : List Byte) : (setBudget d b).chs = d.chs := by
  unfold setBudget; (try dsimp only) <;> (repeat' split) <;> simp [ite_dev]

@[simp] theorem installRest_chs (new : Image) (d : Dev) : (installRest new d).chs = d.chs := by
  unfold installRest; (try dsimp only) <;> (repeat' split) <;> simp [ite_dev]

@[simp] theorem installCore_chs (new : Image) (slot : Nat) (d : Dev) : (installCore new slot d).chs = d.chs := by
  unfold installCore; (try dsimp only) <;> (repeat' split) <;> simp [ite_dev]

@[simp] theorem stagingEndDev_chs (d : Dev) : (stagingEndDev d).chs = d.chs := by
  unfold stagingEndDev; (try dsimp only) <;> (repeat' split) <;> simp [ite_dev]

@[simp] theorem abandonAct_chs (d : Dev) : (abandonAct d).chs = d.chs := by
  unfold abandonAct; (try dsimp only) <;> (repeat' split) <;> simp [ite_dev]

@[simp] theorem mismatchAt_chs (d : Dev) (r : CmdRef) (op : Nat) (i : FailInfo) : (mismatchAt d r op i).chs = d.chs := by
  unfold mismatchAt; (try dsimp only) <;> (repeat' split) <;> simp [ite_dev]

@[simp] theorem tempRefuse_chs (d : Dev) (r : CmdRef) (op : Nat) : (tempRefuse d r op).chs = d.chs := by
  unfold tempRefuse; (try dsimp only) <;> (repeat' split) <;> simp [ite_dev]

@[simp] theorem doActivate_chs (d : Dev) (r : CmdRef) (cmd : Instr) (slot : Fin 4) (w0 : When) (late mark : Bool) : (doActivate d r cmd slot w0 late mark).chs = d.chs := by
  unfold doActivate; (try dsimp only) <;> (repeat' split) <;> simp [ite_dev]

@[simp] theorem autoLoadFail_chs (d : Dev) (i : FailInfo) : (autoLoadFail d i).chs = d.chs := by
  unfold autoLoadFail; (try dsimp only) <;> (repeat' split) <;> simp [ite_dev]

@[simp] theorem autoLoadDev_chs (d : Dev) : (autoLoadDev d).chs = d.chs := by
  unfold autoLoadDev; (try dsimp only) <;> (repeat' split) <;> simp [ite_dev]

@[simp] theorem doTelemetry_chs (d : Dev) (r : CmdRef) (o n : Nat) : (doTelemetry d r o n).chs = d.chs := by
  unfold doTelemetry; (try dsimp only) <;> (repeat' split) <;> simp [ite_dev]

@[simp] theorem doGetLog_chs (d : Dev) (r : CmdRef) (page : Byte) (o : Nat) : (doGetLog d r page o).chs = d.chs := by
  unfold doGetLog; (try dsimp only) <;> (repeat' split) <;> simp [ite_dev]

@[simp] theorem doIdentify_chs (d : Dev) (r : CmdRef) (bs : List Byte) : (doIdentify d r bs).chs = d.chs := by
  unfold doIdentify; (try dsimp only) <;> (repeat' split) <;> simp [ite_dev]

@[simp] theorem doGetFeature_chs (d : Dev) (r : CmdRef) (fid : Nat) : (doGetFeature d r fid).chs = d.chs := by
  unfold doGetFeature; (try dsimp only) <;> (repeat' split) <;> simp [ite_dev]

@[simp] theorem putFeature_chs (d : Dev) (fid v : Nat) (b : List Byte) : (putFeature d fid v b).chs = d.chs := by
  unfold putFeature; (try dsimp only) <;> (repeat' split) <;> simp [ite_dev]

@[simp] theorem doSetFeature_chs (d : Dev) (r : CmdRef) (fid v : Nat) (b : List Byte) : (doSetFeature d r fid v b).chs = d.chs := by
  unfold doSetFeature; (try dsimp only) <;> (repeat' split) <;> simp [ite_dev]

@[simp] theorem doCreate_chs (d : Dev) (r : CmdRef) (c : QueueCfg) : (doCreate d r c).chs = d.chs := by
  unfold doCreate; (try dsimp only) <;> (repeat' split) <;> simp [ite_dev]

@[simp] theorem waiterFinish_chs (d : Dev) (w : Waiter) : (waiterFinish d w).chs = d.chs := by
  unfold waiterFinish; (try dsimp only) <;> (repeat' split) <;> simp [ite_dev]

@[simp] theorem waiterPut_chs (d : Dev) (w : Waiter) : (waiterPut d w).chs = d.chs := by
  unfold waiterPut; (try dsimp only) <;> (repeat' split) <;> simp [ite_dev]

@[simp] theorem waiterCheck_chs (d : Dev) (kinds : List Nat) (q : QId) (cid : BitVec 16) : (waiterCheck d kinds q cid).chs = d.chs := by
  unfold waiterCheck; (try dsimp only) <;> (repeat' split) <;> simp [ite_dev]

@[simp] theorem doFlush_chs (d : Dev) (r : CmdRef) (scope : Nat) : (doFlush d r scope).chs = d.chs := by
  unfold doFlush; (try dsimp only) <;> (repeat' split) <;> simp [ite_dev]

@[simp] theorem doDownload_chs (d : Dev) (r : CmdRef) (o : Nat) (chunk : List Byte) : (doDownload d r o chunk).chs = d.chs := by
  unfold doDownload; (try dsimp only) <;> (repeat' split) <;> simp [ite_dev]

@[simp] theorem nvCommand_chs (d : Dev) (r : CmdRef) (op : Nat) (j : NvJob) : (nvCommand d r op j).chs = d.chs := by
  unfold nvCommand; (try dsimp only) <;> (repeat' split) <;> simp [ite_dev]

@[simp] theorem doCommit_chs (d : Dev) (r : CmdRef) (slot : Fin 2) (boot : Bool) : (doCommit d r slot boot).chs = d.chs := by
  unfold doCommit; (try dsimp only) <;> (repeat' split) <;> simp [ite_dev]

@[simp] theorem doMarkBoot_chs (d : Dev) (r : CmdRef) (slot : Fin 2) : (doMarkBoot d r slot).chs = d.chs := by
  unfold doMarkBoot; (try dsimp only) <;> (repeat' split) <;> simp [ite_dev]

@[simp] theorem doImageLoad_chs (d : Dev) (r : CmdRef) (slot : Fin 4) (fin : Bool) (o : Nat) (chunk : List Byte) : (doImageLoad d r slot fin o chunk).chs = d.chs := by
  unfold doImageLoad; (try dsimp only) <;> (repeat' split) <;> simp [ite_dev]

@[simp] theorem doMark_chs (d : Dev) (r : CmdRef) (cmd : Instr) (slot : Fin 4) (set : Bool) : (doMark d r cmd slot set).chs = d.chs := by
  unfold doMark; (try dsimp only) <;> (repeat' split) <;> simp [ite_dev]

@[simp] theorem doFwActivate_chs (d : Dev) (r : CmdRef) (slot : Fin 2) : (doFwActivate d r slot).chs = d.chs := by
  unfold doFwActivate; (try dsimp only) <;> (repeat' split) <;> simp [ite_dev]

@[simp] theorem readyQ0_chs (d : Dev) : (readyQ0 d).chs = d.chs := by
  unfold readyQ0; (try dsimp only) <;> (repeat' split) <;> simp [ite_dev]

@[simp] theorem fwResume_chs (d : Dev) (ok : Bool) : (fwResume d ok).chs = d.chs := by
  unfold fwResume; (try dsimp only) <;> (repeat' split) <;> simp [ite_dev]

@[simp] theorem qifErr_chs (d : Dev) (q kind : Nat) : (qifErr d q kind).chs = d.chs := by
  unfold qifErr; (try dsimp only) <;> (repeat' split) <;> simp [ite_dev]

@[simp] theorem ringWrite_chs (d : Dev) (q : QId) (v : W32) (depth : Queue → Nat) (f : Nat → Queue → Queue) : (ringWrite d q v depth f).chs = d.chs := by
  unfold ringWrite; (try dsimp only) <;> (repeat' split) <;> simp [ite_dev]

@[simp] theorem tailWrite_chs (d : Dev) (q : QId) (v : W32) : (tailWrite d q v).chs = d.chs := by
  unfold tailWrite; (try dsimp only) <;> (repeat' split) <;> simp [ite_dev]

@[simp] theorem headWrite_chs (d : Dev) (q : QId) (v : W32) : (headWrite d q v).chs = d.chs := by
  unfold headWrite; (try dsimp only) <;> (repeat' split) <;> simp [ite_dev]

@[simp] theorem refuseDup_chs (d : Dev) (r : CmdRef) (op status : Nat) : (refuseDup d r op status).chs = d.chs := by
  unfold refuseDup; (try dsimp only) <;> (repeat' split) <;> simp [ite_dev]

@[simp] theorem placeIo_chs (d : Dev) (r : CmdRef) (x : Entry) : (placeIo d r x).chs = d.chs := by
  unfold placeIo; (try dsimp only) <;> (repeat' split) <;> simp [ite_dev]

@[simp] theorem coalesce_chs (d : Dev) (v : Nat) : (coalesce d v).chs = d.chs := by
  unfold coalesce; (try dsimp only) <;> (repeat' split) <;> simp [ite_dev]

@[simp] theorem cqSignal_chs (d : Dev) (c : Completion) (q : Queue) : (cqSignal d c q).chs = d.chs := by
  unfold cqSignal; (try dsimp only) <;> (repeat' split) <;> simp [ite_dev]

@[simp] theorem postOne_chs (d : Dev) (c : Completion) (q : Queue) : (postOne d c q).chs = d.chs := by
  unfold postOne; (try dsimp only) <;> (repeat' split) <;> simp [ite_dev]

@[simp] theorem postDev_chs (d : Dev) : (postDev d).chs = d.chs := by
  unfold postDev; (try dsimp only) <;> (repeat' split) <;> simp [ite_dev]

@[simp] theorem sendPending_chs (d : Dev) : (sendPending d).chs = d.chs := by
  unfold sendPending; (try dsimp only) <;> (repeat' split) <;> simp [ite_dev]

@[simp] theorem unmaskDev_chs (d : Dev) (v : Option Nat) : (unmaskDev d v).chs = d.chs := by
  unfold unmaskDev; (try dsimp only) <;> (repeat' split) <;> simp [ite_dev]

@[simp] theorem msixWrite_chs (d : Dev) (o v : Nat) : (msixWrite d o v).chs = d.chs := by
  unfold msixWrite; (try dsimp only) <;> (repeat' split) <;> simp [ite_dev]

@[simp] theorem enableDev_chs (d : Dev) : (enableDev d).chs = d.chs := by
  unfold enableDev; (try dsimp only) <;> (repeat' split) <;> simp [ite_dev]

@[simp] theorem startWrite_chs (d : Dev) (f : Flight) (h : HStream) : (startWrite d f h).chs = d.chs := by
  unfold startWrite; (try dsimp only) <;> (repeat' split) <;> simp [ite_dev]

@[simp] theorem startsHere_chs (d : Dev) : (startsHere d).chs = d.chs := by
  unfold startsHere
  exact foldl_keeps Dev.chs _ (fun e a => foldl_keeps Dev.chs _ (fun e b => by simp) _ e) _ d

@[simp] theorem countUnavailable_chs (d : Dev) : (countUnavailable d).chs = d.chs := by
  unfold countUnavailable; (try dsimp only) <;> (repeat' split) <;> simp [ite_dev]

@[simp] theorem shiftTiles_chs (d : Dev) : (shiftTiles d).chs = d.chs := by
  unfold shiftTiles; (try dsimp only) <;> (repeat' split) <;> simp [ite_dev]

@[simp] theorem railsFi_chs (d : Dev) : (railsFi d).chs = d.chs := by
  unfold railsFi; (try dsimp only) <;> (repeat' split) <;> simp [ite_dev]

@[simp] theorem muteFi_chs (d : Dev) : (muteFi d).chs = d.chs := by
  unfold muteFi; (try dsimp only) <;> (repeat' split) <;> simp [ite_dev]

@[simp] theorem tickStc_chs (d : Dev) : (tickStc d).chs = d.chs := by
  unfold tickStc; (try dsimp only) <;> (repeat' split) <;> simp [ite_dev]

@[simp] theorem retireTile_chs (d : Dev) (p : Nat) : (retireTile d p).chs = d.chs := by
  unfold retireTile; (try dsimp only) <;> (repeat' split) <;> simp [ite_dev]

@[simp] theorem noteFailover_chs (d : Dev) (t : LTile) (src dst cause : Nat) : (noteFailover d t src dst cause).chs = d.chs := by
  unfold noteFailover; (try dsimp only) <;> (repeat' split) <;> simp [ite_dev]

@[simp] theorem takeoverDev_chs (d : Dev) (t : LTile) : (takeoverDev d t).chs = d.chs := by
  unfold takeoverDev; (try dsimp only) <;> (repeat' split) <;> simp [ite_dev]

@[simp] theorem countUnc_chs (d : Dev) (wher : Nat) : (countUnc d wher).chs = d.chs := by
  unfold countUnc; (try dsimp only) <;> (repeat' split) <;> simp [ite_dev]

@[simp] theorem eccDelay_chs (d : Dev) (c : Ch) (word : Nat) : (eccDelay d c word).chs = d.chs := by
  unfold eccDelay; (try dsimp only) <;> (repeat' split) <;> simp [ite_dev]

@[simp] theorem remapRow_chs (d : Dev) (r : RowAddr) : (remapRow d r).chs = d.chs := by
  unfold remapRow; (try dsimp only) <;> (repeat' split) <;> simp [ite_dev]

@[simp] theorem telemetryDev_chs (d : Dev) : (telemetryDev d).chs = d.chs := by
  unfold telemetryDev; (try dsimp only) <;> (repeat' split) <;> simp [ite_dev]

@[simp] theorem nvUndo_chs (d : Dev) (j : NvJob) : (nvUndo d j).chs = d.chs := by
  unfold nvUndo; (try dsimp only) <;> (repeat' split) <;> simp [ite_dev]

@[simp] theorem nvApply_chs (d : Dev) (j : NvJob) : (nvApply d j).chs = d.chs := by
  cases j <;> dsimp only [nvApply] <;> (repeat' split) <;> simp

@[simp] theorem nvEnd_chs (d : Dev) : (nvEnd d).chs = d.chs := by
  unfold nvEnd
  rw [foldl_keeps Dev.chs _ (fun e a => by simp), foldl_keeps Dev.chs _ (fun e a => by simp)]; rfl

@[simp] theorem audioUpDev_chs (d : Dev) : (audioUpDev d).chs = d.chs := by
  unfold audioUpDev; (try dsimp only) <;> (repeat' split) <;> simp [ite_dev]

@[simp] theorem stewardsDev_chs (d : Dev) : (stewardsDev d).chs = d.chs := by
  unfold stewardsDev; (try dsimp only) <;> (repeat' split) <;> simp [ite_dev]

@[simp] theorem preStartDev_chs (d : Dev) : (preStartDev d).chs = d.chs := by
  unfold preStartDev; (try dsimp only) <;> (repeat' split) <;> simp [ite_dev]

@[simp] theorem preMeasure_chs (d : Dev) (neg : Bool) (rise : Option (Nat × Nat)) (fall : Option Nat) : (preMeasure d neg rise fall).chs = d.chs := by
  unfold preMeasure; (try dsimp only) <;> (repeat' split) <;> simp [ite_dev]

@[simp] theorem preStageDev_chs (d : Dev) (neg : Bool) (rise : Option (Nat × Nat)) (fall : Option Nat) : (preStageDev d neg rise fall).chs = d.chs := by
  unfold preStageDev; (try dsimp only) <;> (repeat' split) <;> simp [ite_dev]

@[simp] theorem preDoneDev_chs (d : Dev) : (preDoneDev d).chs = d.chs := by
  unfold preDoneDev; (try dsimp only) <;> (repeat' split) <;> simp [ite_dev]

@[simp] theorem preFailDev_chs (d : Dev) (timeout : Bool) : (preFailDev d timeout).chs = d.chs := by
  unfold preFailDev; (try dsimp only) <;> (repeat' split) <;> simp [ite_dev]

@[simp] theorem preRetryDev_chs (d : Dev) (v : W32) : (preRetryDev d v).chs = d.chs := by
  unfold preRetryDev; (try dsimp only) <;> (repeat' split) <;> simp [ite_dev]

@[simp] theorem doorbell_chs (d : Dev) (o : Nat) (w : W32) : (doorbell d o w).chs = d.chs := by
  unfold doorbell; (try dsimp only) <;> (repeat' split) <;> simp [ite_dev]

@[simp] theorem dev_grd_chs (d : Dev) (f : Guard → Guard) : (Dev.grd d f).chs = d.chs := by
  unfold Dev.grd; (try dsimp only) <;> (repeat' split) <;> simp [ite_dev]

@[simp] theorem setPtrDev_chs (d : Dev) (v : Nat) : (setPtrDev d v).chs = d.chs := by
  unfold setPtrDev; (try dsimp only) <;> (repeat' split) <;> simp [ite_dev]

@[simp] theorem smbReadDev_chs (d : Dev) (answers : Bool) : (smbReadDev d answers).chs = d.chs := by
  unfold smbReadDev; (try dsimp only) <;> (repeat' split) <;> simp [ite_dev]

@[simp] theorem setHistDev_chs (d : Dev) (v : Nat) : (setHistDev d v).chs = d.chs := by
  unfold setHistDev; (try dsimp only) <;> (repeat' split) <;> simp [ite_dev]

@[simp] theorem histDev_chs (d : Dev) : (histDev d).chs = d.chs := by
  unfold histDev; (try dsimp only) <;> (repeat' split) <;> simp [ite_dev]

@[simp] theorem smbStatusDev_chs (d : Dev) : (smbStatusDev d).chs = d.chs := by
  unfold smbStatusDev; (try dsimp only) <;> (repeat' split) <;> simp [ite_dev]

@[simp] theorem alertDev_chs (d : Dev) : (alertDev d).chs = d.chs := by
  unfold alertDev; (try dsimp only) <;> (repeat' split) <;> simp [ite_dev]

@[simp] theorem jtagDev_chs (d : Dev) (i : JtagInstr) : (jtagDev d i).chs = d.chs := by
  unfold jtagDev; (try dsimp only) <;> (repeat' split) <;> simp [ite_dev]

end Sys2Proof.Machine
end

