-- ==== Sys2Proof/Laws/SafeSteps.lean ====
section
/-!
SUPPORT. The parts of the commands that change channels keep a safe state safe: no channel's two switches can both be on, and a latched or
out-of-service channel is not released (Safety).
-/

set_option Elab.async false
set_option linter.all false

namespace Sys2Proof.Machine

@[simp] theorem measComplete_sound (d : Dev) (c : Ch) (m : Meas) (status : Nat) (h : Sound d.chs) : Sound (measComplete d c m status).chs := by
  unfold measComplete; (try dsimp only) <;> (repeat' split) <;> simp +contextual (maxDischargeDepth := 9) [h, foldl_sound, forCh_sound, ch_sound, chAll_sound, sound_tab, keeps_iff, keepsAll_iff, keepsSafe_iff, Chan.sound, Mod.sound, ite_dev, sound_ite]

@[simp] theorem measStop_sound (d : Dev) (c : Ch) (status : Nat) (h : Sound d.chs) : Sound (measStop d c status).chs := by
  unfold measStop
  dsimp only
  split
  · exact h
  · refine measComplete_sound _ _ _ _ (forCh_sound _ _ _ h fun e k he => ch_sound _ _ _ he fun x hx => ?_)
    split
    · rfl
    · exact hx

@[simp] theorem measAbort_sound (d : Dev) (c : Ch) (status : Nat) (h : Sound d.chs) : Sound (measAbort d c status).chs := by
  unfold measAbort; (try dsimp only) <;> (repeat' split) <;> simp +contextual (maxDischargeDepth := 9) [h, foldl_sound, forCh_sound, ch_sound, chAll_sound, sound_tab, keeps_iff, keepsAll_iff, keepsSafe_iff, Chan.sound, Mod.sound, ite_dev, sound_ite]

@[simp] theorem measOutside_sound (d : Dev) (c : Ch) (h : Sound d.chs) : Sound (measOutside d c).chs := by
  unfold measOutside
  dsimp only
  split
  · exact h
  · refine measComplete_sound _ _ _ _ (forCh_sound _ _ _ h fun e k he => ch_sound _ _ _ he fun x hx => ?_)
    split
    · exact sound_same x _ hx rfl rfl rfl rfl rfl rfl
    · exact hx

@[simp] theorem dev_stat_sound (d : Dev) (c : Ch) (f : LoopStat → LoopStat) (h : Sound d.chs) : Sound (Dev.stat d c f).chs := by
  unfold Dev.stat; (try dsimp only) <;> (repeat' split) <;> simp +contextual (maxDischargeDepth := 9) [h, foldl_sound, forCh_sound, ch_sound, chAll_sound, sound_tab, keeps_iff, keepsAll_iff, keepsSafe_iff, Chan.sound, Mod.sound, ite_dev, sound_ite]

@[simp] theorem senseLane_sound (d : Dev) (t : LTile) (s : Stitch) (c : Ch) (i m : Nat) (h : Sound d.chs) : Sound (senseLane d t s c i m).chs := by
  unfold senseLane; (try dsimp only) <;> (repeat' split) <;> simp +contextual (maxDischargeDepth := 9) [h, foldl_sound, forCh_sound, ch_sound, chAll_sound, sound_tab, keeps_iff, keepsAll_iff, keepsSafe_iff, Chan.sound, Mod.sound, ite_dev, sound_ite]

@[simp] theorem noteSat_sound (img : Image) (t : LTile) (s : Stitch) (i : Nat) (d : Dev) (h : Sound d.chs) : Sound (noteSat img t s i d).chs := by
  unfold noteSat; (try dsimp only) <;> (repeat' split) <;> simp +contextual (maxDischargeDepth := 9) [h, foldl_sound, forCh_sound, ch_sound, chAll_sound, sound_tab, keeps_iff, keepsAll_iff, keepsSafe_iff, Chan.sound, Mod.sound, ite_dev, sound_ite]

@[simp] theorem innerLane_sound (d : Dev) (img : Image) (t : LTile) (s : Stitch) (m : Nat) (i : Nat) (h : Sound d.chs) : Sound (innerLane d img t s m i).chs := by
  have st : ∀ (e : Dev) (k : Ch) (g : LoopStat → LoopStat), e.chs = d.chs → Sound (e.stat k g).chs := fun e k g he =>
    dev_stat_sound e k g (by rw [he]; exact h)
  unfold innerLane
  dsimp only
  refine sound_if _ _ _ (fun _ => ?_) fun _ => sound_if _ _ _ (fun _ => sound_if _ _ _ (fun _ => h) fun _ => st _ _ _ rfl) fun _ => ?_
  · simp [h]
  refine sound_if _ _ _ (fun _ => st _ _ _ rfl) fun _ => sound_if _ _ _ (fun _ => h) fun _ => sound_if _ _ _ (fun _ => h) fun _ => ?_
  refine sound_if _ _ _ (fun _ => h) fun _ => sound_if _ _ _ (fun _ => h) fun _ => sound_if _ _ _ (fun _ => h) fun _ => ?_
  refine sound_if _ _ _ (fun _ => st _ _ _ rfl) fun _ => sound_if _ _ _ (fun _ => ?_) fun _ => ?_
  · exact ch_sound _ _ _ h fun x hx => sound_same x _ hx rfl rfl rfl rfl rfl rfl
  refine sound_if _ _ _ (fun _ => st _ _ _ rfl) fun _ => sound_if _ _ _ (fun _ => h) fun _ => sound_if _ _ _ (fun _ => ?_) fun _ => h
  simp [h]

@[simp] theorem fcStatus_sound (d : Dev) (t : LTile) (h : Sound d.chs) : Sound (fcStatus d t).chs := by
  unfold fcStatus; (try dsimp only) <;> (repeat' split) <;> simp +contextual (maxDischargeDepth := 9) [h, foldl_sound, forCh_sound, ch_sound, chAll_sound, sound_tab, keeps_iff, keepsAll_iff, keepsSafe_iff, Chan.sound, Mod.sound, ite_dev, sound_ite]

@[simp] theorem bindRecord_sound (d : Dev) (c : Ch) (h : Sound d.chs) : Sound (bindRecord d c).chs := by
  unfold bindRecord; (try dsimp only) <;> (repeat' split) <;> simp +contextual (maxDischargeDepth := 9) [h, foldl_sound, forCh_sound, ch_sound, chAll_sound, sound_tab, keeps_iff, keepsAll_iff, keepsSafe_iff, Chan.sound, Mod.sound, ite_dev, sound_ite]

@[simp] theorem dev_sns_sound (d : Dev) (c : Ch) (f : Sense → Sense) (h : Sound d.chs) : Sound (Dev.sns d c f).chs := by
  unfold Dev.sns; (try dsimp only) <;> (repeat' split) <;> simp +contextual (maxDischargeDepth := 9) [h, foldl_sound, forCh_sound, ch_sound, chAll_sound, sound_tab, keeps_iff, keepsAll_iff, keepsSafe_iff, Chan.sound, Mod.sound, ite_dev, sound_ite]

@[simp] theorem excurLane_sound (d : Dev) (t : LTile) (s : Stitch) (c : Ch) (h : Sound d.chs) : Sound (excurLane d t s c).chs := by
  unfold excurLane
  exact ch_sound _ _ _ (by simp [h]) fun x hx => sound_same x _ hx rfl rfl rfl rfl rfl rfl

@[simp] theorem thermalLane_sound (d : Dev) (t : LTile) (s : Stitch) (c : Ch) (h : Sound d.chs) : Sound (thermalLane d t s c).chs := by
  unfold thermalLane; (try dsimp only) <;> (repeat' split) <;> simp +contextual (maxDischargeDepth := 9) [h, foldl_sound, forCh_sound, ch_sound, chAll_sound, sound_tab, keeps_iff, keepsAll_iff, keepsSafe_iff, Chan.sound, Mod.sound, ite_dev, sound_ite]

@[simp] theorem setOrigin_sound (d : Dev) (c : Ch) (h : Sound d.chs) : Sound (setOrigin d c).chs := by
  unfold setOrigin; (try dsimp only) <;> (repeat' split) <;> simp +contextual (maxDischargeDepth := 9) [h, foldl_sound, forCh_sound, ch_sound, chAll_sound, sound_tab, keeps_iff, keepsAll_iff, keepsSafe_iff, Chan.sound, Mod.sound, ite_dev, sound_ite]

@[simp] theorem outerStat_sound (d : Dev) (t : LTile) (s : Stitch) (c : Ch) (h : Sound d.chs) : Sound (outerStat d t s c).chs := by
  unfold outerStat; (try dsimp only) <;> (repeat' split) <;> simp +contextual (maxDischargeDepth := 9) [h, foldl_sound, forCh_sound, ch_sound, chAll_sound, sound_tab, keeps_iff, keepsAll_iff, keepsSafe_iff, Chan.sound, Mod.sound, ite_dev, sound_ite]

@[simp] theorem outerDev_sound (d : Dev) (h : Sound d.chs) : Sound (outerDev d).chs := by
  unfold outerDev; (try dsimp only) <;> (repeat' split) <;> simp +contextual (maxDischargeDepth := 9) [h, foldl_sound, forCh_sound, ch_sound, chAll_sound, sound_tab, keeps_iff, keepsAll_iff, keepsSafe_iff, Chan.sound, Mod.sound, ite_dev, sound_ite]

@[simp] theorem windowOpen_sound (d : Dev) (c : Ch) (h : Sound d.chs) : Sound (windowOpen d c).chs := by
  unfold windowOpen; (try dsimp only) <;> (repeat' split) <;> simp +contextual (maxDischargeDepth := 9) [h, foldl_sound, forCh_sound, ch_sound, chAll_sound, sound_tab, keeps_iff, keepsAll_iff, keepsSafe_iff, Chan.sound, Mod.sound, ite_dev, sound_ite]

@[simp] theorem windowClose_sound (d : Dev) (c : Ch) (h : Sound d.chs) : Sound (windowClose d c).chs := by
  unfold windowClose; (try dsimp only) <;> (repeat' split) <;> simp +contextual (maxDischargeDepth := 9) [h, foldl_sound, forCh_sound, ch_sound, chAll_sound, sound_tab, keeps_iff, keepsAll_iff, keepsSafe_iff, Chan.sound, Mod.sound, ite_dev, sound_ite]

@[simp] theorem triggerStop_sound (d : Dev) (c : Ch) (h : Sound d.chs) : Sound (triggerStop d c).chs :=
  forCh_sound _ _ _ h fun _ _ he => ch_sound _ _ _ he triggerChan_sound

@[simp] theorem checkFinish_sound (d : Dev) (c : Ch) (cause status : Nat) (h : Sound d.chs) : Sound (checkFinish d c cause status).chs := by
  unfold checkFinish; (try dsimp only) <;> (repeat' split) <;> simp +contextual (maxDischargeDepth := 9) [h, foldl_sound, forCh_sound, ch_sound, chAll_sound, sound_tab, keeps_iff, keepsAll_iff, keepsSafe_iff, Chan.sound, Mod.sound, ite_dev, sound_ite, chanOff, gatesOff, edgesSound]

@[simp] theorem checkAbandon_sound (d : Dev) (c : Ch) (h : Sound d.chs) : Sound (checkAbandon d c).chs := by
  unfold checkAbandon; (try dsimp only) <;> (repeat' split) <;> simp +contextual (maxDischargeDepth := 9) [h, foldl_sound, forCh_sound, ch_sound, chAll_sound, sound_tab, keeps_iff, keepsAll_iff, keepsSafe_iff, Chan.sound, Mod.sound, ite_dev, sound_ite]

@[simp] theorem dropWork_sound (d : Dev) (c : Ch) (h : Sound d.chs) : Sound (dropWork d c).chs := by
  unfold dropWork; (try dsimp only) <;> (repeat' split) <;> simp +contextual (maxDischargeDepth := 9) [h, foldl_sound, forCh_sound, ch_sound, chAll_sound, sound_tab, keeps_iff, keepsAll_iff, keepsSafe_iff, Chan.sound, Mod.sound, ite_dev, sound_ite, dropWork]

@[simp] theorem guardOff_sound (d : Dev) (c : Ch) (h : Sound d.chs) : Sound (guardOff d c).chs := by
  unfold guardOff; (try dsimp only) <;> (repeat' split) <;> simp +contextual (maxDischargeDepth := 9) [h, foldl_sound, forCh_sound, ch_sound, chAll_sound, sound_tab, keeps_iff, keepsAll_iff, keepsSafe_iff, Chan.sound, Mod.sound, ite_dev, sound_ite, chanOff, gatesOff, edgesSound]

@[simp] theorem releaseAll_sound (d : Dev) (cause : Nat) (h : Sound d.chs) : Sound (releaseAll d cause).chs := by
  unfold releaseAll; (try dsimp only) <;> (repeat' split) <;> simp +contextual (maxDischargeDepth := 9) [h, foldl_sound, forCh_sound, ch_sound, chAll_sound, sound_tab, keeps_iff, keepsAll_iff, keepsSafe_iff, Chan.sound, Mod.sound, ite_dev, sound_ite, dropWork, chanOff, gatesOff, edgesSound]

@[simp] theorem latch_sound (d : Dev) (c : Ch) (cause detail : Nat) (evt : Nat) (h : Sound d.chs) : Sound (latch d c cause detail evt).chs := by
  unfold latch; (try dsimp only) <;> (repeat' split) <;> simp +contextual (maxDischargeDepth := 9) [h, foldl_sound, forCh_sound, ch_sound, chAll_sound, sound_tab, keeps_iff, keepsAll_iff, keepsSafe_iff, Chan.sound, Mod.sound, ite_dev, sound_ite, chanOff, gatesOff, edgesSound]

@[simp] theorem guardLatch_sound (d : Dev) (c : Ch) (cause : Nat) (evt : Nat) (h : Sound d.chs) : Sound (guardLatch d c cause evt).chs := by
  unfold guardLatch; (try dsimp only) <;> (repeat' split) <;> simp +contextual (maxDischargeDepth := 9) [h, foldl_sound, forCh_sound, ch_sound, chAll_sound, sound_tab, keeps_iff, keepsAll_iff, keepsSafe_iff, Chan.sound, Mod.sound, ite_dev, sound_ite]

@[simp] theorem stopFrom_sound (d : Dev) (cs : List Ch) (h : Sound d.chs) : Sound (stopFrom d cs).chs := by
  unfold stopFrom; (try dsimp only) <;> (repeat' split) <;> simp +contextual (maxDischargeDepth := 9) [h, foldl_sound, forCh_sound, ch_sound, chAll_sound, sound_tab, keeps_iff, keepsAll_iff, keepsSafe_iff, Chan.sound, Mod.sound, ite_dev, sound_ite, dropWork]

@[simp] theorem leaveDrive_sound (d : Dev) (c : Ch) (h : Sound d.chs) : Sound (leaveDrive d c).chs := by
  unfold leaveDrive
  split
  · refine ch_sound _ _ _ ?_ fun x hx => sound_same x _ hx rfl rfl rfl rfl rfl rfl
    split <;> simp [h]
  · exact h

@[simp] theorem measRelease_sound (d : Dev) (c : Ch) (h : Sound d.chs) : Sound (measRelease d c).chs := by
  unfold measRelease
  dsimp only
  split
  · exact h
  · exact measComplete_sound _ _ _ _ (forCh_sound _ _ _ h fun e k he => leaveDrive_sound e k he)

/-- A change of the bank that leaves every channel's latch and service alone. -/
def SameLocks (v w : Bank Chan 128) : Prop := ∀ c : Ch, w[c].prot.latched = v[c].prot.latched ∧ w[c].prot.oos = v[c].prot.oos

theorem sameLocks_ch (d : Dev) (c : Ch) (f : Chan → Chan) (v : Bank Chan 128) (h : SameLocks v d.chs)
    (hf : ∀ x, (f x).prot.latched = x.prot.latched ∧ (f x).prot.oos = x.prot.oos) : SameLocks v (d.ch c f).chs := fun k => by
  rw [ch_get]
  split
  · exact ⟨(hf _).1.trans (h k).1, (hf _).2.trans (h k).2⟩
  · exact h k

theorem leaveDrive_locks (d : Dev) (c : Ch) (v : Bank Chan 128) (h : SameLocks v d.chs) : SameLocks v (leaveDrive d c).chs := by
  unfold leaveDrive
  split
  · refine sameLocks_ch _ _ _ _ ?_ fun x => ⟨rfl, rfl⟩
    split
    · exact h
    · simpa using h
  · exact h

theorem measRelease_locks (d : Dev) (c : Ch) : SameLocks d.chs (measRelease d c).chs := by
  unfold measRelease
  dsimp only
  split
  · exact fun _ => ⟨rfl, rfl⟩
  · unfold measComplete
    dsimp only
    refine sameLocks_ch _ _ _ _ ?_ fun x => ⟨rfl, rfl⟩
    simp only [freeUnits_frame, complete_frame, hostWrite_frame]
    exact forCh_holds (fun e => SameLocks d.chs e.chs) _ (fun e a he => leaveDrive_locks _ _ _ he) _ _ fun _ => ⟨rfl, rfl⟩

theorem bindRecord_locks (d : Dev) (c : Ch) (v : Bank Chan 128) (h : SameLocks v d.chs) : SameLocks v (bindRecord d c).chs := by
  unfold bindRecord
  dsimp only
  split <;> simp only [restartModel_frame, loadStages_frame, trackUnbound_frame] <;> exact sameLocks_ch _ _ _ _ h fun x => ⟨rfl, rfl⟩

theorem releaseChan_locks (d : Dev) (c : Ch) : SameLocks d.chs (releaseChan d c).chs := by
  unfold releaseChan
  dsimp only
  exact bindRecord_locks _ _ _ (sameLocks_ch _ _ _ _ (measRelease_locks _ _) fun x => ⟨rfl, rfl⟩)

theorem releaseChan_sound (d : Dev) (c : Ch) (h : Sound d.chs) (hl : d.chs[c].prot.latched = false) (ho : d.chs[c].prot.oos = 0) :
    Sound (releaseChan d c).chs := by
  have hk := measRelease_locks d c c
  unfold releaseChan
  dsimp only
  refine bindRecord_sound _ _ (sound_upd_at _ _ _ (measRelease_sound _ _ h) fun hx => ?_)
  have hm := sound_gates _ hx
  simp only [Chan.sound, Bool.and_eq_true, Bool.or_eq_true, Bool.not_eq_true', decide_eq_true_eq]
  exact ⟨hm, Or.inr ⟨hk.1.trans hl, hk.2.trans ho⟩⟩

theorem releaseList_sound (l : List Ch) (d : Dev) (h : Sound d.chs) (hl : ∀ c ∈ l, d.chs[c].prot.latched = false ∧ d.chs[c].prot.oos = 0) :
    Sound (forCh l releaseChan d).chs := by
  induction l generalizing d with
  | nil => exact h
  | cons a t ih =>
    have hk := releaseChan_locks d a
    have ha := hl a List.mem_cons_self
    exact ih _ (releaseChan_sound d a h ha.1 ha.2) fun c hc =>
      ⟨(hk c).1.trans (hl c (List.mem_cons_of_mem _ hc)).1, (hk c).2.trans (hl c (List.mem_cons_of_mem _ hc)).2⟩

theorem halves_self (d : Dev) (c : Ch) : c ∈ halves d c := by
  unfold halves
  split
  · simp only [List.mem_cons, List.not_mem_nil, or_false, evenOf, oddOf, Fin.ext_iff]; omega
  · exact List.mem_singleton.mpr rfl

theorem releaseGroupNow_sound (d : Dev) (g : RGroup) (e : Dev) (st : Nat) (h : Sound d.chs) (he : releaseGroupNow d g = some (e, st)) :
    Sound e.chs := by
  unfold releaseGroupNow at he
  dsimp only at he
  split at he
  · simp only [Option.some.injEq, Prod.mk.injEq] at he; exact he.1 ▸ h
  split at he
  · cases he
  split at he
  · simp only [Option.some.injEq, Prod.mk.injEq] at he; exact he.1 ▸ h
  · simp only [Option.some.injEq, Prod.mk.injEq] at he
    obtain ⟨rfl, -⟩ := he
    have hc : Sound (forCh (groupChans d g) (fun e c => e.ch c fun x => { x with conf := true }) d).chs :=
      forCh_sound _ _ _ h fun e c he => ch_sound _ _ _ he fun x hx => sound_same x _ hx rfl rfl rfl rfl rfl rfl
    have hk : SameLocks d.chs (forCh (groupChans d g) (fun e c => e.ch c fun x => { x with conf := true }) d).chs :=
      by
      refine forCh_holds (fun e => SameLocks d.chs e.chs) _ (fun e c he => ?_) _ _ fun _ => ⟨rfl, rfl⟩
      exact sameLocks_ch _ _ _ _ he fun x => ⟨rfl, rfl⟩
    refine releaseList_sound _ _ hc fun c hm => ?_
    have hb := (List.mem_filter.mp hm).2
    simp only [Bool.and_eq_true, Bool.not_eq_true', List.any_eq_false] at hb
    have := hb.1 c (halves_self d c)
    simp only [Bool.or_eq_true, decide_eq_true_eq, not_or, Bool.not_eq_true, ne_eq, Decidable.not_not] at this
    exact ⟨(hk c).1.trans this.1, (hk c).2.trans this.2⟩

@[simp] theorem doRelease_sound (d : Dev) (r : CmdRef) (g : RGroup) (h : Sound d.chs) : Sound (doRelease d r g).chs := by
  unfold doRelease
  split
  · exact h
  · rw [(completeAt_frame _ _ _ _ _).1]; exact releaseGroupNow_sound d g _ _ h ‹_›

@[simp] theorem retryRelease_sound (d : Dev) (w : CmdRef × Nat) (h : Sound d.chs) : Sound (retryRelease d w).chs := by
  unfold retryRelease; (try dsimp only) <;> (repeat' split) <;> simp +contextual (maxDischargeDepth := 9) [h, foldl_sound, forCh_sound, ch_sound, chAll_sound, sound_tab, keeps_iff, keepsAll_iff, keepsSafe_iff, Chan.sound, Mod.sound, ite_dev, sound_ite]

@[simp] theorem doStop_sound (d : Dev) (r : CmdRef) (cs : List Ch) (h : Sound d.chs) : Sound (doStop d r cs).chs := by
  unfold doStop; (try dsimp only) <;> (repeat' split) <;> simp +contextual (maxDischargeDepth := 9) [h, foldl_sound, forCh_sound, ch_sound, chAll_sound, sound_tab, keeps_iff, keepsAll_iff, keepsSafe_iff, Chan.sound, Mod.sound, ite_dev, sound_ite]

@[simp] theorem doStopGroup_sound (d : Dev) (r : CmdRef) (g : RGroup) (h : Sound d.chs) : Sound (doStopGroup d r g).chs := by
  unfold doStopGroup; (try dsimp only) <;> (repeat' split) <;> simp +contextual (maxDischargeDepth := 9) [h, foldl_sound, forCh_sound, ch_sound, chAll_sound, sound_tab, keeps_iff, keepsAll_iff, keepsSafe_iff, Chan.sound, Mod.sound, ite_dev, sound_ite]

@[simp] theorem doClear_sound (d : Dev) (r : Option CmdRef) (c : Ch) (h : Sound d.chs) : Sound (doClear d r c).chs := by
  unfold doClear; (try dsimp only) <;> (repeat' split) <;> simp +contextual (maxDischargeDepth := 9) [h, foldl_sound, forCh_sound, ch_sound, chAll_sound, sound_tab, keeps_iff, keepsAll_iff, keepsSafe_iff, Chan.sound, Mod.sound, ite_dev, sound_ite]

@[simp] theorem checkStep_sound (d : Dev) (c : Ch) (f : Check → Check) (h : Sound d.chs) : Sound (checkStep d c f).chs := by
  unfold checkStep; (try dsimp only) <;> (repeat' split) <;> simp +contextual (maxDischargeDepth := 9) [h, foldl_sound, forCh_sound, ch_sound, chAll_sound, sound_tab, keeps_iff, keepsAll_iff, keepsSafe_iff, Chan.sound, Mod.sound, ite_dev, sound_ite]

@[simp] theorem checkObserved_sound (d : Dev) (c : Ch) (h : Sound d.chs) : Sound (checkObserved d c).chs := by
  unfold checkObserved; (try dsimp only) <;> (repeat' split) <;> simp +contextual (maxDischargeDepth := 9) [h, foldl_sound, forCh_sound, ch_sound, chAll_sound, sound_tab, keeps_iff, keepsAll_iff, keepsSafe_iff, Chan.sound, Mod.sound, ite_dev, sound_ite]

@[simp] theorem checkDriven_sound (d : Dev) (c : Ch) (h : Sound d.chs) : Sound (checkDriven d c).chs := by
  unfold checkDriven; (try dsimp only) <;> (repeat' split) <;> simp +contextual (maxDischargeDepth := 9) [h, foldl_sound, forCh_sound, ch_sound, chAll_sound, sound_tab, keeps_iff, keepsAll_iff, keepsSafe_iff, Chan.sound, Mod.sound, ite_dev, sound_ite]

@[simp] theorem checkEnded_sound (d : Dev) (c : Ch) (h : Sound d.chs) : Sound (checkEnded d c).chs := by
  unfold checkEnded; (try dsimp only) <;> (repeat' split) <;> simp +contextual (maxDischargeDepth := 9) [h, foldl_sound, forCh_sound, ch_sound, chAll_sound, sound_tab, keeps_iff, keepsAll_iff, keepsSafe_iff, Chan.sound, Mod.sound, ite_dev, sound_ite]

@[simp] theorem class1_sound (d : Dev) (c : Ch) (low : Bool) (pos ma : Nat) (h : Sound d.chs) : Sound (class1 d c low pos ma).chs := by
  unfold class1
  dsimp only
  refine sound_if _ _ _ (fun _ => ?_) (fun _ => h)
  have h1 : Sound (d.ch c fun x =>
      { x with prot := { countTrip d.chs[c].prot with
                  check := (countTrip d.chs[c].prot).check.map fun k => if k.step = 2 then { k with tripped := true } else k }
               mod := tripGates x.mod low pos }).chs :=
    sound_upd_at _ _ _ h fun hx => sound_mod _ _ hx (tripGates_sound _ _ _) (countTrip_same _).1 (countTrip_same _).2.1 (countTrip_same _).2.2
  have h2 : ∀ e : Dev, Sound e.chs → Sound (match d.chs[lead d c].meas with
      | some m => e.ch (lead d c) fun x => { x with meas := some { m with tripped := true } }
      | none => e).chs := fun e he => by
    split
    · exact ch_sound _ _ _ he fun x hx => sound_same x _ hx rfl rfl rfl rfl rfl rfl
    · exact he
  refine sound_if _ _ _ (fun _ => sound_if _ _ _ (fun _ => ?_) fun _ => latch_sound _ _ _ _ _ (h2 _ h1)) fun _ => h2 _ h1
  rw [(setGrd_frame _ _).1, (hist_frame _ _ _ _ _).1]
  exact h2 _ h1

@[simp] theorem measSw_sound (d : Dev) (c : Ch) (w : Nat) (h : Sound d.chs) : Sound (measSw d c w).chs := by
  unfold measSw; (try dsimp only) <;> (repeat' split) <;> simp +contextual (maxDischargeDepth := 9) [h, foldl_sound, forCh_sound, ch_sound, chAll_sound, sound_tab, keeps_iff, keepsAll_iff, keepsSafe_iff, Chan.sound, Mod.sound, ite_dev, sound_ite]

@[simp] theorem takePeriod_sound (d : Dev) (c : Ch) (first : Bool) (h : Sound d.chs) : Sound (takePeriod d c first).chs := by
  have h0 : Sound (d.ticks 4).chs := by rw [(ticks_frame _ _).1]; exact h
  unfold takePeriod
  dsimp only
  generalize hd : (if decide ((d.ticks 4).chs[c].prot.drive = .manual) = true then _ else _ : Dev) = e
  have h1 : Sound e.chs := by
    rw [← hd]
    refine sound_if _ _ _ (fun _ => ch_sound _ _ _ h0 fun x hx => ?_) fun _ => h0
    exact sound_mod x _ hx ((manualReload_sound _ _ _).trans (sound_gates x hx)) rfl rfl rfl
  have h2 : Sound (if halfEnding e c = true then e.ch c fun x => { x with prot := { x.prot with ssCount := x.prot.ssCount + 1 } } else e).chs :=
    sound_if _ _ _ (fun _ => ch_sound _ _ _ h1 fun x hx => sound_same x _ hx rfl rfl rfl rfl rfl rfl) fun _ => h1
  refine sound_if _ _ _ (fun _ => ch_sound _ _ _ h1 fun x hx => startPeriod_sound x _ hx (sound_gates x hx)) fun _ => ?_
  rw [capPoint_chs]
  refine measSw_sound _ _ _ (ch_sound _ _ _ h2 fun x hx => ?_)
  have hm := takeUpMod_sound e c (Config.freeBit (d.free + 0)) (Config.freeBit (d.free + 1)) (Config.freeBit (d.free + 2))
  exact sound_same (startPeriod x _) _ (startPeriod_sound x _ hx (hm.trans (sound_gates _ (h1 c)))) rfl rfl rfl rfl rfl rfl

@[simp] theorem takeUpDev_sound (d : Dev) (c : Ch) (h : Sound d.chs) : Sound (takeUpDev d c).chs := by
  unfold takeUpDev
  dsimp only
  refine sound_if _ _ _ (fun _ => h) fun _ => ?_
  have h1 : Sound (eviCount (d.ch c countZero) 1 c.val).chs := by
    rw [(eviCount_frame _ _ _).1]
    exact ch_sound _ _ _ h countZero_sound
  generalize eviCount (d.ch c countZero) 1 c.val = e at h1
  refine sound_if _ _ _ (fun _ => sound_if _ _ _ (fun _ => ?_) fun _ => ?_) fun _ => sound_if _ _ _ (fun _ => ?_) fun _ =>
    sound_if _ _ _ (fun _ => takePeriod_sound _ _ _ ?_) fun _ => takePeriod_sound _ _ _ h1
  · rw [(settleStops_frame _).1]; exact ch_sound _ _ _ h1 fun x _ => rfl
  · exact ch_sound _ _ _ h1 fun x hx => sound_mod x _ hx rfl rfl rfl rfl
  · have h2 : Sound (rampAgain (e.ch c manualExit) c).chs := by
      simpa using ch_sound _ _ _ h1 manualExit_sound
    exact sound_if _ _ _ (fun _ => h2) fun _ => takePeriod_sound _ _ _ h2
  · exact ch_sound _ _ _ h1 fun x hx => sound_same x _ hx rfl rfl rfl rfl rfl rfl

@[simp] theorem midTakeUpDev_sound (d : Dev) (c : Ch) (h : Sound d.chs) : Sound (midTakeUpDev d c).chs := by
  have h0 : Sound (d.ticks 2).chs := by rw [(ticks_frame _ _).1]; exact h
  unfold midTakeUpDev
  dsimp only
  split
  · exact h
  · rw [capPoint_chs]
    refine ch_sound _ _ _ h0 fun x hx => sound_mod x _ hx ?_ rfl rfl rfl
    dsimp only
    split
    · exact midUpdate_sound _ _ _ (sound_gates x hx)
    · exact sound_gates x hx

@[simp] theorem gateEdgeDev_sound (d : Dev) (c : Ch) (h : Sound d.chs) : Sound (gateEdgeDev d c).chs := by
  unfold gateEdgeDev
  split
  · exact h
  · refine ch_sound _ _ _ h fun x hx => ?_
    split
    · exact hx
    · rename_i e rest hp
      split
      · refine sound_mod x _ hx ?_ rfl rfl rfl
        have hm := sound_gates x hx
        simp only [Mod.sound, hp, edgesSound, Bool.and_eq_true] at hm ⊢
        simpa [(applyEdge_gates x.mod e).1, (applyEdge_gates x.mod e).2.1] using hm.2
      · exact hx

@[simp] theorem manEnableDev_sound (d : Dev) (c : Ch) (value : W32) (h : Sound d.chs) : Sound (manEnableDev d c value).chs := by
  unfold manEnableDev; (try dsimp only) <;> (repeat' split) <;> simp +contextual (maxDischargeDepth := 9) [h, foldl_sound, forCh_sound, ch_sound, chAll_sound, sound_tab, keeps_iff, keepsAll_iff, keepsSafe_iff, Chan.sound, Mod.sound, ite_dev, sound_ite]

@[simp] theorem manWordDev_sound (d : Dev) (c : Ch) (period : Bool) (value : W32) (near : Bool) (h : Sound d.chs) :
    Sound (manWordDev d c period value near).chs := by
  unfold manWordDev
  dsimp only
  split
  · exact h
  · refine ch_sound _ _ _ h fun x hx => ?_
    cases period <;> (repeat' split) <;> first
      | exact sound_same x _ hx rfl rfl rfl rfl rfl rfl
      | exact sound_mod x _ hx ((handPeriod_sound _ _ _).trans (sound_gates x hx)) rfl rfl rfl
      | exact sound_mod x _ hx ((handShadow_sound _ _ _).trans (sound_gates x hx)) rfl rfl rfl
      | simp_all

@[simp] theorem handoverDev_sound (d : Dev) (c : Ch) (near : Bool) (h : Sound d.chs) : Sound (handoverDev d c near).chs := by
  unfold handoverDev
  refine ch_sound _ _ _ h fun x hx => ?_
  dsimp only
  (repeat' split) <;> first
    | exact hx
    | exact sound_same x _ hx rfl rfl rfl rfl rfl rfl
    | exact sound_mod x _ hx ((handShadow_sound _ _ _).trans (sound_gates x hx)) rfl rfl rfl

@[simp] theorem haltDev_sound (d : Dev) (h : Sound d.chs) : Sound (haltDev d).chs := by
  unfold haltDev
  split
  · dsimp only
    refine sound_tab _ _ h fun c x hx => ?_
    split
    · exact sound_same x _ hx rfl rfl rfl rfl rfl rfl
    · exact hx
  · exact h

@[simp] theorem haltEndDev_sound (d : Dev) (h : Sound d.chs) : Sound (haltEndDev d).chs := by
  unfold haltEndDev
  dsimp only
  split
  · exact h
  · refine chAll_sound _ _ h fun c x hx => ?_
    have hy : (if x.mod.halted = true then { x with mod := { x.mod with halted := false, phase := 0, plan := [] } } else x : Chan).sound = true := by
      split
      · exact sound_mod x _ hx (edgesSound_nil _ _ (mod_sound_pair x.mod (sound_gates x hx))) rfl rfl rfl
      · exact hx
    unfold unhalt
    dsimp only
    rw [chan_ite_sound]
    exact ⟨fun _ => openStop_sound _ (triggerChan_sound _ hy), fun _ => hy⟩

@[simp] theorem engStitch_sound (img : Image) (t : LTile) (p m : Nat) (d : Dev) (s : Stitch) (h : Sound d.chs) : Sound (engStitch img t p m d s).chs := by
  unfold engStitch; (try dsimp only) <;> (repeat' split) <;> simp +contextual (maxDischargeDepth := 9) [h, foldl_sound, forCh_sound, ch_sound, chAll_sound, sound_tab, keeps_iff, keepsAll_iff, keepsSafe_iff, Chan.sound, Mod.sound, ite_dev, sound_ite]

@[simp] theorem fcDone_sound (d : Dev) (img : Image) (t : LTile) (h : Sound d.chs) : Sound (fcDone d img t).chs := by
  unfold fcDone; (try dsimp only) <;> (repeat' split) <;> simp +contextual (maxDischargeDepth := 9) [h, foldl_sound, forCh_sound, ch_sound, chAll_sound, sound_tab, keeps_iff, keepsAll_iff, keepsSafe_iff, Chan.sound, Mod.sound, ite_dev, sound_ite]

@[simp] theorem engRun_sound (img : Image) (m : Nat) (d : Dev) (k : Fin 16) (h : Sound d.chs) : Sound (engRun img m d k).chs := by
  unfold engRun; (try dsimp only) <;> (repeat' split) <;> simp +contextual (maxDischargeDepth := 9) [h, foldl_sound, forCh_sound, ch_sound, chAll_sound, sound_tab, keeps_iff, keepsAll_iff, keepsSafe_iff, Chan.sound, Mod.sound, ite_dev, sound_ite]

@[simp] theorem engAll_sound (d : Dev) (m : Nat) (h : Sound d.chs) : Sound (engAll d m).chs := by
  unfold engAll; (try dsimp only) <;> (repeat' split) <;> simp +contextual (maxDischargeDepth := 9) [h, foldl_sound, forCh_sound, ch_sound, chAll_sound, sound_tab, keeps_iff, keepsAll_iff, keepsSafe_iff, Chan.sound, Mod.sound, ite_dev, sound_ite]

@[simp] theorem checkSample_sound (d : Dev) (c : Ch) (h : Sound d.chs) : Sound (checkSample d c).chs := by
  unfold checkSample; (try dsimp only) <;> (repeat' split) <;> simp +contextual (maxDischargeDepth := 9) [h, foldl_sound, forCh_sound, ch_sound, chAll_sound, sound_tab, keeps_iff, keepsAll_iff, keepsSafe_iff, Chan.sound, Mod.sound, ite_dev, sound_ite]

@[simp] theorem takeSample_sound (d : Dev) (c : Ch) (s : Sample) (h : Sound d.chs) : Sound (takeSample d c s).chs := by
  unfold takeSample; (try dsimp only) <;> (repeat' split) <;> simp +contextual (maxDischargeDepth := 9) [h, foldl_sound, forCh_sound, ch_sound, chAll_sound, sound_tab, keeps_iff, keepsAll_iff, keepsSafe_iff, Chan.sound, Mod.sound, ite_dev, sound_ite]

@[simp] theorem reloadAll_sound (d : Dev) (h : Sound d.chs) : Sound (reloadAll d).chs := by
  unfold reloadAll
  dsimp only
  refine foldl_sound _ _ _ h ((keepsSafe_iff _).2 fun e c he => ?_)
  exact ch_sound _ _ _ he ((keeps_iff _).2 fun x hx => boundaryMod_sound x _ _ _ hx)

@[simp] theorem carrierDev_sound (d : Dev) (samples : List Sample) (rails : List RailSample) (h : Sound d.chs) : Sound (carrierDev d samples rails).chs := by
  unfold carrierDev; (try dsimp only) <;> (repeat' split) <;> simp +contextual (maxDischargeDepth := 9) [h, foldl_sound, forCh_sound, ch_sound, chAll_sound, sound_tab, keeps_iff, keepsAll_iff, keepsSafe_iff, Chan.sound, Mod.sound, ite_dev, sound_ite]

@[simp] theorem lateAll_sound (d : Dev) (own : Ch → Bool) (h : Sound d.chs) : Sound (lateAll d own).chs := by
  unfold lateAll
  refine chAll_sound _ _ h fun c x hx => ?_
  rw [chan_ite_sound]
  exact ⟨fun _ => sound_same x _ hx rfl rfl rfl rfl rfl rfl, fun _ => hx⟩

@[simp] theorem tileDoneDev_sound (d : Dev) (t : LTile) (fi : Bool) (count : Nat) (h : Sound d.chs) : Sound (tileDoneDev d t fi count).chs := by
  unfold tileDoneDev
  dsimp only
  refine sound_if _ _ _ (fun _ => h) fun _ => sound_if _ _ _ (fun _ => sound_if _ _ _ (fun _ => lateAll_sound _ _ ?_) fun _ => h) fun _ =>
    sound_if _ _ _ (fun _ => lateAll_sound _ _ ?_) fun _ => h
  all_goals rw [dev_tile_chs]; exact h

@[simp] theorem grantDev_sound (d : Dev) (h : Sound d.chs) : Sound (grantDev d).chs := by
  unfold grantDev; (try dsimp only) <;> (repeat' split) <;> simp +contextual (maxDischargeDepth := 9) [h, foldl_sound, forCh_sound, ch_sound, chAll_sound, sound_tab, keeps_iff, keepsAll_iff, keepsSafe_iff, Chan.sound, Mod.sound, ite_dev, sound_ite]

@[simp] theorem doStopChannel_sound (d : Dev) (r : CmdRef) (c : Ch) (h : Sound d.chs) : Sound (doStopChannel d r c).chs := by
  unfold doStopChannel; (try dsimp only) <;> (repeat' split) <;> simp +contextual (maxDischargeDepth := 9) [h, foldl_sound, forCh_sound, ch_sound, chAll_sound, sound_tab, keeps_iff, keepsAll_iff, keepsSafe_iff, Chan.sound, Mod.sound, ite_dev, sound_ite]

@[simp] theorem doClearLatch_sound (d : Dev) (r : CmdRef) (c : Ch) (h : Sound d.chs) : Sound (doClearLatch d r c).chs := by
  unfold doClearLatch; (try dsimp only) <;> (repeat' split) <;> simp +contextual (maxDischargeDepth := 9) [h, foldl_sound, forCh_sound, ch_sound, chAll_sound, sound_tab, keeps_iff, keepsAll_iff, keepsSafe_iff, Chan.sound, Mod.sound, ite_dev, sound_ite]

@[simp] theorem grdClearDev_sound (d : Dev) (m : Fin 4) (mask : W32) (h : Sound d.chs) : Sound (grdClearDev d m mask).chs := by
  unfold grdClearDev; (try dsimp only) <;> (repeat' split) <;> simp +contextual (maxDischargeDepth := 9) [h, foldl_sound, forCh_sound, ch_sound, chAll_sound, sound_tab, keeps_iff, keepsAll_iff, keepsSafe_iff, Chan.sound, Mod.sound, ite_dev, sound_ite]

@[simp] theorem safeStopEndDev_sound (d : Dev) (c : Ch) (h : Sound d.chs) : Sound (safeStopEndDev d c).chs := by
  unfold safeStopEndDev; (try dsimp only) <;> (repeat' split) <;> simp +contextual (maxDischargeDepth := 9) [h, foldl_sound, forCh_sound, ch_sound, chAll_sound, sound_tab, keeps_iff, keepsAll_iff, keepsSafe_iff, Chan.sound, Mod.sound, ite_dev, sound_ite, chanOff, gatesOff, edgesSound]

@[simp] theorem tripPinDev_sound (d : Dev) (p : Pin) (h : Sound d.chs) : Sound (tripPinDev d p).chs := by
  unfold tripPinDev; (try dsimp only) <;> (repeat' split) <;> simp +contextual (maxDischargeDepth := 9) [h, foldl_sound, forCh_sound, ch_sound, chAll_sound, sound_tab, keeps_iff, keepsAll_iff, keepsSafe_iff, Chan.sound, Mod.sound, ite_dev, sound_ite]

@[simp] theorem dcTripDev_sound (d : Dev) (c : Ch) (h : Sound d.chs) : Sound (dcTripDev d c).chs := by
  unfold dcTripDev; (try dsimp only) <;> (repeat' split) <;> simp +contextual (maxDischargeDepth := 9) [h, foldl_sound, forCh_sound, ch_sound, chAll_sound, sound_tab, keeps_iff, keepsAll_iff, keepsSafe_iff, Chan.sound, Mod.sound, ite_dev, sound_ite]

@[simp] theorem carrierLossDev_sound (d : Dev) (c : Ch) (h : Sound d.chs) : Sound (carrierLossDev d c).chs := by
  unfold carrierLossDev; (try dsimp only) <;> (repeat' split) <;> simp +contextual (maxDischargeDepth := 9) [h, foldl_sound, forCh_sound, ch_sound, chAll_sound, sound_tab, keeps_iff, keepsAll_iff, keepsSafe_iff, Chan.sound, Mod.sound, ite_dev, sound_ite]

@[simp] theorem safeDev_sound (d : Dev) (h : Sound d.chs) : Sound (safeDev d).chs := by
  unfold safeDev; (try dsimp only) <;> (repeat' split) <;> simp +contextual (maxDischargeDepth := 9) [h, foldl_sound, forCh_sound, ch_sound, chAll_sound, sound_tab, keeps_iff, keepsAll_iff, keepsSafe_iff, Chan.sound, Mod.sound, ite_dev, sound_ite]

@[simp] theorem backstopRelease_sound (d : Dev) (cause : Nat) (h : Sound d.chs) : Sound (backstopRelease d cause).chs := by
  unfold backstopRelease; (try dsimp only) <;> (repeat' split) <;> simp +contextual (maxDischargeDepth := 9) [h, foldl_sound, forCh_sound, ch_sound, chAll_sound, sound_tab, keeps_iff, keepsAll_iff, keepsSafe_iff, Chan.sound, Mod.sound, ite_dev, sound_ite, dropWork]

@[simp] theorem backstopDev_sound (d : Dev) (h : Sound d.chs) : Sound (backstopDev d).chs := by
  unfold backstopDev; (try dsimp only) <;> (repeat' split) <;> simp +contextual (maxDischargeDepth := 9) [h, foldl_sound, forCh_sound, ch_sound, chAll_sound, sound_tab, keeps_iff, keepsAll_iff, keepsSafe_iff, Chan.sound, Mod.sound, ite_dev, sound_ite]

@[simp] theorem prsntOffDev_sound (d : Dev) (h : Sound d.chs) : Sound (prsntOffDev d).chs := by
  unfold prsntOffDev; (try dsimp only) <;> (repeat' split) <;> simp +contextual (maxDischargeDepth := 9) [h, foldl_sound, forCh_sound, ch_sound, chAll_sound, sound_tab, keeps_iff, keepsAll_iff, keepsSafe_iff, Chan.sound, Mod.sound, ite_dev, sound_ite]

@[simp] theorem thermShutDev_sound (d : Dev) (h : Sound d.chs) : Sound (thermShutDev d).chs := by
  unfold thermShutDev; (try dsimp only) <;> (repeat' split) <;> simp +contextual (maxDischargeDepth := 9) [h, foldl_sound, forCh_sound, ch_sound, chAll_sound, sound_tab, keeps_iff, keepsAll_iff, keepsSafe_iff, Chan.sound, Mod.sound, ite_dev, sound_ite]

@[simp] theorem railUvDev_sound (d : Dev) (neg : Bool) (h : Sound d.chs) : Sound (railUvDev d neg).chs := by
  unfold railUvDev; (try dsimp only) <;> (repeat' split) <;> simp +contextual (maxDischargeDepth := 9) [h, foldl_sound, forCh_sound, ch_sound, chAll_sound, sound_tab, keeps_iff, keepsAll_iff, keepsSafe_iff, Chan.sound, Mod.sound, ite_dev, sound_ite]

@[simp] theorem regionStat_sound (d : Dev) (t : LTile) (c : Ch) (h : Sound d.chs) : Sound (regionStat d t c).chs := by
  unfold regionStat; (try dsimp only) <;> (repeat' split) <;> simp +contextual (maxDischargeDepth := 9) [h, foldl_sound, forCh_sound, ch_sound, chAll_sound, sound_tab, keeps_iff, keepsAll_iff, keepsSafe_iff, Chan.sound, Mod.sound, ite_dev, sound_ite]

@[simp] theorem shadowsCurrent_sound (d : Dev) (plain : Bool) (h : Sound d.chs) : Sound (shadowsCurrent d plain).chs := by
  unfold shadowsCurrent; (try dsimp only) <;> (repeat' split) <;> simp +contextual (maxDischargeDepth := 9) [h, foldl_sound, forCh_sound, ch_sound, chAll_sound, sound_tab, keeps_iff, keepsAll_iff, keepsSafe_iff, Chan.sound, Mod.sound, ite_dev, sound_ite]

@[simp] theorem putTable_sound (d : Dev) (c : Ch) (q : Nat) (ws : List W64) (h : Sound d.chs) : Sound (putTable d c q ws).chs := by
  unfold putTable; (try dsimp only) <;> (repeat' split) <;> simp +contextual (maxDischargeDepth := 9) [h, foldl_sound, forCh_sound, ch_sound, chAll_sound, sound_tab, keeps_iff, keepsAll_iff, keepsSafe_iff, Chan.sound, Mod.sound, ite_dev, sound_ite]

@[simp] theorem putConds_sound (d : Dev) (c : Ch) (ws : List W64) (h : Sound d.chs) : Sound (putConds d c ws).chs := by
  unfold putConds; (try dsimp only) <;> (repeat' split) <;> simp +contextual (maxDischargeDepth := 9) [h, foldl_sound, forCh_sound, ch_sound, chAll_sound, sound_tab, keeps_iff, keepsAll_iff, keepsSafe_iff, Chan.sound, Mod.sound, ite_dev, sound_ite]

@[simp] theorem doTableWrite_sound (d : Dev) (r : CmdRef) (c : Ch) (cond : Bool) (q : Fin 8) (ws : List W64) (h : Sound d.chs) : Sound (doTableWrite d r c cond q ws).chs := by
  unfold doTableWrite; (try dsimp only) <;> (repeat' split) <;> simp +contextual (maxDischargeDepth := 9) [h, foldl_sound, forCh_sound, ch_sound, chAll_sound, sound_tab, keeps_iff, keepsAll_iff, keepsSafe_iff, Chan.sound, Mod.sound, ite_dev, sound_ite]

@[simp] theorem setMeas_sound (d : Dev) (c : Ch) (m : Meas) (h : Sound d.chs) : Sound (setMeas d c m).chs := by
  unfold setMeas; (try dsimp only) <;> (repeat' split) <;> simp +contextual (maxDischargeDepth := 9) [h, foldl_sound, forCh_sound, ch_sound, chAll_sound, sound_tab, keeps_iff, keepsAll_iff, keepsSafe_iff, Chan.sound, Mod.sound, ite_dev, sound_ite]

@[simp] theorem startTone_sound (d : Dev) (c : Ch) (m : Meas) (h : Sound d.chs) : Sound (startTone d c m).chs := by
  unfold startTone; (try dsimp only) <;> (repeat' split) <;> simp +contextual (maxDischargeDepth := 9) [h, foldl_sound, forCh_sound, ch_sound, chAll_sound, sound_tab, keeps_iff, keepsAll_iff, keepsSafe_iff, Chan.sound, Mod.sound, ite_dev, sound_ite]

@[simp] theorem measFi_sound (d : Dev) (c : Ch) (h : Sound d.chs) : Sound (measFi d c).chs := by
  unfold measFi; (try dsimp only) <;> (repeat' split) <;> simp +contextual (maxDischargeDepth := 9) [h, foldl_sound, forCh_sound, ch_sound, chAll_sound, sound_tab, keeps_iff, keepsAll_iff, keepsSafe_iff, Chan.sound, Mod.sound, ite_dev, sound_ite]

@[simp] theorem doMeasure_sound (d : Dev) (r : CmdRef) (c : Ch) (st : Nat) (h : Sound d.chs) : Sound (doMeasure d r c st).chs := by
  unfold doMeasure; (try dsimp only) <;> (repeat' split) <;> simp +contextual (maxDischargeDepth := 9) [h, foldl_sound, forCh_sound, ch_sound, chAll_sound, sound_tab, keeps_iff, keepsAll_iff, keepsSafe_iff, Chan.sound, Mod.sound, ite_dev, sound_ite]

@[simp] theorem measEnding_sound (d : Dev) (c : Ch) (m : Meas) (h : Sound d.chs) : Sound (measEnding d c m).chs := by
  unfold measEnding; (try dsimp only) <;> (repeat' split) <;> simp +contextual (maxDischargeDepth := 9) [h, foldl_sound, forCh_sound, ch_sound, chAll_sound, sound_tab, keeps_iff, keepsAll_iff, keepsSafe_iff, Chan.sound, Mod.sound, ite_dev, sound_ite]

@[simp] theorem startSweep_sound (d : Dev) (c : Ch) (m : Meas) (h : Sound d.chs) : Sound (startSweep d c m).chs := by
  unfold startSweep; (try dsimp only) <;> (repeat' split) <;> simp +contextual (maxDischargeDepth := 9) [h, foldl_sound, forCh_sound, ch_sound, chAll_sound, sound_tab, keeps_iff, keepsAll_iff, keepsSafe_iff, Chan.sound, Mod.sound, ite_dev, sound_ite]

@[simp] theorem precheckEnd_sound (d : Dev) (c : Ch) (h : Sound d.chs) : Sound (precheckEnd d c).chs := by
  unfold precheckEnd; (try dsimp only) <;> (repeat' split) <;> simp +contextual (maxDischargeDepth := 9) [h, foldl_sound, forCh_sound, ch_sound, chAll_sound, sound_tab, keeps_iff, keepsAll_iff, keepsSafe_iff, Chan.sound, Mod.sound, ite_dev, sound_ite]

@[simp] theorem dcEnd_sound (d : Dev) (c : Ch) (h : Sound d.chs) : Sound (dcEnd d c).chs := by
  unfold dcEnd; (try dsimp only) <;> (repeat' split) <;> simp +contextual (maxDischargeDepth := 9) [h, foldl_sound, forCh_sound, ch_sound, chAll_sound, sound_tab, keeps_iff, keepsAll_iff, keepsSafe_iff, Chan.sound, Mod.sound, ite_dev, sound_ite]

@[simp] theorem cableEnd_sound (d : Dev) (c : Ch) (h : Sound d.chs) : Sound (cableEnd d c).chs := by
  unfold cableEnd; (try dsimp only) <;> (repeat' split) <;> simp +contextual (maxDischargeDepth := 9) [h, foldl_sound, forCh_sound, ch_sound, chAll_sound, sound_tab, keeps_iff, keepsAll_iff, keepsSafe_iff, Chan.sound, Mod.sound, ite_dev, sound_ite]

@[simp] theorem pointEnd_sound (d : Dev) (c : Ch) (h : Sound d.chs) : Sound (pointEnd d c).chs := by
  unfold pointEnd; (try dsimp only) <;> (repeat' split) <;> simp +contextual (maxDischargeDepth := 9) [h, foldl_sound, forCh_sound, ch_sound, chAll_sound, sound_tab, keeps_iff, keepsAll_iff, keepsSafe_iff, Chan.sound, Mod.sound, ite_dev, sound_ite]

@[simp] theorem switchingEnd_sound (d : Dev) (c : Ch) (h : Sound d.chs) : Sound (switchingEnd d c).chs := by
  unfold switchingEnd; (try dsimp only) <;> (repeat' split) <;> simp +contextual (maxDischargeDepth := 9) [h, foldl_sound, forCh_sound, ch_sound, chAll_sound, sound_tab, keeps_iff, keepsAll_iff, keepsSafe_iff, Chan.sound, Mod.sound, ite_dev, sound_ite, chanOff, gatesOff, edgesSound]

@[simp] theorem fitEnd_sound (d : Dev) (c : Ch) (h : Sound d.chs) : Sound (fitEnd d c).chs := by
  unfold fitEnd; (try dsimp only) <;> (repeat' split) <;> simp +contextual (maxDischargeDepth := 9) [h, foldl_sound, forCh_sound, ch_sound, chAll_sound, sound_tab, keeps_iff, keepsAll_iff, keepsSafe_iff, Chan.sound, Mod.sound, ite_dev, sound_ite]

@[simp] theorem storeEnd_sound (d : Dev) (c : Ch) (h : Sound d.chs) : Sound (storeEnd d c).chs := by
  unfold storeEnd; (try dsimp only) <;> (repeat' split) <;> simp +contextual (maxDischargeDepth := 9) [h, foldl_sound, forCh_sound, ch_sound, chAll_sound, sound_tab, keeps_iff, keepsAll_iff, keepsSafe_iff, Chan.sound, Mod.sound, ite_dev, sound_ite]

@[simp] theorem deleteEnd_sound (d : Dev) (c : Ch) (h : Sound d.chs) : Sound (deleteEnd d c).chs := by
  unfold deleteEnd; (try dsimp only) <;> (repeat' split) <;> simp +contextual (maxDischargeDepth := 9) [h, foldl_sound, forCh_sound, ch_sound, chAll_sound, sound_tab, keeps_iff, keepsAll_iff, keepsSafe_iff, Chan.sound, Mod.sound, ite_dev, sound_ite]

@[simp] theorem resultWrite_sound (d : Dev) (c : Ch) (h : Sound d.chs) : Sound (resultWrite d c).chs := by
  unfold resultWrite; (try dsimp only) <;> (repeat' split) <;> simp +contextual (maxDischargeDepth := 9) [h, foldl_sound, forCh_sound, ch_sound, chAll_sound, sound_tab, keeps_iff, keepsAll_iff, keepsSafe_iff, Chan.sound, Mod.sound, ite_dev, sound_ite]

@[simp] theorem loadRegions_sound (d : Dev) (c : Ch) (h : Sound d.chs) : Sound (loadRegions d c).chs := by
  unfold loadRegions; (try dsimp only) <;> (repeat' split) <;> simp +contextual (maxDischargeDepth := 9) [h, foldl_sound, forCh_sound, ch_sound, chAll_sound, sound_tab, keeps_iff, keepsAll_iff, keepsSafe_iff, Chan.sound, Mod.sound, ite_dev, sound_ite]

@[simp] theorem installGroups_sound (d : Dev) (h : Sound d.chs) : Sound (installGroups d).chs := by
  unfold installGroups; (try dsimp only) <;> (repeat' split) <;> simp +contextual (maxDischargeDepth := 9) [h, foldl_sound, forCh_sound, ch_sound, chAll_sound, sound_tab, keeps_iff, keepsAll_iff, keepsSafe_iff, Chan.sound, Mod.sound, ite_dev, sound_ite]

@[simp] theorem installImage_sound (d : Dev) (new : Image) (slot : Nat) (h : Sound d.chs) : Sound (installImage d new slot).chs := by
  have h1 : Sound (installCore new slot (d.chAll fun c x => installChan d.core.image new d.tb.stc c x)).chs := by
    rw [installCore_chs]
    exact chAll_sound _ _ h fun c x hx => sound_same x _ hx rfl rfl rfl rfl rfl rfl
  have h2 : Sound (installSound d.core.image new (installRest new
      (installCore new slot (d.chAll fun c x => installChan d.core.image new d.tb.stc c x)))).chs :=
    by rw [installSound_chs, installRest_chs]; exact h1
  have h3 := forCh_sound loadRegions (ixs 128) _ h2 fun e c he => loadRegions_sound e c he
  have h4 := forCh_sound (zeroOuter d.core.image new) (ixs 128) _ h3 fun e c he => by simp [he]
  have h5 := forCh_sound loadConds (ixs 128) _ h4 fun e c he => by simp [he]
  have h6 := forCh_sound loadStages (ixs 128) _ h5 fun e c he => by simp [he]
  exact installGroups_sound _ (forCh_sound _ _ _ (by rw [dropSapRef_chs]; exact h6) fun e c he => by simp [he])

@[simp] theorem activated_sound (d : Dev) (a : Activation) (h : Sound d.chs) : Sound (activated d a).chs := by
  unfold activated; (try dsimp only) <;> (repeat' split) <;> simp +contextual (maxDischargeDepth := 9) [h, foldl_sound, forCh_sound, ch_sound, chAll_sound, sound_tab, keeps_iff, keepsAll_iff, keepsSafe_iff, Chan.sound, Mod.sound, ite_dev, sound_ite]

@[simp] theorem weltOpenDev_sound (d : Dev) (h : Sound d.chs) : Sound (weltOpenDev d).chs := by
  unfold weltOpenDev; (try dsimp only) <;> (repeat' split) <;> simp +contextual (maxDischargeDepth := 9) [h, foldl_sound, forCh_sound, ch_sound, chAll_sound, sound_tab, keeps_iff, keepsAll_iff, keepsSafe_iff, Chan.sound, Mod.sound, ite_dev, sound_ite]

@[simp] theorem weltSwitchDev_sound (d : Dev) (h : Sound d.chs) : Sound (weltSwitchDev d).chs := by
  unfold weltSwitchDev; (try dsimp only) <;> (repeat' split) <;> simp +contextual (maxDischargeDepth := 9) [h, foldl_sound, forCh_sound, ch_sound, chAll_sound, sound_tab, keeps_iff, keepsAll_iff, keepsSafe_iff, Chan.sound, Mod.sound, ite_dev, sound_ite]

@[simp] theorem writeGuardHost_sound (d : Dev) (o v : Nat) (h : Sound d.chs) : Sound (writeGuardHost d o v).chs := by
  unfold writeGuardHost
  dsimp only
  (repeat' split) <;> first
    | exact h
    | exact sound_updN _ _ _ h fun x hx => writeChan_sound _ _ _ x hx

@[simp] theorem writeAudio_sound (d : Dev) (o v : Nat) (h : Sound d.chs) : Sound (writeAudio d o v).chs := by
  unfold writeAudio
  dsimp only
  refine sound_if _ _ _ (fun _ => h) fun _ => sound_if _ _ _ (fun _ => h) fun _ => sound_if _ _ _ (fun _ => h) fun _ => ?_
  refine sound_if _ _ _ (fun _ => h) fun _ => sound_if _ _ _ (fun _ => sound_updN _ _ _ h fun x hx => writeChan_sound _ _ _ x hx) fun _ => ?_
  refine sound_if _ _ _ (fun _ => h) fun _ => sound_if _ _ _ (fun _ => h) fun _ => sound_if _ _ _ (fun _ => h) fun _ => ?_
  exact sound_if _ _ _ (fun _ => h) fun _ => sound_if _ _ _ (fun _ => by rw [dropSapRef_chs]; exact h) fun _ => h

@[simp] theorem writeField_sound (d : Dev) (o v : Nat) (h : Sound d.chs) : Sound (writeField d o v).chs := by
  unfold writeField; (try dsimp only) <;> (repeat' split) <;> simp +contextual (maxDischargeDepth := 9) [h, foldl_sound, forCh_sound, ch_sound, chAll_sound, sound_tab, keeps_iff, keepsAll_iff, keepsSafe_iff, Chan.sound, Mod.sound, ite_dev, sound_ite]

theorem resetFlight_sound (a : Dev × Nat × Nat) (f : Flight) (h : Sound a.1.chs) : Sound (resetFlight a f).1.chs := by
  obtain ⟨d, n, k⟩ := a
  unfold resetFlight
  dsimp only at h ⊢
  (repeat' split) <;> simp_all

theorem resetFlights_sound (l : List Flight) (a : Dev × Nat × Nat) (h : Sound a.1.chs) : Sound (l.foldl resetFlight a).1.chs := by
  induction l generalizing a with
  | nil => exact h
  | cons f t ih => exact ih _ (resetFlight_sound a f h)

@[simp] theorem doReset_sound (d : Dev) (r : CmdRef) (qid : QId) (del : Bool) (h : Sound d.chs) : Sound (doReset d r qid del).chs := by
  have hf := resetFlights_sound ((liveFlights d).filter fun f => decide (f.ref.q = qid) && !sameRef f.ref r) (d, 0, 0) h
  unfold doReset
  dsimp only
  (repeat' split) <;> simp [h, hf]

@[simp] theorem abortFlight_sound (d : Dev) (f : Flight) (h : Sound d.chs) : Sound (abortFlight d f).chs := by
  unfold abortFlight; (try dsimp only) <;> (repeat' split) <;> simp +contextual (maxDischargeDepth := 9) [h, foldl_sound, forCh_sound, ch_sound, chAll_sound, sound_tab, keeps_iff, keepsAll_iff, keepsSafe_iff, Chan.sound, Mod.sound, ite_dev, sound_ite]

@[simp] theorem doAbort_sound (d : Dev) (r : CmdRef) (sq : QId) (cid : BitVec 16) (h : Sound d.chs) : Sound (doAbort d r sq cid).chs := by
  unfold doAbort; (try dsimp only) <;> (repeat' split) <;> simp +contextual (maxDischargeDepth := 9) [h, foldl_sound, forCh_sound, ch_sound, chAll_sound, sound_tab, keeps_iff, keepsAll_iff, keepsSafe_iff, Chan.sound, Mod.sound, ite_dev, sound_ite]

@[simp] theorem startAdmin_sound (d : Dev) (f : Flight) (h : Sound d.chs) : Sound (startAdmin d f).chs := by
  unfold startAdmin
  dsimp only
  (repeat' split) <;> simp [h]

theorem adminRun_sound (n : Nat) (d : Dev) (h : Sound d.chs) : Sound (adminRun n d).chs := by
  induction n generalizing d with
  | zero => exact h
  | succ n ih =>
    unfold adminRun
    split
    · exact h
    · split
      · exact ih _ (startAdmin_sound _ _ h)
      · exact h

@[simp] theorem adminNext_sound (d : Dev) (h : Sound d.chs) : Sound (adminNext d).chs := adminRun_sound _ _ h

@[simp] theorem nvDoneDev_sound (d : Dev) (h : Sound d.chs) : Sound (nvDoneDev d).chs := by
  unfold nvDoneDev; (try dsimp only) <;> (repeat' split) <;> simp +contextual (maxDischargeDepth := 9) [h, foldl_sound, forCh_sound, ch_sound, chAll_sound, sound_tab, keeps_iff, keepsAll_iff, keepsSafe_iff, Chan.sound, Mod.sound, ite_dev, sound_ite]

@[simp] theorem accept_sound (d : Dev) (r : CmdRef) (x : Entry) (h : Sound d.chs) : Sound (accept d r x).chs := by
  unfold accept; (try dsimp only) <;> (repeat' split) <;> simp +contextual (maxDischargeDepth := 9) [h, foldl_sound, forCh_sound, ch_sound, chAll_sound, sound_tab, keeps_iff, keepsAll_iff, keepsSafe_iff, Chan.sound, Mod.sound, ite_dev, sound_ite]

@[simp] theorem fetchEntry_sound (d : Dev) (q : QId) (e buf : List Byte) (h : Sound d.chs) : Sound (fetchEntry d q e buf).chs := by
  unfold fetchEntry; (try dsimp only) <;> (repeat' split) <;> simp +contextual (maxDischargeDepth := 9) [h, foldl_sound, forCh_sound, ch_sound, chAll_sound, sound_tab, keeps_iff, keepsAll_iff, keepsSafe_iff, Chan.sound, Mod.sound, ite_dev, sound_ite]

theorem serve_chs (d : Dev) (k a b c : Nat) (e : Dev) (n : Nat) (h : serve d k a b c = some (n, e)) : e.chs = d.chs := by
  unfold serve at h
  simp only [Option.map_eq_some_iff, Prod.mk.injEq] at h
  obtain ⟨_, _, _, rfl⟩ := h
  rfl

theorem roundPick_chs (d : Dev) (a b c : Nat) (e : Dev) (n : Nat) (h : roundPick d a b c = some (n, e)) : e.chs = d.chs := by
  unfold roundPick at h
  (repeat' split at h) <;> first
    | exact serve_chs _ _ _ _ _ _ _ h
    | cases h

theorem pick_chs (d : Dev) (k : Nat) (e : Dev) (h : pick d = some (k, e)) : e.chs = d.chs := by
  unfold pick at h
  dsimp only at h
  split at h
  · cases h
  split at h
  · exact serve_chs _ _ _ _ _ _ _ h
  · rcases Option.or_eq_some_iff.mp h with h | h
    · exact roundPick_chs _ _ _ _ _ _ h
    · exact roundPick_chs _ _ _ _ _ _ h.2

@[simp] theorem fetchDev_sound (d : Dev) (e buf : List Byte) (h : Sound d.chs) : Sound (fetchDev d e buf).chs := by
  unfold fetchDev
  split
  · exact h
  · have hp := pick_chs d _ _ ‹_›
    split
    · exact h
    · exact fetchEntry_sound _ _ _ _ (by rw [hp]; exact h)

@[simp] theorem hostLoss_sound (d : Dev) (h : Sound d.chs) : Sound (hostLoss d).chs := by
  unfold hostLoss; (try dsimp only) <;> (repeat' split) <;> simp +contextual (maxDischargeDepth := 9) [h, foldl_sound, forCh_sound, ch_sound, chAll_sound, sound_tab, keeps_iff, keepsAll_iff, keepsSafe_iff, Chan.sound, Mod.sound, ite_dev, sound_ite]

@[simp] theorem perstDev_sound (d : Dev) (h : Sound d.chs) : Sound (perstDev d).chs := by
  unfold perstDev; (try dsimp only) <;> (repeat' split) <;> simp +contextual (maxDischargeDepth := 9) [h, foldl_sound, forCh_sound, ch_sound, chAll_sound, sound_tab, keeps_iff, keepsAll_iff, keepsSafe_iff, Chan.sound, Mod.sound, ite_dev, sound_ite]

@[simp] theorem flrDev_sound (d : Dev) (h : Sound d.chs) : Sound (flrDev d).chs := by
  unfold flrDev; (try dsimp only) <;> (repeat' split) <;> simp +contextual (maxDischargeDepth := 9) [h, foldl_sound, forCh_sound, ch_sound, chAll_sound, sound_tab, keeps_iff, keepsAll_iff, keepsSafe_iff, Chan.sound, Mod.sound, ite_dev, sound_ite]

@[simp] theorem linkDownDev_sound (d : Dev) (h : Sound d.chs) : Sound (linkDownDev d).chs := by
  unfold linkDownDev; (try dsimp only) <;> (repeat' split) <;> simp +contextual (maxDischargeDepth := 9) [h, foldl_sound, forCh_sound, ch_sound, chAll_sound, sound_tab, keeps_iff, keepsAll_iff, keepsSafe_iff, Chan.sound, Mod.sound, ite_dev, sound_ite]

@[simp] theorem disableDev_sound (d : Dev) (h : Sound d.chs) : Sound (disableDev d).chs := by
  unfold disableDev; (try dsimp only) <;> (repeat' split) <;> simp +contextual (maxDischargeDepth := 9) [h, foldl_sound, forCh_sound, ch_sound, chAll_sound, sound_tab, keeps_iff, keepsAll_iff, keepsSafe_iff, Chan.sound, Mod.sound, ite_dev, sound_ite]

@[simp] theorem runCmd_sound (d : Dev) (c : Instr) (h : Sound d.chs) : Sound (runCmd d c).chs := by
  unfold runCmd; (try dsimp only) <;> (repeat' split) <;> simp +contextual (maxDischargeDepth := 9) [h, foldl_sound, forCh_sound, ch_sound, chAll_sound, sound_tab, keeps_iff, keepsAll_iff, keepsSafe_iff, Chan.sound, Mod.sound, ite_dev, sound_ite]

@[simp] theorem runFlight_sound (d : Dev) (f : Flight) (h : Sound d.chs) : Sound (runFlight d f).chs := by
  unfold runFlight; (try dsimp only) <;> (repeat' split) <;> simp +contextual (maxDischargeDepth := 9) [h, foldl_sound, forCh_sound, ch_sound, chAll_sound, sound_tab, keeps_iff, keepsAll_iff, keepsSafe_iff, Chan.sound, Mod.sound, ite_dev, sound_ite]

theorem runDueN_sound (n : Nat) (d : Dev) (h : Sound d.chs) : Sound (runDueN n d).chs := by
  induction n generalizing d with
  | zero => exact h
  | succ n ih =>
    unfold runDueN
    split
    · exact h
    · split
      · exact h
      · exact ih _ (runFlight_sound _ _ h)

@[simp] theorem runDue_sound (d : Dev) (h : Sound d.chs) : Sound (runDue d).chs := runDueN_sound _ _ h

@[simp] theorem looseReleases_sound (d : Dev) (h : Sound d.chs) : Sound (looseReleases d).chs := by
  unfold looseReleases; (try dsimp only) <;> (repeat' split) <;> simp +contextual (maxDischargeDepth := 9) [h, foldl_sound, forCh_sound, ch_sound, chAll_sound, sound_tab, keeps_iff, keepsAll_iff, keepsSafe_iff, Chan.sound, Mod.sound, ite_dev, sound_ite]

@[simp] theorem runCmds_sound (d : Dev) (h : Sound d.chs) : Sound (runCmds d).chs := by
  unfold runCmds; (try dsimp only) <;> (repeat' split) <;> simp +contextual (maxDischargeDepth := 9) [h, foldl_sound, forCh_sound, ch_sound, chAll_sound, sound_tab, keeps_iff, keepsAll_iff, keepsSafe_iff, Chan.sound, Mod.sound, ite_dev, sound_ite]

@[simp] theorem settle_sound (d : Dev) (h : Sound d.chs) : Sound (settle d).chs := by
  unfold settle; (try dsimp only) <;> (repeat' split) <;> simp +contextual (maxDischargeDepth := 9) [h, foldl_sound, forCh_sound, ch_sound, chAll_sound, sound_tab, keeps_iff, keepsAll_iff, keepsSafe_iff, Chan.sound, Mod.sound, ite_dev, sound_ite]

@[simp] theorem boundaryDone_sound (e : BdEvent) (d : Dev) (h : Sound d.chs) : Sound (boundaryDone e d).chs := by
  unfold boundaryDone; (try dsimp only) <;> (repeat' split) <;> simp +contextual (maxDischargeDepth := 9) [h, foldl_sound, forCh_sound, ch_sound, chAll_sound, sound_tab, keeps_iff, keepsAll_iff, keepsSafe_iff, Chan.sound, Mod.sound, ite_dev, sound_ite]

@[simp] theorem cueDev_sound (d : Dev) (h : Sound d.chs) : Sound (cueDev d).chs := by
  unfold cueDev; (try dsimp only) <;> (repeat' split) <;> simp +contextual (maxDischargeDepth := 9) [h, foldl_sound, forCh_sound, ch_sound, chAll_sound, sound_tab, keeps_iff, keepsAll_iff, keepsSafe_iff, Chan.sound, Mod.sound, ite_dev, sound_ite]

@[simp] theorem takeMean_sound (d : Dev) (means : List FiMean) (c : Ch) (h : Sound d.chs) : Sound (takeMean d means c).chs := by
  unfold takeMean; (try dsimp only) <;> (repeat' split) <;> simp +contextual (maxDischargeDepth := 9) [h, foldl_sound, forCh_sound, ch_sound, chAll_sound, sound_tab, keeps_iff, keepsAll_iff, keepsSafe_iff, Chan.sound, Mod.sound, ite_dev, sound_ite]

@[simp] theorem addPower_sound (d : Dev) (c : Ch) (h : Sound d.chs) : Sound (addPower d c).chs := by
  unfold addPower; (try dsimp only) <;> (repeat' split) <;> simp +contextual (maxDischargeDepth := 9) [h, foldl_sound, forCh_sound, ch_sound, chAll_sound, sound_tab, keeps_iff, keepsAll_iff, keepsSafe_iff, Chan.sound, Mod.sound, ite_dev, sound_ite]

@[simp] theorem outerNow_sound (d : Dev) (p : LTile × Stitch × Ch) (h : Sound d.chs) : Sound (outerNow d p).chs := by
  unfold outerNow; (try dsimp only) <;> (repeat' split) <;> simp +contextual (maxDischargeDepth := 9) [h, foldl_sound, forCh_sound, ch_sound, chAll_sound, sound_tab, keeps_iff, keepsAll_iff, keepsSafe_iff, Chan.sound, Mod.sound, ite_dev, sound_ite]

@[simp] theorem countFi_sound (d : Dev) (h : Sound d.chs) : Sound (countFi d).chs := by
  unfold countFi; (try dsimp only) <;> (repeat' split) <;> simp +contextual (maxDischargeDepth := 9) [h, foldl_sound, forCh_sound, ch_sound, chAll_sound, sound_tab, keeps_iff, keepsAll_iff, keepsSafe_iff, Chan.sound, Mod.sound, ite_dev, sound_ite]

@[simp] theorem boundaryWork_sound (d0 : Dev) (means : List FiMean) (sapBits : List (List Nat)) (h : Sound d0.chs) : Sound (boundaryWork d0 means sapBits).chs := by
  unfold boundaryWork; (try dsimp only) <;> (repeat' split) <;> simp +contextual (maxDischargeDepth := 9) [h, foldl_sound, forCh_sound, ch_sound, chAll_sound, sound_tab, keeps_iff, keepsAll_iff, keepsSafe_iff, Chan.sound, Mod.sound, ite_dev, sound_ite]

@[simp] theorem fiDev_sound (d : Dev) (means : List FiMean) (sapBits : List (List Nat)) (h : Sound d.chs) : Sound (fiDev d means sapBits).chs := by
  unfold fiDev; (try dsimp only) <;> (repeat' split) <;> simp +contextual (maxDischargeDepth := 9) [h, foldl_sound, forCh_sound, ch_sound, chAll_sound, sound_tab, keeps_iff, keepsAll_iff, keepsSafe_iff, Chan.sound, Mod.sound, ite_dev, sound_ite]

theorem forCh_off (f : Dev → Ch → Dev) (c : Ch) (hf : ∀ e k, (e.chs[c].prot.released = false ∨ k = c) → (f e k).chs[c].prot.released = false)
    (l : List Ch) (d : Dev) (h : d.chs[c].prot.released = false ∨ c ∈ l) : (forCh l f d).chs[c].prot.released = false := by
  induction l generalizing d with
  | nil => rcases h with h | h
           · exact h
           · cases h
  | cons a t ih =>
    apply ih
    rcases h with h | h
    · exact Or.inl (hf d a (Or.inl h))
    · rcases List.mem_cons.mp h with rfl | h
      · exact Or.inl (hf d c (Or.inr rfl))
      · exact Or.inr h

theorem guardOff_released (e : Dev) (k c : Ch) (h : e.chs[c].prot.released = false ∨ k = c) : (guardOff e k).chs[c].prot.released = false := by
  unfold guardOff
  rw [ch_get]
  split
  · rfl
  · rcases h with h | h
    · exact h
    · exact absurd h.symm ‹_›

@[simp] theorem outOfService_sound (d : Dev) (c : Ch) (cause : Nat) (h : Sound d.chs) : Sound (outOfService d c cause).chs := by
  unfold outOfService
  split
  · exact h
  · rw [(settleStops_frame _).1]
    refine sound_upd_at _ _ (fun x => { x with prot := { x.prot with oos := cause } }) ?_ fun hx => ?_
    · exact forCh_sound _ _ _ (by simp [h]) fun e k he => by split <;> simp [he]
    · have hm := sound_gates _ hx
      refine sound_idle _ hm ?_
      refine forCh_off _ c (fun e k he => ?_) _ _ (Or.inr (halves_self _ c))
      split
      · simp only [hist_frame]; exact guardOff_released e k c he
      · exact guardOff_released e k c he

@[simp] theorem tileFail_sound (d : Dev) (t : LTile) (cause : Nat) (h : Sound d.chs) : Sound (tileFail d t cause).chs := by
  unfold tileFail; (try dsimp only) <;> (repeat' split) <;> simp +contextual (maxDischargeDepth := 9) [h, foldl_sound, forCh_sound, ch_sound, chAll_sound, sound_tab, keeps_iff, keepsAll_iff, keepsSafe_iff, Chan.sound, Mod.sound, ite_dev, sound_ite]

@[simp] theorem tileFailureDev_sound (d : Dev) (t : LTile) (cause : Nat) (h : Sound d.chs) : Sound (tileFailureDev d t cause).chs := by
  unfold tileFailureDev; (try dsimp only) <;> (repeat' split) <;> simp +contextual (maxDischargeDepth := 9) [h, foldl_sound, forCh_sound, ch_sound, chAll_sound, sound_tab, keeps_iff, keepsAll_iff, keepsSafe_iff, Chan.sound, Mod.sound, ite_dev, sound_ite]

@[simp] theorem physFail_sound (d : Dev) (p : Phys) (cause : Nat) (h : Sound d.chs) : Sound (physFail d p cause).chs := by
  unfold physFail; (try dsimp only) <;> (repeat' split) <;> simp +contextual (maxDischargeDepth := 9) [h, foldl_sound, forCh_sound, ch_sound, chAll_sound, sound_tab, keeps_iff, keepsAll_iff, keepsSafe_iff, Chan.sound, Mod.sound, ite_dev, sound_ite]

@[simp] theorem eccTile_sound (d : Dev) (p : Phys) (wher : Nat) (h : Sound d.chs) : Sound (eccTile d p wher).chs := by
  unfold eccTile; (try dsimp only) <;> (repeat' split) <;> simp +contextual (maxDischargeDepth := 9) [h, foldl_sound, forCh_sound, ch_sound, chAll_sound, sound_tab, keeps_iff, keepsAll_iff, keepsSafe_iff, Chan.sound, Mod.sound, ite_dev, sound_ite]

@[simp] theorem eccJournal_sound (d : Dev) (f : Flight) (h : Sound d.chs) : Sound (eccJournal d f).chs := by
  unfold eccJournal; (try dsimp only) <;> (repeat' split) <;> simp +contextual (maxDischargeDepth := 9) [h, foldl_sound, forCh_sound, ch_sound, chAll_sound, sound_tab, keeps_iff, keepsAll_iff, keepsSafe_iff, Chan.sound, Mod.sound, ite_dev, sound_ite]

@[simp] theorem eccQueue_sound (d : Dev) (q : QId) (h : Sound d.chs) : Sound (eccQueue d q).chs := by
  unfold eccQueue
  dsimp only
  split
  · exact h
  · rw [(errLog_frame _ _ _ _ _ _ _ _).1, (ticks_frame _ _).1]
    refine forCh_sound _ _ _ ?_ fun e c he => ?_
    · dsimp only
      exact foldl_sound _ _ _ h fun e f he => by split <;> simp [he]
    · (repeat' split) <;> simp [he]

@[simp] theorem eccDev_sound (d : Dev) (place : EccPlace) (h : Sound d.chs) : Sound (eccDev d place).chs := by
  unfold eccDev; (try dsimp only) <;> (repeat' split) <;> simp +contextual (maxDischargeDepth := 9) [h, foldl_sound, forCh_sound, ch_sound, chAll_sound, sound_tab, keeps_iff, keepsAll_iff, keepsSafe_iff, Chan.sound, Mod.sound, ite_dev, sound_ite]

@[simp] theorem eccReadDev_sound (d : Dev) (place : EccPlace) (errs : List SymErr) (h : Sound d.chs) : Sound (eccReadDev d place errs).chs := by
  unfold eccReadDev; (try dsimp only) <;> (repeat' split) <;> simp +contextual (maxDischargeDepth := 9) [h, foldl_sound, forCh_sound, ch_sound, chAll_sound, sound_tab, keeps_iff, keepsAll_iff, keepsSafe_iff, Chan.sound, Mod.sound, ite_dev, sound_ite]

@[simp] theorem scrubDev_sound (d : Dev) (dur : Nat) (found : List (RowAddr × List SymErr)) (kat : List Phys) (h : Sound d.chs) : Sound (scrubDev d dur found kat).chs := by
  unfold scrubDev; (try dsimp only) <;> (repeat' split) <;> simp +contextual (maxDischargeDepth := 9) [h, foldl_sound, forCh_sound, ch_sound, chAll_sound, sound_tab, keeps_iff, keepsAll_iff, keepsSafe_iff, Chan.sound, Mod.sound, ite_dev, sound_ite]

@[simp] theorem segResult_sound (k : Nat) (d : Dev) (r : SegResult) (h : Sound d.chs) : Sound (segResult k d r).chs := by
  unfold segResult; (try dsimp only) <;> (repeat' split) <;> simp +contextual (maxDischargeDepth := 9) [h, foldl_sound, forCh_sound, ch_sound, chAll_sound, sound_tab, keeps_iff, keepsAll_iff, keepsSafe_iff, Chan.sound, Mod.sound, ite_dev, sound_ite]

@[simp] theorem segmentDev_sound (d : Dev) (rs : List SegResult) (h : Sound d.chs) : Sound (segmentDev d rs).chs := by
  unfold segmentDev; (try dsimp only) <;> (repeat' split) <;> simp +contextual (maxDischargeDepth := 9) [h, foldl_sound, forCh_sound, ch_sound, chAll_sound, sound_tab, keeps_iff, keepsAll_iff, keepsSafe_iff, Chan.sound, Mod.sound, ite_dev, sound_ite]

@[simp] theorem calDev_sound (d : Dev) (t : PTile) (current : Bool) (r : CalResult) (h : Sound d.chs) : Sound (calDev d t current r).chs := by
  unfold calDev; (try dsimp only) <;> (repeat' split) <;> simp +contextual (maxDischargeDepth := 9) [h, foldl_sound, forCh_sound, ch_sound, chAll_sound, sound_tab, keeps_iff, keepsAll_iff, keepsSafe_iff, Chan.sound, Mod.sound, ite_dev, sound_ite]

/-- Every channel is off: its gates are off and it is not released. -/
def AllOff (chs : Bank Chan 128) : Prop := ∀ c : Ch, chs[c].mod.sound = true ∧ chs[c].prot.released = false

theorem allOff_sound (chs : Bank Chan 128) (h : AllOff chs) : Sound chs := fun c => sound_idle _ (h c).1 (h c).2

theorem mapTile_off (d : Dev) (t : LTile) (h : AllOff d.chs) : AllOff (mapTile d t).chs := by
  unfold mapTile
  dsimp only
  split
  · exact h
  · split
    · exact h
    · refine forCh_holds (fun e => AllOff e.chs) _ (fun e c he k => ?_) _ _ h
      rw [ch_get]
      split
      · exact he k
      · exact he k

@[simp] theorem audioDown_sound (d0 : Dev) (h : Sound d0.chs) : Sound (audioDown d0).chs := by
  unfold audioDown
  dsimp only
  rw [(trackUnbound_frame _).1]
  refine allOff_sound _ (foldl_holds (fun e => AllOff e.chs) _ (fun e t he => mapTile_off e t he) _ _ fun c => ?_)
  dsimp only
  rw [tab_get]
  exact ⟨rfl, rfl⟩

@[simp] theorem nvCut_chs (d : Dev) : (nvCut d).chs = d.chs := by
  unfold nvCut
  rw [foldl_chs _ _ _ (fun e a => nvUndo_chs e a)]

@[simp] theorem guardReset_sound (d : Dev) (p : GuardPins) (h : Sound d.chs) : Sound (guardReset d p).chs := by
  have ha : Sound (audioDown (nvCut d)).chs := audioDown_sound _ (by rw [nvCut_chs]; exact h)
  unfold guardReset
  dsimp only
  exact sound_tab _ _ ha fun c x hx => sound_idle _ (sound_gates x hx) rfl

@[simp] theorem guardReadyDev_sound (d : Dev) (h : Sound d.chs) : Sound (guardReadyDev d).chs := by
  unfold guardReadyDev
  dsimp only
  split
  · exact h
  · refine foldl_sound _ _ _ ?_ ((keepsSafe_iff _).2 fun e p he => ?_)
    · split
      · exact safeDev_sound _ h
      · exact h
    · split
      · exact tripPinDev_sound _ _ he
      · exact he

@[simp] theorem supplyFaultDev_sound (d : Dev) (h : Sound d.chs) : Sound (supplyFaultDev d).chs := by
  unfold supplyFaultDev; (try dsimp only) <;> (repeat' split) <;> simp +contextual (maxDischargeDepth := 9) [h, foldl_sound, forCh_sound, ch_sound, chAll_sound, sound_tab, keeps_iff, keepsAll_iff, keepsSafe_iff, Chan.sound, Mod.sound, ite_dev, sound_ite]

@[simp] theorem arstDev_sound (d : Dev) (v : W32) (late : Bool) (h : Sound d.chs) : Sound (arstDev d v late).chs := by
  unfold arstDev; (try dsimp only) <;> (repeat' split) <;> simp +contextual (maxDischargeDepth := 9) [h, foldl_sound, forCh_sound, ch_sound, chAll_sound, sound_tab, keeps_iff, keepsAll_iff, keepsSafe_iff, Chan.sound, Mod.sound, ite_dev, sound_ite]

@[simp] theorem audioResetDev_sound (d : Dev) (h : Sound d.chs) : Sound (audioResetDev d).chs := by
  unfold audioResetDev; (try dsimp only) <;> (repeat' split) <;> simp +contextual (maxDischargeDepth := 9) [h, foldl_sound, forCh_sound, ch_sound, chAll_sound, sound_tab, keeps_iff, keepsAll_iff, keepsSafe_iff, Chan.sound, Mod.sound, ite_dev, sound_ite]

theorem badPart_sound (d : Dev) (all : List BadPart) (b : BadPart) (e : Dev) (h : Sound d.chs) (he : badPart d all b = some e) : Sound e.chs := by
  unfold badPart at he
  split at he
  · unfold badTile at he; dsimp only at he
    (repeat' split at he) <;> simp only [Option.some.injEq, reduceCtorEq] at he <;> subst he <;> exact h
  · unfold badSegment at he; dsimp only at he
    (repeat' split at he) <;> simp only [Option.some.injEq, reduceCtorEq] at he <;> subst he
    · exact h
    · exact ch_sound _ _ _ h fun x hx => sound_same x _ hx rfl rfl rfl rfl rfl rfl
  · unfold badConverter at he; dsimp only at he
    (repeat' split at he) <;> simp only [Option.some.injEq, reduceCtorEq] at he <;> subst he <;> exact h
  · unfold badSensor at he; dsimp only at he
    (repeat' split at he) <;> simp only [Option.some.injEq, reduceCtorEq] at he <;> subst he <;> simp [h]
  · unfold badRow at he
    split at he
    · cases he
    · simp only [Option.some.injEq] at he; subst he; simp [h]
  · cases he

theorem badParts_sound (all l : List BadPart) (d : Dev) (h : Sound d.chs) : Sound (badParts all l d).1.chs := by
  induction l generalizing d with
  | nil => exact h
  | cons b t ih =>
    unfold badParts
    split
    · exact ih _ (badPart_sound d all b _ h ‹_›)
    · exact ih d h

@[simp] theorem growthDev_sound (d : Dev) (bad : List BadPart) (h : Sound d.chs) : Sound (growthDev d bad).chs := by
  have hb := badParts_sound bad bad d h
  unfold growthDev
  dsimp only
  (repeat' split) <;> first
    | exact h
    | exact hb

@[simp] theorem autoGroup_sound (d : Dev) (g : RGroup) (h : Sound d.chs) : Sound (autoGroup d g).chs := by
  unfold autoGroup
  dsimp only
  split
  · exact h
  · have he := releaseGroupNow_sound d g _ _ h ‹_›
    split
    · exact he
    · simpa using he

@[simp] theorem autoReleaseDev_sound (d : Dev) (h : Sound d.chs) : Sound (autoReleaseDev d).chs := by
  unfold autoReleaseDev; (try dsimp only) <;> (repeat' split) <;> simp +contextual (maxDischargeDepth := 9) [h, foldl_sound, forCh_sound, ch_sound, chAll_sound, sound_tab, keeps_iff, keepsAll_iff, keepsSafe_iff, Chan.sound, Mod.sound, ite_dev, sound_ite]

@[simp] theorem audioWrite_sound (d : Dev) (o : Nat) (w : W32) (h : Sound d.chs) : Sound (audioWrite d o w).chs := by
  unfold audioWrite; (try dsimp only) <;> (repeat' split) <;> simp +contextual (maxDischargeDepth := 9) [h, foldl_sound, forCh_sound, ch_sound, chAll_sound, sound_tab, keeps_iff, keepsAll_iff, keepsSafe_iff, Chan.sound, Mod.sound, ite_dev, sound_ite]

@[simp] theorem regWrite_sound (d : Dev) (o : Nat) (w : W32) (late : Bool) (h : Sound d.chs) : Sound (regWrite d o w late).chs := by
  unfold regWrite; (try dsimp only) <;> (repeat' split) <;> simp +contextual (maxDischargeDepth := 9) [h, foldl_sound, forCh_sound, ch_sound, chAll_sound, sound_tab, keeps_iff, keepsAll_iff, keepsSafe_iff, Chan.sound, Mod.sound, ite_dev, sound_ite]

@[simp] theorem barWrite_sound (d : Dev) (o : Nat) (w : W32) (h : Sound d.chs) : Sound (barWrite d o w).chs := by
  unfold barWrite; (try dsimp only) <;> (repeat' split) <;> simp +contextual (maxDischargeDepth := 9) [h, foldl_sound, forCh_sound, ch_sound, chAll_sound, sound_tab, keeps_iff, keepsAll_iff, keepsSafe_iff, Chan.sound, Mod.sound, ite_dev, sound_ite]

@[simp] theorem smbWriteDev_sound (d : Dev) (w : W32) (late : Bool) (h : Sound d.chs) : Sound (smbWriteDev d w late).chs := by
  unfold smbWriteDev; (try dsimp only) <;> (repeat' split) <;> simp +contextual (maxDischargeDepth := 9) [h, foldl_sound, forCh_sound, ch_sound, chAll_sound, sound_tab, keeps_iff, keepsAll_iff, keepsSafe_iff, Chan.sound, Mod.sound, ite_dev, sound_ite]

end Sys2Proof.Machine
end

