-- ==== Sys2Proof/WellFormed.lean ====
section
/-!
DEFINITION. The commands the block can be given: the operands whose number or range the specification fixes and the types leave open.
-/

namespace Sys2Proof

/-- A code word's place: 16,384 words in each tile memory, 131,072 rows of eight in shared SRAM (Table 3-9, R497). (DESIGN CHOICE, log entry 71.) -/
def RowAddr.wf (r : RowAddr) : Bool := decide (r.word < if r.mem.val < 23 then 16384 else 131072 * 8)

/-- An error in one byte of a read that spans `n` bytes. (DESIGN CHOICE, log entry 71.) -/
def SymErr.wf (n : Nat) (e : SymErr) : Bool := decide (e.at_ < n ∧ e.err ≠ 0)

/-- Bytes that a read of a place spans: a group of the non-volatile store, or one code word (R490, R492). -/
def EccPlace.span : EccPlace → Nat
  | .nvFirmware _ | .nvImage _ _ | .nvRecord _ | .nvHealth => 280
  | _ => 35

/-- A part a growth step reports. (DESIGN CHOICE, log entry 71.) -/
def BadPart.wf : BadPart → Bool
  | .row r => r.wf
  | _ => true

/-- A command the block can be given. A field that a command itself checks, such as a length that completes INVALID_FIELD, isn't
checked here. (DESIGN CHOICE, log entry 6; DESIGN CHOICE, log entry 71.) -/
def Instr.wf : Instr → Bool
  | .carrierBoundary samples rails => decide (samples.length = 128 ∧ rails.length = 16)
  | .fiBoundary means sapBits => decide (means.length = 128 ∧ sapBits.length = 8)
  | .cmpEvent _ _ ticks _ => decide (ticks < 512)
  | .class1Trip _ _ at_ => decide (at_.fine < 4096)
  | .stewardPoll _ hsvP hsvN _ => decide (hsvP < 65536 ∧ hsvN < 65536)
  | .zaithWord _ phase => decide (phase < 8192)
  | .scrubPass _ found _ => found.all fun f => f.1.wf && f.2.all (SymErr.wf 35)
  | .eccUncorrectable found => found.errs.all (SymErr.wf found.place.span)
  | .growthStep bad => bad.all BadPart.wf
  | .sapFrame _ bits clocks => decide (bits.length ≤ clocks)
  | .commandFetch entry buffer => decide (entry.length = 64 ∧ buffer.length ≤ 1048576)
  | .fwDownload _ _ chunk => decide (chunk.length ≤ 1048576)
  | .imageLoad _ _ _ _ chunk => decide (chunk.length ≤ 1048576)
  | .createQueue _ cfg => decide (cfg.vector < 65536 ∧ cfg.sqDepth < 65536 ∧ cfg.cqDepth < 65536)
  | _ => true

end Sys2Proof
end

