-- ==== Sys2Proof/Tests/Slice0.lean ====
section
/-!
SUPPORT. Tests: an ill-formed command for each check, examples the specification works out, and for each statement states that meet its
hypotheses, clause by clause.
-/

set_option Elab.async false
set_option linter.all false

namespace Sys2Proof.Tests

open Sys2Proof Sys2Proof.Machine

/-! ### States the tests start from -/

/-- A part that has grown, with the host open, locked to REFIN and precharged, and no image. -/
def up : Dev := { Dev.reset with
  guard := { Guard.reset with ready := true, audioReset := false, prsnt := true }
  tb := { Timebase.reset with running := true, started := true, state := .locked, active := 2, qual := 7, stc := 64 }
  power := Vector.replicate 16 { Power.reset with rail := ⟨1500, -1500⟩ }
  rails := { Rails.reset with preState := 4, okLast := true }
  admin := { Admin.reset with booted := true, bringup := false }
  qif := { Qif.reset with en := true, rdy := true, linkUp := true }
  growth := ⟨0x80, 1, 4⟩ }

/-- An image of no stitches. -/
def bare : Image := ⟨7, 0, [], 18, 0, 0, 0x80, [], [], [], []⟩

/-- `up` with that image in force. -/
def live : Dev := { up with core := { up.core with image := some bare } }

/-- Changes of one part of `live`. -/
def chan (f : Chan → Chan) : Dev := live.ch 3 f
def mod (f : Mod → Mod) : Dev := chan fun x => { x with mod := f x.mod }
def prot (f : Prot → Prot) : Dev := chan fun x => { x with prot := f x.prot }
def cfg (f : ChanCfg → ChanCfg) : Dev := chan fun x => { x with cfg := f x.cfg }
def guard (f : Guard → Guard) : Dev := { live with guard := f live.guard }
def rails (f : Rails → Rails) : Dev := { live with rails := f live.rails }
def tb (f : Timebase → Timebase) : Dev := { live with tb := f live.tb }
def qif (f : Qif → Qif) : Dev := { live with qif := f live.qif }
def admin (f : Admin → Admin) : Dev := { live with admin := f live.admin }

/-- A command of Q0 with a buffer, and one of Q1. -/
def r0 : CmdRef := ⟨0, 7, 0x1000, 1152, 0⟩
def r1 : CmdRef := ⟨1, 8, 0x1000, 1152, 0⟩

/-! ### Well-formed commands -/

theorem test_wf_carrierBoundary : Instr.wf (.carrierBoundary [] []) = false := by decide
theorem test_wf_fiBoundary : Instr.wf (.fiBoundary [] []) = false := by decide
theorem test_wf_cmpEvent : Instr.wf (.cmpEvent 0 false 512 ⟨0, 0⟩) = false := by decide
theorem test_wf_class1Trip : Instr.wf (.class1Trip 0 false ⟨4096, 1300⟩) = false := by decide
theorem test_wf_stewardPoll : Instr.wf (.stewardPoll true 65536 0 ⟨0, ⟨0, 0⟩⟩) = false := by decide
theorem test_wf_zaithWord : Instr.wf (.zaithWord 0 8192) = false := by decide
theorem test_wf_scrubPass : Instr.wf (.scrubPass 0 [(⟨0, 16384⟩, [])] []) = false := by decide
theorem test_wf_scrubPass_shared : Instr.wf (.scrubPass 0 [(⟨23, 16384⟩, [⟨34, 1⟩])] []) = true := by decide
theorem test_wf_scrubPass_symbol : Instr.wf (.scrubPass 0 [(⟨0, 0⟩, [⟨35, 1⟩])] []) = false := by decide
theorem test_wf_eccUncorrectable : Instr.wf (.eccUncorrectable ⟨.nvRecord 0, [⟨280, 1⟩]⟩) = false := by decide
theorem test_wf_growthStep : Instr.wf (.growthStep [.row ⟨23, 1048576⟩]) = false := by decide
theorem test_wf_sapFrame : Instr.wf (.sapFrame 0 [true] 0) = false := by decide
theorem test_wf_commandFetch : Instr.wf (.commandFetch [] []) = false := by decide
theorem test_wf_fwDownload : Instr.wf (.fwDownload r0 0 [1]) = true := by decide
theorem test_wf_createQueue : Instr.wf (.createQueue r0 ⟨1, 0, false, 65536, 2, 2, 0, 0⟩) = false := by decide
theorem test_wf_snapReq : Instr.wf .snapReq = true := by decide

/-! ### States that meet the statements' hypotheses -/

theorem meets_StepKeepsSafe : Safe State.reset.dev ∧ ∃ t, step { State.reset with pending := [.snapReq] } = .next t :=
  ⟨reset_safe, _, rfl⟩

/-- A port that is an enabled slave. -/
def slave : Dev := { up with ports := { up.ports with sap := up.ports.sap.set 0 { Sap.reset with fmt := { SapFmt.reset with en := true, master := false } } } }

/-- A timebase after the loss of an entry. -/
def without (t : Timebase) (e : Nat) : Timebase := { t with qual := t.qual &&& ~~~(1#3 <<< e) }
def noFallback : Timebase := { up.tb with autoFallback := false }

theorem meets_SourcesQualifyAndAreLost :
    (up.guard.audioReset = false ∧ entrySrc up.tb 0 ≠ 0 ∧ entrySrc up.tb 0 ≠ 3) ∧
    (slave.guard.audioReset = false ∧ entrySrc slave.tb 2 = 3 ∧ (look slave.ports.sap slave.tb.sapSel Sap.reset).fmt.master = false ∧
      (look slave.ports.sap slave.tb.sapSel Sap.reset).fmt.en = true) ∧
    Dev.reset.guard.audioReset = true ∧ entrySrc (tb fun t => { t with src := [0, 1, 2] }).tb 0 = 0 ∧
    (entrySrc up.tb 2 = 3 ∧ (look up.ports.sap up.tb.sapSel Sap.reset).fmt.en = false) ∧
    entryQual Dev.reset.tb 0 = false ∧
    (entryQual up.tb 1 = true ∧ entrySrc up.tb 1 = 2 ∧ up.tb.state = .locked ∧ up.tb.active = 2) ∧
    (entryQual up.tb 0 = true ∧ entrySrc up.tb 0 = 1) ∧
    (entryQual noFallback 1 = true ∧ noFallback.state = .locked ∧ srcQual (without noFallback 1) noFallback.active = false ∧
      noFallback.autoFallback = false) ∧
    (entryQual { up.tb with qual := 2 } 1 = true ∧ up.tb.state = .locked ∧ srcQual (without { up.tb with qual := 2 } 1) up.tb.active = false ∧
      bestSrc (without { up.tb with qual := 2 } 1) = 0) ∧
    (srcQual (without up.tb 0) up.tb.active = true ∧ up.tb.autoFallback = true ∧ bestSrc (without up.tb 1) ≠ 0) := by decide +kernel

/-- `up` in HOLDOVER with REFIN qualified again, with and without a released group. -/
def lost : Dev := { up with tb := { up.tb with qual := 1, state := .holdover } }
def lostOn : Dev := { lost with groupRel := lost.groupRel.set 0 true }

theorem meets_SourceSelection :
    (lostOn.guard.audioReset = false ∧ lostOn.tb.stepping = false ∧ wanted lostOn.tb ≠ 0 ∧ anyGroup lostOn = true) ∧
    (lost.guard.audioReset = false ∧ lost.tb.stepping = false ∧ wanted lost.tb ≠ 0 ∧ anyGroup lost = false) ∧
    wanted up.tb = 0 ∧
    (let t := (tb fun t => { t with stc := 960000 }).tb
     t.revert = true ∧ t.state = .locked ∧ entryQual t 0 = true ∧ srcRank t (entrySrc t 0) < srcRank t t.active ∧
       t.qualAt.getD (entrySrc t 0).toNat 0 + 960000 ≤ t.stc) ∧
    (tb fun t => { t with revert := false }).tb.revert = false ∧ ¬(up.tb.qualAt.getD (entrySrc up.tb 0).toNat 0 + 960000 ≤ up.tb.stc) ∧
    (tb fun t => { t with stepping := true }).tb.stepping = true ∧ up.tb.stepping = false ∧
    (tb fun t => { t with slewing := true }).tb.slewing = true ∧ up.tb.slewing = false ∧
    (tb fun t => { t with marksPresent := true }).tb.marksPresent = true ∧ up.tb.marksPresent = false ∧ up.tb.state ≠ .holdover ∧
    up.tb.snapPend = false := by decide +kernel

theorem meets_HoldoverMarksAndSnapshot :
    (tb fun t => { t with state := .holdover }).tb.state = .holdover ∧ up.guard.audioReset = false ∧
    (tb fun t => { t with snapPend := true }).tb.snapPend = true := by decide +kernel

/-- A Zaith word with its CRC, whether it has it, and its index. -/
def zaith (n : Nat) : W64 := BitVec.ofNat 64 (n + 2 ^ 56 * zaithCrc n)
def zright (w : W64) : Bool := decide (zaithCrc w.toNat = bits w.toNat 56 8)
def zidx (n : Nat) : Nat := bits (zaith n).toNat 5 3
/-- Part of a frame count seen, with the place of its mark kept and without. -/
def counted : Dev := tb fun t => { t with lowSeen := true, frameLow := 5, frameSeen := true, frameCount := 0 }
def countedMark : Dev := tb fun t => { t with lowSeen := true, frameLow := 5, markWait := some (64, 0), markCycle := true }

theorem meets_ZaithWordTakenIn : Dev.reset.guard.audioReset = true ∧ up.guard.audioReset = false ∧ zright (zaith 0x40 ^^^ 0x100) = false ∧
    (∀ n ∈ [0x00, 0x10, 0x20, 0x30, 0x40, 0x60, 0xE0], zright (zaith n) = true) ∧ zidx 0x00 = 0 ∧ zidx 0x10 = 0 ∧ zidx 0x20 = 1 ∧ zidx 0x40 = 2 ∧
    zidx 0x60 = 3 ∧ zidx 0xE0 = 7 ∧ up.tb.lowSeen = false ∧
    (counted.tb.lowSeen = true ∧ counted.tb.markCycle = false ∧ (zaith 0x30).getLsbD 4 = true ∧ counted.qif.flights = [] ∧
      counted.tb.frameSeen = true ∧ counted.tb.frameCount + 1 < counted.tb.frameLow + 2 ^ 32 * (bits (zaith 0x20).toNat 8 32 % 2 ^ 16)) ∧
    (countedMark.tb.lowSeen = true ∧ (zaith 0x20).getLsbD 4 = false ∧ countedMark.tb.markWait = some (64, 0) ∧ countedMark.tb.markCycle = true ∧
      countedMark.qif.flights = []) := by decide +kernel

/-- A part whose timebase has started and seen no Fi boundary, the same in HOLDOVER, and one at the end of an Fi period. -/
def fresh : Dev := { up with tb := { Timebase.reset with running := true } }
def freshHeld : Dev := { fresh with tb := { fresh.tb with state := .holdover } }
def fiEnd : Dev := tb fun t => { t with m := 18 }

theorem meets_FiBoundaryAdvancesStc :
    (fiEnd.guard.audioReset = false ∧ fiEnd.tb.running = true ∧ fiEnd.tb.started = true ∧ fiEnd.tb.n ≤ fiEnd.tb.m) ∧
    (fresh.guard.audioReset = false ∧ fresh.tb.running = true ∧ fresh.tb.started = false ∧ fresh.tb.state ≠ .holdover) := by decide +kernel

/-- A channel in its loop without feed-forward, its counter running, with a pending word and an error. -/
def looping (w : Q23) (e1 : Int) (mid : Bool) : Dev := chan fun x => { x with
  cfg := { x.cfg with ffEn := false, updMid := mid }
  mod := { x.mod with counting := true, pending := w, e1 := e1 }
  prot := { x.prot with drive := .loop, released := true } }

/-- The compare value of R109 before its limits. -/
def rawY (d : Dev) : Int := Int.fdiv (((wordMag d.chs[(3 : Ch)].mod.pending : Nat) - 2 * d.chs[(3 : Ch)].mod.e1 + d.chs[(3 : Ch)].mod.e2) + 2 ^ 10) (2 ^ 11)

theorem meets_TakeUps :
    (∀ d ∈ [looping 0 2048 false, looping 0x7FFFFF#24 (-4096) false, looping 0x400000#24 0 false, looping 0 0 true],
      d.chs[(3 : Ch)].mod.counting = true ∧ d.chs[(3 : Ch)].mod.halted = false ∧ d.chs[(3 : Ch)].mod.exitHold = 0 ∧
      d.chs[(3 : Ch)].prot.drive = .loop ∧ d.chs[lead d 3].meas = none) ∧
    (looping 0 0 false).chs[(3 : Ch)].cfg.updMid = false ∧ (looping 0 0 true).chs[(3 : Ch)].cfg.updMid = true ∧
    rawY (looping 0 2048 false) < 0 ∧ 4095 < rawY (looping 0x7FFFFF#24 (-4096) false) ∧ rawY (looping 0x400000#24 0 false) = 2048 ∧
    live.chs[(3 : Ch)].mod.counting = false ∧ (mod fun m => { m with halted := true }).chs[(3 : Ch)].mod.halted = true ∧
    (prot fun p => { p with drive := .measure, sweep := true }).chs[(3 : Ch)].prot.sweep = true ∧ live.chs[(3 : Ch)].prot.drive = .off := by
  decide +kernel

theorem meets_RequantizerShapesError : (0 < 2 ^ 23 ∧ 128 ≤ 128 ∧ 128 ≤ 256) ∧ 2 ^ 23 - 1 < 2 ^ 23 ∧ 128 ≤ 256 := by decide

theorem meets_PlanNeverBothOn : ¬(true = true ∧ false = true) ∧ 40 ≤ 40 := by decide

/-- Gate edges programmed, the last of them past the period's end; a halted channel, released and not. -/
def edged (pos : Nat) (high : Bool) : Dev := mod fun m => { m with plan := [⟨pos, high, true⟩] }
def frozen (on : Bool) : Dev := chan fun x => { x with mod := { x.mod with halted := true }, prot := { x.prot with released := on, drive := .loop } }

theorem meets_GateEdgesAndHalt :
    (∀ h ∈ [true, false], (edged 4095 h).chs[(3 : Ch)].mod.plan = [⟨4095, h, true⟩] ∧ (edged 4095 h).chs[(3 : Ch)].mod.halted = false ∧
      4095 < 16 * (edged 4095 h).chs[(3 : Ch)].mod.period) ∧
    (∃ e ∈ (edged 4096 true).chs[(3 : Ch)].mod.plan.head?, 16 * (edged 4096 true).chs[(3 : Ch)].mod.period ≤ e.pos) ∧
    (frozen true).chs[(3 : Ch)].mod.halted = true ∧ live.chs[(3 : Ch)].mod.plan = [] ∧
    (guard fun g => { g with dbgPermit := true }).guard.dbgPermit = true ∧ live.guard.audioReset = false ∧ live.guard.dbgPermit = false ∧
    Dev.reset.guard.audioReset = true ∧ (frozen true).halt = false ∧ { live with halt := true }.halt = true ∧
    ((3 : Ch) ∈ halves (frozen true) 3 ∧ (frozen true).chs[(3 : Ch)].prot.released = true) ∧
    (halves (frozen false) 3 = [3] ∧ (frozen false).chs[(3 : Ch)].prot.released = false) ∧
    (1#32).getLsbD 0 = true ∧ (2#32).getLsbD 0 = false := by decide +kernel

/-- A running counter with compare values at the edge of its period, and one past it. -/
def counting : Dev := mod fun m => { m with counting := true, cmpANow := 255, cmpBNow := 255 }
def countOff : Dev := mod fun m => { m with counting := true, cmpANow := 256, cmpBNow := 256, auxA := true, auxB := true }
def eviOn (n : Nat) : Dev := { live with evi := live.evi.set 0 (3, 2, 1, true, 1, n) }

theorem meets_CounterEvents :
    (counting.chs[(3 : Ch)].mod.counting = true ∧ counting.chs[(3 : Ch)].mod.halted = false ∧
      counting.chs[(3 : Ch)].mod.cmpANow < counting.chs[(3 : Ch)].mod.period ∧
      counting.chs[(3 : Ch)].mod.cmpBNow < counting.chs[(3 : Ch)].mod.period ∧
      counting.chs[(3 : Ch)].mod.auxA = false ∧ counting.chs[(3 : Ch)].mod.auxB = false) ∧
    countOff.chs[(3 : Ch)].mod.auxA = true ∧ 15 < 16 ∧ 240 < 241 ∧ live.chs[(3 : Ch)].mod.counting = false ∧ countOff.chs[(3 : Ch)].mod.period ≤ countOff.chs[(3 : Ch)].mod.cmpANow ∧
    countOff.chs[(3 : Ch)].mod.period ≤ countOff.chs[(3 : Ch)].mod.cmpBNow := by decide +kernel

theorem meets_CounterEvents_signal :
    ((eviOn 2).evi[(0 : Fin 16)] = (3, 2, 1, true, 1, 2) ∧ 1 < 2) ∧ ((eviOn 1).evi[(0 : Fin 16)] = (3, 2, 1, true, 1, 1) ∧ 1 ≤ 1) ∧
    live.evi[(0 : Fin 16)] = (0, 0, 0, false, 0, 0) := ⟨⟨rfl, by decide⟩, ⟨rfl, by decide⟩, rfl⟩

/-- A bridged pair of channels 2 and 3, and a channel that may be driven by hand, released or not, one in manual modulation, and one with a word to
hand over. -/
def bridge (d : Dev) : Dev := (d.ch 2 fun x => { x with cfg := { x.cfg with bridged := true } }).ch 3 fun x => { x with cfg := { x.cfg with bridged := true } }
def handy (on : Bool) : Dev := { (chan fun x => { x with cfg := { x.cfg with manPermit := true }, prot := { x.prot with released := on } }) with
  core := live.core }
def byHand (halted : Bool) : Dev := chan fun x => { x with mod := { x.mod with manual := true, halted := halted }, prot := { x.prot with drive := .manual } }
def handing (halted man : Bool) : Dev := mod fun m => { m with handoff := [1], halted := halted, manual := man }

theorem meets_ManualWordsAndHandover :
    Dev.reset.guard.audioReset = true ∧ live.guard.audioReset = false ∧
    (bridgedB (bridge live) 3 = true ∧ (3 : Ch).val % 2 = 1) ∧ bridgedB live 3 = false ∧
    ((handy true).chs[(3 : Ch)].mod.manEnable = false ∧ (1#32).getLsbD 0 = true ∧ (handy true).chs[(3 : Ch)].cfg.manPermit = true ∧
      (handy true).chs[(3 : Ch)].prot.released = true) ∧
    ((handy false).chs[(3 : Ch)].cfg.manPermit = true ∧ manualAllowed (handy false) 3 = true) ∧
    ((mod fun m => { m with manEnable := true }).chs[(3 : Ch)].mod.manEnable = true ∧ (0#32).getLsbD 0 = false) ∧
    (live.chs[(3 : Ch)].mod.manEnable = false ∧ live.chs[(3 : Ch)].cfg.manPermit = false) ∧
    (3 ∈ halves (bridge live) 2 ∧ (3 : Ch) ≠ 2 ∧ (2 : Ch).val % 2 ≠ 1) ∧
    ((byHand false).chs[(3 : Ch)].mod.manual = true ∧ (byHand false).chs[(3 : Ch)].mod.halted = false ∧
      (byHand false).chs[(3 : Ch)].prot.drive = .manual) ∧
    (byHand true).chs[(3 : Ch)].mod.halted = true ∧
    ((handing false false).chs[(3 : Ch)].mod.handoff = [1] ∧ (handing false false).chs[(3 : Ch)].mod.halted = false ∧
      (handing false false).chs[(3 : Ch)].mod.manual = false ∧ (handing false false).chs[(3 : Ch)].prot.drive ≠ .safeStop) ∧
    ((handing true false).chs[(3 : Ch)].mod.handoff = [1] ∧ (handing true false).chs[(3 : Ch)].mod.halted = true) ∧
    (handing false true).chs[(3 : Ch)].mod.manual = true ∧ live.chs[(3 : Ch)].mod.handoff = [] := by decide +kernel

/-- Release group 0 of channels 3 and 4, with the state of channel 4 given. -/
def group (p : Prot) : Dev :=
  let d := cfg fun x => { x with relGroup := some 0 }
  d.ch 4 fun x => { x with cfg := { x.cfg with relGroup := some 0 }, prot := p }
def grouped (f : Dev → Dev) : Bool := releaseRefused (f (group Prot.reset)) 0

theorem meets_ReleaseGroup :
    (releaseRefused up 0 = true ∧ grouped (fun d => { d with rails := { d.rails with preState := 3 } }) = true ∧
      grouped (fun d => { d with rails := { d.rails with okLast := false } }) = true ∧ grouped (fun d => { d with guard := { d.guard with safe := true } }) = true ∧
      grouped (fun d => { d with guard := { d.guard with prsnt := false } }) = true ∧ grouped (fun d => { d with guard := { d.guard with thermLatch := true } }) = true ∧
      grouped (fun d => { d with guard := { d.guard with trip := 1, tripMask := [List.replicate 128 true] } }) = true) ∧
    (releaseRefused live 0 = false ∧ groupChans live 0 = []) ∧
    (releaseRefused (group { Prot.reset with drive := .safeStop, released := true }) 0 = false ∧
      ∃ c ∈ groupChans (group { Prot.reset with drive := .safeStop, released := true }) 0,
        inStop (group { Prot.reset with drive := .safeStop, released := true }).chs[c] = true) ∧
    (∀ p ∈ [Prot.reset, { Prot.reset with latched := true }, { Prot.reset with oos := 1 }],
      releaseRefused (group p) 0 = false ∧ (∀ c ∈ groupChans (group p) 0, inStop (group p).chs[c] = false) ∧
      groupChans (group p) 0 = [3, 4] ∧ (group p).chs[(3 : Ch)].prot.released = false ∧ halves (group p) 3 = [3] ∧ halves (group p) 4 = [4] ∧
      (group p).chs[(3 : Ch)].prot.latched = false ∧ (group p).chs[(3 : Ch)].prot.oos = 0 ∧ (group p).chs[(4 : Ch)].prot = p) := by
  decide +kernel

/-- A group's ramp at a count, and clamps that hold with their flags given. -/
def ramping (n : Nat) : Dev := { live with groupRamp := live.groupRamp.set 0 (some n), rampLen := live.rampLen.set 0 96 }
def clamped (b f : Bool) : Dev := rails fun r => { r with clampP := true, belowP := b, clampFiP := f, clampN := true, belowN := b, clampFiN := f }
def stopped (n : Nat) : Dev := prot fun p => { p with drive := .safeStop, ssCount := n }

theorem meets_StopsAndTheirEnds :
    (imageOn live = true ∧ bridgedB live 3 = false ∧ live.stops = [] ∧ live.chs[(3 : Ch)].prot.check = none ∧
      live.chs[(3 : Ch)].mod.halted = false ∧ (∀ h ∈ halves live 3, live.chs[h].prot.released = false)) ∧
    ((prot fun p => { p with released := true, drive := .loop }).chs[(3 : Ch)].prot.released = true ∧
      (prot fun p => { p with released := true, drive := .loop }).chs[(3 : Ch)].prot.drive ≠ .safeStop) ∧
    groupChans (group Prot.reset) 0 = [3, 4] ∧ imageOn up = false ∧
    ((stopped 16).chs[(3 : Ch)].prot.drive = .safeStop ∧ 16 ≤ (stopped 16).chs[(3 : Ch)].prot.ssCount) ∧
    (stopped 15).chs[(3 : Ch)].prot.ssCount < 16 ∧
    ((ramping 96).groupRamp[(0 : RGroup)] = some 96 ∧ (ramping 96).rampLen[(0 : RGroup)] ≤ 96) ∧
    ((ramping 95).groupRamp[(0 : RGroup)] = some 95 ∧ 95 < (ramping 95).rampLen[(0 : RGroup)]) ∧ live.groupRamp[(0 : RGroup)] = none ∧
    ((clamped true true).rails.clampP = true ∧ (clamped true true).rails.belowP = true ∧ (clamped true true).rails.clampFiP = true) ∧
    ((clamped true true).rails.clampN = true ∧ (clamped true true).rails.belowN = true ∧ (clamped true true).rails.clampFiN = true) ∧
    (clamped false true).rails.belowP = false ∧ (clamped true false).rails.clampFiN = false ∧ live.rails.clampP = false := by decide +kernel

/-- A latched channel, and one whose check runs. -/
def latchOn : Dev := prot fun p => { p with latched := true, cause := 1 }
def check (k : Check) (n : Nat) : Dev := prot fun p => { p with latched := true, cause := 1, drive := .check, check := some k, ssCount := n }
def checkAt (step fi : Nat) (driven : Bool) : Check := ⟨step, 40, driven, false, 0, 0, fi, 0x0C, 64, [r0]⟩
def latchHeld : Dev := { latchOn with guard := { latchOn.guard with safe := true } }

theorem meets_LatchClearStarts :
    (imageOn live = true ∧ halves live 3 = [3] ∧ live.chs[(3 : Ch)].prot.latched = false) ∧
    (imageOn (check (checkAt 1 0 false) 0) = true ∧ (3 : Ch) ∈ halves (check (checkAt 1 0 false) 0) 3 ∧
      (check (checkAt 1 0 false) 0).chs[(3 : Ch)].prot.latched = true ∧ (check (checkAt 1 0 false) 0).chs[(3 : Ch)].prot.check = some (checkAt 1 0 false)) ∧
    (lead latchOn 3 = 3 ∧ latchOn.chs[(3 : Ch)].prot.latched = true ∧ latchOn.chs[(3 : Ch)].prot.check = none ∧
      clearRefused latchOn 3 = false ∧ (3 : Ch).val / 32 = (0 : Fin 4).val) ∧
    (imageOn latchHeld = true ∧ clearRefused latchHeld 3 = true ∧ latchHeld.chs[(3 : Ch)].prot.check = none) ∧
    imageOn up = false := by decide +kernel

/-- The drive's sums at the limits of a short (0.1 A is 83,886 units of 10 A / 2^23) and of a driven output. -/
theorem meets_ShortChecks :
    live.chs[lead live 3].prot.check = none ∧
    (∀ k ∈ [checkAt 1 960 true, checkAt 1 960 false, checkAt 2 1920 false, checkAt 1 959 false, checkAt 2 1919 false],
      lead (check k 0) 3 = 3 ∧ (check k 0).chs[(3 : Ch)].prot.check = some k) ∧
    checkAny (check (checkAt 1 960 true) 0) 3 (·.driven) = true ∧ checkAny (check (checkAt 1 960 false) 0) 3 (·.driven) = false ∧
    (∀ n ∈ [16, 15], (check (checkAt 4 0 false) n).chs[(3 : Ch)].prot.check = some (checkAt 4 0 false) ∧
      halves (check (checkAt 4 0 false) n) 3 = [3] ∧ (check (checkAt 4 0 false) n).chs[(3 : Ch)].prot.ssCount = n) ∧
    (checkAt 4 0 false).step ≠ 1 ∧ (checkAt 1 959 false).fi < 960 ∧ (checkAt 2 1919 false).fi < 1920 ∧
    ((1 : Int) * 2 ^ 23 < 100 * 83887) ∧ (100 * 83886 ≤ (1 : Int) * 2 ^ 23 ∧ -((1 : Int) * 2 ^ 23) ≤ 1000 * 83886) ∧
    (100 * -8389 ≤ (1 : Int) * 2 ^ 23 ∧ 1000 * -8389 < -((1 : Int) * 2 ^ 23)) ∧
    (100 * -8388 ≤ (1 : Int) * 2 ^ 23 ∧ -((1 : Int) * 2 ^ 23) ≤ 1000 * -8388) := by decide +kernel

/-- A channel with its high switch on since fine step 0, after `n` trip periods in a row. -/
def tripping (n : Nat) (latched : Bool) : Dev := chan fun x => { x with
  mod := { x.mod with hs := true, edgeAt := 0 }
  prot := { x.prot with perIdx := 100, tripAt := (List.range n).map fun k => 99 - k, trips := n, latched := latched } }
def timing : Dev := prot fun p => { p with dcNeg := some false }
def driving (halted : Bool) : Dev := chan fun x => { x with mod := { x.mod with halted := halted }, prot := { x.prot with drive := .loop } }
/-- Whether the high switch of channel 3 trips at a fine step and a current. -/
def tripsAt (d : Dev) (pos ma : Nat) : Bool :=
  d.chs[(3 : Ch)].mod.hs && decide (d.chs[(3 : Ch)].mod.edgeAt + 16 * (d.chs[(3 : Ch)].cfg.blank : Int) ≤ pos ∧ 50 * classLimit d.chs[(3 : Ch)] < ma)

theorem meets_Class1AndDcTrips :
    (∀ n ∈ [14, 15], ∀ l ∈ [true, false], tripsAt (tripping n l) 192 6501 = true ∧ tripsAt (tripping n l) 191 6501 = false ∧
      tripsAt (tripping n l) 192 6500 = false ∧ (tripping n l).chs[(3 : Ch)].prot.latched = l) ∧ tripsAt live 192 6501 = false ∧
    winCount (countTrip (tripping 14 false).chs[(3 : Ch)].prot) 64 < (tripping 14 false).chs[(3 : Ch)].cfg.tripCount ∧
    (tripping 15 false).chs[(3 : Ch)].cfg.tripCount ≤ winCount (countTrip (tripping 15 false).chs[(3 : Ch)].prot) 64 ∧
    (tripping 14 false).chs[(3 : Ch)].prot.check = none ∧
    timing.chs[(3 : Ch)].prot.dcNeg.isSome = true ∧ live.chs[(3 : Ch)].prot.dcNeg = none ∧
    (switching (driving false).chs[(3 : Ch)] = true ∧ (driving false).chs[(3 : Ch)].mod.halted = false) ∧
    switching live.chs[(3 : Ch)] = false ∧ (driving true).chs[(3 : Ch)].mod.halted = true := by decide +kernel

theorem meets_PinsAndBackstop :
    live.guard.trip.getLsbD (0 : Pin).val = false ∧ (guard fun g => { g with trip := 1 }).guard.trip.getLsbD (0 : Pin).val = true ∧
    (∀ k : Ch, live.chs[k].prot.check = none) ∧
    ((guard fun g => { g with tripMask := [List.replicate 128 true] }).guard.tripMask.getD (0 : Pin).val []).getD (3 : Ch).val false = true ∧
    live.guard.safe = false ∧ (guard fun g => { g with safe := true }).guard.safe = true ∧ live.guard.prsnt = true ∧ Dev.reset.guard.prsnt = false ∧
    (guard fun g => { g with backstops := [true, false] }).guard.backstops = [true, false] ∧ live.rails.preState ≠ 5 ∧
    (guard fun g => { g with backstops := [false] }).guard.backstops = [false] ∧ live.guard.backstops = [] := by decide +kernel

theorem meets_GuardReleases : live.rails.preState ≠ 5 ∧ preDone live = true ∧ preDone Dev.reset = false := by decide +kernel

theorem meets_StewardPoll : live.guard.ready = true ∧ Dev.reset.guard.ready = false := by decide +kernel

/-- A released channel in its loop, with its image's loop or without, one with words the loop left out, and one whose word came near the reload. -/
def loopChan (use : Bool) : Chan := { Chan.reset with cfg := { ChanCfg.reset with inUse := use }, prot := { Prot.reset with drive := .loop, released := true } }
def loopMod (use : Bool) (f : Mod → Mod) : Chan := { loopChan use with mod := f (loopChan use).mod }
def reloads (x : Chan) : Bool := decide (x.mod.halted = false ∧ x.mod.manual = false ∧ x.mod.manPend = none ∧ x.prot.ssPend = false ∧ x.prot.drive = .loop)

theorem meets_CarrierBoundaries :
    (up.guard.audioReset = false ∧ (runCmds up).tb.running = true ∧ (runCmds up).guard.audioReset = false ∧ (runCmds up).tb.m < (runCmds up).tb.n) ∧
    (tb fun t => { t with m := 17 }).tb.m < 18 ∧ (runCmds fiEnd).tb.n ≤ (runCmds fiEnd).tb.m ∧
    (∃ t : PTile, (up.rails.riseThr : Int) < 10 * ([⟨1951, 0⟩].getD t.val ⟨0, 0⟩ : RailSample).pvp) ∧
    (∃ t : PTile, (up.rails.riseThr : Int) < -10 * ([⟨0, -1951⟩].getD t.val ⟨0, 0⟩ : RailSample).pvn) ∧
    (prot fun p => { p with ssPend := true }).chs[(3 : Ch)].prot.ssPend = true ∧
    (freshHeld.tb.started = false ∧ freshHeld.tb.state = .holdover) ∧ Dev.reset.guard.audioReset = true ∧ Dev.reset.tb.running = false ∧
    (up.tb.started = true ∧ up.tb.m < up.tb.n) := by decide +kernel

theorem meets_CarrierBoundaries_reload :
    (∀ b ∈ [true, false], reloads (loopChan b) = true ∧ (loopChan b).mod.nearPrev = none ∧ (loopChan b).mod.shadowNew = false ∧
      (loopChan b).cfg.inUse = b ∧ (loopChan b).mod.handoff = []) ∧
    (reloads (loopMod true fun m => { m with shadowNew := true, handoff := [1] }) = true ∧
      (loopMod true fun m => { m with shadowNew := true, handoff := [1] }).mod.shadowNew = true ∧
      (loopMod true fun m => { m with handoff := [1] }).mod.handoff ≠ [] ∧ (loopMod true fun m => { m with handoff := [1] }).late < 0xFFFFFFFF) ∧
    (reloads (loopMod true fun m => { m with nearPrev := some none }) = true ∧
      (loopMod true fun m => { m with nearPrev := some none }).mod.nearPrev = some none) := by decide +kernel

/-- An engine tile, a mix tile and one that failed, with counts at their limits. -/
theorem meets_TilePeriodComplete :
    (imageOn live = true ∧ tileRuns live.core.tiles[(0 : LTile)] = true ∧ (0 : LTile).val < 16 ∧ 512 < 513) ∧
    (∃ k : Phys, k.val = live.core.tiles[(0 : LTile)].phys) ∧ (∃ k : Phys, k.val ≠ live.core.tiles[(0 : LTile)].phys) ∧
    ((16 : Nat) ≤ (16 : LTile).val ∧ tileRuns live.core.tiles[(16 : LTile)] = true ∧ 4608 ≤ 256 * live.tb.n ∧ 256 * live.tb.n < 4609 ∧
      9216 ≤ 512 * live.tb.n ∧ 512 * live.tb.n < 9217) ∧
    (countsLate (driving false).chs[(3 : Ch)] = true ∧ (3 : Ch).val / 8 = (0 : LTile).val ∧ 16 + (3 : Ch).val / 32 = (16 : LTile).val ∧
      countsLate (stopped 0).chs[(3 : Ch)] = false) ∧
    imageOn up = false ∧ tileRuns (live.tile 0 fun t => { t with failed := true }).core.tiles[(0 : LTile)] = false := by decide +kernel

theorem meets_OuterBoundaryAndGrants :
    (live.tb.started = true ∧ live.tb.stc % 32 = 0 ∧ live.guard.audioReset = false) ∧
    Dev.reset.tb.started = false ∧ (tb fun t => { t with stc := 65 }).tb.stc % 32 ≠ 0 ∧ Dev.reset.guard.audioReset = true ∧
    (live.rails.reportP = false ∧ live.rails.reportN = false) ∧
    (rails fun r => { r with reportP := true }).rails.reportP = true := by decide +kernel

/-- A channel whose image holds its EXCUR stitch at slot 0x100 of tile 0, with a place of the window reached, its pilot enabled, and the state word at
slot 0x117. -/
def excur : Stitch := ⟨tyExcur, 0xF#4, false, false, false, 0, 0, 0x100, 0x200, 0⟩
def window (n state : Nat) : Dev :=
  let c := chan fun x => { x with sense := { x.sense with winCnt := some n }, cfg := { x.cfg with pilotEn := true } }
  let d := { c with core := { c.core with image := some { bare with schedFi := [(0, [excur])] } } }
  d.tile 0 fun u => u.wr 0x117 3 (.i state)

theorem meets_ReWindows :
    (∀ n ∈ [2400, 2401], ∀ st ∈ [0, 4], excurOf (window n st) 3 = some excur ∧ (window n st).chs[(3 : Ch)].sense.winCnt = some n) ∧
    ((window 2400 0).core.tiles[(0 : LTile)].rd 0x117 3).num.testBit 2 = false ∧
    ((window 2400 4).core.tiles[(0 : LTile)].rd 0x117 3).num.testBit 2 = true ∧
    ((window 2400 0).chs[(3 : Ch)].cfg.pilotEn = true ∧ ((window 2400 0).core.tiles[(0 : LTile)].rd 0x117 3).num / 65536 < 14400) ∧
    2401 ≠ 2400 ∧ excurOf live 3 = none ∧ live.chs[(3 : Ch)].sense.winCnt = none := by decide +kernel

/-- A sweep of generator 0 after `n` of its 1,024 steps, one that repeats, and a capture unit with a ring of 1,024 entries. -/
def sweepRec : GenRec := ⟨0, .sweep, false, 0x100000, 1, 2, 1024, 0, 0, 0, 0, 0⟩
def sweeping (r : GenRec) (n : Nat) : Dev :=
  { live with awl := { live.awl with gens := live.awl.gens.set 0 { Gen.reset with cfg := some r, running := true, n := n } } }
def capDue (k : Nat) (due : Bool) (held : Option Nat) : Dev := { live with awl := { live.awl with
  caps := live.awl.caps.set 0 { Cap.reset with armed := true, ring := 1024, due := due, heldBy := held, entries := List.replicate k ⟨1, 0, 0, false⟩ } } }
def capRec : InjectRec := .cap 0 .voltage 3 true .carrier 1 1024 0

/-- A part with sensors 1 and 48 reading the given tenths of a degree, so that from 0 to 950 the write window is open. -/
def warm (t : Int) (d : Dev) : Dev := { d with shank := { d.shank with
  sensors := (d.shank.sensors.set 48 ⟨t, true, false, true, false, false, false⟩).set 1 ⟨t, true, false, true, false, false, false⟩ } }
/-- Sensor 0 with its health given, its neighbour 1 and its spare 2 as they are. -/
def sensor (t : Therm) : Dev := { warm 500 live with shank := { (warm 500 live).shank with sensors := (warm 500 live).shank.sensors.set 0 t } }
def badTherm : Therm := ⟨500, true, false, true, false, false, true⟩
def brokenTherm : Therm := ⟨500, true, true, true, false, false, true⟩
/-- The same with the spare of sensor 0 reading near its neighbour. -/
def spareIn : Dev := { sensor brokenTherm with shank := { (sensor brokenTherm).shank with
  sensors := (sensor brokenTherm).shank.sensors.set 2 ⟨580, true, false, true, false, false, false⟩ } }
def spareGone (t : Therm) : Dev := { sensor t with shank := { (sensor t).shank with
  sensors := (sensor t).shank.sensors.set 2 ⟨580, true, false, true, false, false, false⟩ } }
/-- The same without an image, so that the Cobbler doesn't work. -/
def idle (d : Dev) : Dev := { d with core := { d.core with image := none } }

theorem meets_ThermalSensors :
    (live.guard.audioReset = false ∧ sampled (0 : Sensor).val live.shank.sensors[(0 : Sensor)] = true ∧
      live.shank.sensors[(0 : Sensor)].inUse = true ∧ live.shank.sensors[(0 : Sensor)].broken = false ∧ live.shank.thrSet ≤ 1200 ∧
      ¬(live.shank.thrSet ≤ 1199) ∧ live.shank.throttle = false) ∧
    Dev.reset.guard.audioReset = true ∧ sampled 0 { badTherm with retired := true } = false ∧
    (∀ d ∈ [sensor badTherm, spareGone badTherm, idle (sensor badTherm)], d.guard.audioReset = false ∧ d.shank.sensors[(0 : Sensor)] = badTherm ∧
      isBroken d 0 = true) ∧
    badTherm.inUse = true ∧ badTherm.broken = false ∧ badTherm.retired = false ∧
    (spareFree (sensor badTherm) 0 = true ∧ cobWorks (sensor badTherm) = true ∧ (2 : Sensor).val = spareOf 0) ∧
    (spareFree (idle (sensor badTherm)) 0 = true ∧ cobWorks (idle (sensor badTherm)) = false) ∧ spareFree (spareGone badTherm) 0 = false ∧ spareOf 0 ≠ 0 ∧
    (live.shank.sensors[(0 : Sensor)].broken = false ∧ isBroken live 0 = false) := by decide +kernel

theorem meets_ThermalSensors_broken :
    (∀ d ∈ [sensor brokenTherm, spareGone brokenTherm, idle (sensor brokenTherm)], d.guard.audioReset = false ∧
      d.shank.sensors[(0 : Sensor)] = brokenTherm) ∧
    brokenTherm.inUse = true ∧ brokenTherm.broken = true ∧ brokenTherm.retired = false ∧ { badTherm with inUse := false }.inUse = false ∧
    spareFree (sensor brokenTherm) 0 = true ∧ spareFree (spareGone brokenTherm) 0 = false ∧ cobWorks (idle (sensor brokenTherm)) = false ∧
    (isSpare 0 = false ∧ cobWorks spareIn = true ∧ spareIn.shank.sensors[(0 : Sensor)] = brokenTherm ∧
      spareIn.shank.sensors[(2 : Sensor)].inUse = true ∧ spareIn.shank.sensors[(2 : Sensor)].broken = false ∧
      plausible spareIn.shank.sensors[(2 : Sensor)] = true ∧
      ∃ k : Sensor, (placeOf 0).find? (fun k => decide (k ≠ 0 ∧ k ≠ spareOf 0)) = some k.val ∧
        (spareIn.shank.sensors[(2 : Sensor)].reading - effective spareIn spareIn.shank.sensors[k]).natAbs ≤ 80) := by decide +kernel

theorem meets_WriteWindow :
    (nvOpen (warm 950 live) = true ∧ nvOpen (warm 951 live) = false) ∧
    (∀ t ∈ [(950 : Int), 951], (warm t live).guard.audioReset = false ∧ (warm t live).shank.throttle = false ∧ cobWorks (warm t live) = true) ∧
    Dev.reset.guard.audioReset = true ∧ { live with shank := { live.shank with throttle := true } }.shank.throttle = true ∧
    cobWorks (idle live) = false := by decide +kernel

/-! ### An image and a firmware file that pass their checks -/

/-- A stitch of a type in lane 0 with its END and SLICE bits and operand `srcB` (Table 3-5). -/
def stitchBytes (ty : Nat) (fin slice : Bool) (srcB : Nat) : List Byte :=
  le 8 (ty * 2 ^ 58 + 2 ^ 54 + b2n fin * 2 ^ 53 + b2n slice * 2 ^ 52 + srcB)

/-- The schedules of a smallest image at N = 18: a NOP for Fc, 18 slices for Fi that end in the Cobbler's window, and that window alone. -/
def fcBytes : List Byte := stitchBytes 0 true false 0
def cobBytes : List Byte := stitchBytes 0x19 true false 900
def fiBytes : List Byte := (List.replicate 17 (stitchBytes 0 false true 0)).flatten ++ cobBytes

/-- Its sections: no parameters, no blocks, the schedules. -/
def sections : List (Nat × Nat × List Byte) :=
  (List.range 9).map (fun t => (t + 1, 0xFF, [])) ++ (List.range 20).map (fun t => (0x10, t, []))
    ++ (List.range 16).map (fun t => (0x11, t, fcBytes)) ++ (List.range 16).map (fun t => (0x12, t, fiBytes))
    ++ (List.range 4).map fun t => (0x12, t + 16, cobBytes)

/-- Directory entries and contents, laid out from an offset. -/
def layOut : Nat → List (Nat × Nat × List Byte) → List Byte × List Byte
  | _, [] => ([], [])
  | off, (ty, tile, bs) :: rest =>
    let r := layOut (off + bs.length) rest
    (le 2 ty ++ le 1 tile ++ le 1 0 ++ le 4 off ++ le 4 bs.length ++ le 4 (crc32 bs) ++ r.1, bs ++ r.2)

/-- The 160 bytes before the signature: magic, version 1, header length, LEN, target, sections, N. -/
def header (magic len cnt n : Nat) : List Byte :=
  le 4 magic ++ le 2 1 ++ le 2 0x100 ++ le 4 len ++ le 1 0x80 ++ le 1 0xB0 ++ le 2 cnt ++ le 8 7 ++ le 1 0 ++ le 1 n ++ zeros 6 ++ zeros 128

/-- A signature under the private key 1 and the nonce 1, whose public key is the curve's generator, of bytes with hash `e`: r is the generator's x, s
is e + r. -/
def signed_ (h body : List Byte) (e : Nat) : List Byte :=
  h ++ (le 48 (g384.1 % n384)).reverse ++ (le 48 ((e + g384.1) % n384)).reverse ++ body

def imageBytes : List Byte :=
  let b := layOut (256 + 16 * 65) sections
  let body := b.1 ++ b.2
  signed_ (header 0x5453414C (256 + body.length) 65 18) body
    22941255548714097852221640812302397634813883233147340933074257630386196471316290578731518979314945048956740443226914

def firmware : List Byte := signed_ (header 0x57455453 256 0 0) []
  5271549122060342202750772880111230344455941703682240685873475288251875757146876115131759682239280728173839524813586

def keys : List (Option (Nat × Nat)) := [some g384, none, none, none]

/-- What the image says: 17 slices of a NOP and the Cobbler's window for Fi of each engine tile, that window alone of each mix tile. -/
def idleStitch (ty : Nat) (fin slice : Bool) (srcB : Nat) : Stitch := ⟨ty, 1, fin, slice, false, 0, 0, 0, 0, srcB⟩
def small : Image :=
  { id := 7, build := 0, name := zeros 32, n := 18, keyIndex := 0, len := 3760, member := 0x80, params := []
    blocks := (List.range 20).map fun t => (t, [])
    schedFc := (List.range 16).map fun t => (t, [idleStitch 0 true false 0])
    schedFi := (List.range 20).map fun t => (t,
      (if t < 16 then List.replicate 17 (idleStitch 0 false true 0) else []) ++ [idleStitch 0x19 true false 900]) }

theorem small_read : imageOf imageBytes = (small, true) := by decide +kernel
theorem small_laidOut : (chkFormat imageBytes 0x5453414C && chkLength imageBytes && chkTarget imageBytes 0x80 && chkLayout imageBytes) = true := by
  decide +kernel
theorem small_signed : chkSignature keys imageBytes = true := by decide +kernel
theorem small_crc : chkCrc imageBytes = true := by decide +kernel
theorem small_fits : (chkFields small && chkSequence small && chkBlocks small true && decide (slackFail small = none) &&
    decide (cobFail small = none) && decide (chkParams small = none)) = true := by decide +kernel

/-- An image that its checks let through one by one. -/
theorem checkBytes_ok {keys : List (Option (Nat × Nat))} {m : Nat} {bs : List Byte} {i : Image}
    (h1 : (chkFormat bs 0x5453414C && chkLength bs && chkTarget bs m && chkLayout bs) = true) (h2 : chkSignature keys bs = true)
    (h3 : chkCrc bs = true) (h4 : imageOf bs = (i, true))
    (h5 : (chkFields i && chkSequence i && chkBlocks i true && decide (slackFail i = none) && decide (cobFail i = none) &&
      decide (chkParams i = none)) = true) : checkBytes keys m bs = .ok i := by
  simp only [Bool.and_eq_true, decide_eq_true_eq] at h1 h5
  obtain ⟨⟨⟨a, b⟩, c⟩, e⟩ := h1
  obtain ⟨⟨⟨⟨⟨f, g⟩, h⟩, i'⟩, j⟩, k⟩ := h5
  unfold checkBytes
  rw [a, b, h2, c, h3, e, h4]
  show (if !chkFields i then _ else _) = _
  rw [f, g, h, i', j, k]
  rfl

/-- The image passes every check of R69. -/
theorem small_ok : checkBytes keys 0x80 imageBytes = .ok small :=
  checkBytes_ok small_laidOut small_signed small_crc small_read small_fits


/-- A part with the image in slot 1, its core sensors in the window. -/
def holding (d : Dev) : Dev := { warm 500 d with admin := { d.admin with keys := keys, img := d.admin.img.set 1 ⟨true, imageBytes, 0, 0⟩ } }
def spoilt (d : Dev) : Dev := { holding d with admin := { (holding d).admin with img := d.admin.img.set 1 ⟨true, imageBytes, 0, 1⟩ } }
def marked (d : Dev) : Dev := { d with admin := { d.admin with autoSlot := some 1 } }

def okIs (r : Except FailInfo Image) (i : Image) : Bool := match r with | .ok j => decide (j = i) | .error _ => false
theorem okIs_ok {r : Except FailInfo Image} {i : Image} (h : okIs r i = true) : r = .ok i := by
  cases r <;> simp_all [okIs]

/-- A slot that holds the image passes where its parameters fit the part, and its load passes where its slot is free. -/
theorem slot_passes (d : Dev) (x : ImgSlot) (hb : x.bytes = imageBytes) (he : x.ecc = 0) (hk : d.admin.keys = keys)
    (hm : d.growth.member = 0x80) (hl : okIs (checkLive d small) small = true) : checkSlot d x = .ok small := by
  simp [checkSlot, checkImage, hb, he, hk, hm, small_ok, okIs_ok hl]

theorem load_passes (d : Dev) (k : Nat) (hk : d.admin.keys = keys) (hm : d.growth.member = 0x80)
    (hf : (slotBusy d k || (imageOn d && decide (d.core.imageSlot = k))) = false) : loadCheck d k imageBytes = none := by
  simp [loadCheck, hk, hm, small_ok, hf]

theorem live_slot : checkSlot (holding live) (holding live).admin.img[(1 : Fin 4)] = .ok small :=
  slot_passes _ _ (by simp [holding]) (by simp [holding]) rfl rfl (by decide +kernel)

theorem up_slot : checkSlot (marked (holding up)) (marked (holding up)).admin.img[(1 : Fin 4)] = .ok small :=
  slot_passes _ _ (by simp [holding, marked]) (by simp [holding, marked]) rfl rfl (by decide +kernel)

/-- One whose header holds an uncorrectable word does not. -/
theorem spoilt_slot (d e : Dev) : checkSlot d (spoilt e).admin.img[(1 : Fin 4)] = .error (failAt 1) := by simp [spoilt, checkSlot]


/-- An activation in one of its phases, with and without an image in force. -/
def act (ph : ActPhase) : Activation := ⟨none, 60, 1, bare, ph, 63, false⟩
def acting (d : Dev) (ph : ActPhase) : Dev := { d with core := { d.core with act := some (act ph) } }
/-- The activation of a command that waits for a later boundary. -/
def later : Dev := { live with
  core := { live.core with act := some { act .stagedWait with ref := some r1 } }
  qif := { live.qif with flights := [⟨r1, 0x0D, 0, 60, .imageActivate r1 1 (.stc 65) false, .cue, 65, 0, 0, false, true, false, false⟩] } }
def small_ (d : Dev) (growth : Nat) : Dev := { d with growth := ⟨0x20, growth, 3⟩ }

theorem meets_ImagesComeIntoForce :
    (up.growth.growth ≠ 0 ∧ up.growth.step ≠ 0 ∧ up.admin.autoTried = false ∧ imageOn up = false ∧ up.admin.autoSlot = none) ∧
    ((small_ up 2).growth.growth ≠ 0 ∧ (small_ up 2).growth.step ≠ 0 ∧ (small_ up 2).growth.growth ≠ 1 ∧ imageOn (small_ up 2) = false) ∧
    ((marked (holding up)).growth.growth = 1 ∧ (marked (holding up)).growth.step ≠ 0 ∧ (marked (holding up)).admin.autoTried = false ∧
      imageOn (marked (holding up)) = false ∧ (marked (holding up)).admin.autoSlot = some (1 : Fin 4).val ∧
      checkSlot (marked (holding up)) (marked (holding up)).admin.img[(1 : Fin 4)] = .ok small) ∧
    ((marked (spoilt up)).growth.growth = 1 ∧ (marked (spoilt up)).growth.step ≠ 0 ∧ (marked (spoilt up)).admin.autoTried = false ∧
      imageOn (marked (spoilt up)) = false ∧ (marked (spoilt up)).admin.autoSlot = some (1 : Fin 4).val ∧
      checkSlot (marked (spoilt up)) (marked (spoilt up)).admin.img[(1 : Fin 4)] = .error (failAt 1)) ∧
    (admin fun a => { a with autoTried := true }).admin.autoTried = true ∧ imageOn live = true ∧ (small_ up 0).growth.growth = 0 := by
  refine ⟨by decide +kernel, by decide +kernel, ⟨by decide +kernel, by decide +kernel, by decide +kernel, by decide +kernel, by decide +kernel, up_slot⟩,
    ⟨by decide +kernel, by decide +kernel, by decide +kernel, by decide +kernel, by decide +kernel, spoilt_slot _ _⟩, ?_⟩
  decide +kernel

theorem meets_ImagesComeIntoForce_welt :
    (∀ ph ∈ [ActPhase.staging, .stagedWait, .welt], (acting live ph).core.act = some (act ph) ∧ (acting up ph).core.act = some (act ph) ∧
      (act ph).phase = ph) ∧
    live.core.act = none ∧ imageOn (acting live .stagedWait) = true ∧ actDue (acting live .stagedWait) (act .stagedWait) = true ∧
    imageOn (acting up .stagedWait) = false ∧ actDue (acting up .stagedWait) (act .stagedWait) = true ∧ 63 < live.tb.stc ∧
    (∀ b ∈ later.core.act, actDue later b = false) ∧ (tb fun t => { t with stc := 63 }).tb.stc ≤ (act .welt).at_ := by decide +kernel

theorem meets_AdminCommandsNeedQueue0 : r1.q.val ≠ 0 ∧ (1 : Nat) ≠ 0 := by decide

theorem meets_IdentifyLogsAndFeatures :
    r0.q.val = 0 ∧ hostClosed live = false ∧ hostClosed Dev.reset = true ∧
    (∃ bs ∈ logPage live 9, 0 % 4 = 0 ∧ 0 < bs.length ∧ 2 % 4 ≠ 0 ∧ bs.length ≤ bs.length) ∧ logPage live 10 = none ∧
    (featureOf live 3).isSome = true ∧ (featureOf live 4).isSome = true ∧
    featureOk 7 10 [] = true ∧ featureOk 7 9 [] = false ∧ featureOk 1 0xFFFFFF [] = true ∧ featureOk 1 0x1000000 [] = false ∧
    ((0xFFFFFF#64).toNat < 2 ^ 24 ∧ (3#64).toNat < 4 ∧ (0xFFF#64).toNat < 2 ^ 12) ∧
    ((0x10001#64).toNat / 2 ^ 8 % 2 ^ 8 = 0 ∧ (0x10001#64).toNat < 2 ^ 32 ∧ (0x10001#64).toNat / 2 ^ 16 ≠ 0 ∧ (0#64).toNat % 2 ^ 8 = 0) ∧
    (10 ≤ (10#64).toNat ∧ (60000#64).toNat ≤ 60000) ∧ (9#64).toNat < 10 ∧ 60000 < (60001#64).toNat ∧ 7 < (8#8).toNat ∧ (0#8).toNat = 0 := by
  decide +kernel

/-- A queue pair with `n` entries to fetch, and a command that waits for the queue's. -/
def pair (n : Nat) : Queue := ⟨0, false, 3, 4, 4, 0x4000, 0x8000, 0, n, 0, 0, true, none, false⟩
def paired (x : Queue) : Dev := qif fun q => { q with queues := [(1, x)] }
def flight (c : Instr) (op : Nat) (p : Prog) : Flight := ⟨r1, op, 0, 63, c, p, 64, 0, 0, false, true, false, false⟩
def waiting (k : Nat) (fs : List Flight) : Dev :=
  { paired (pair 2) with qif := { (paired (pair 2)).qif with waiters := [⟨r0, k, 1, 5, 0, 2⟩], flights := fs } }
def held1 : List Flight := [{ flight (.telemetryRead r1 0 1) 0x29 .cue with at_ := 66 }]
def committed1 : List Flight := [flight (.telemetryRead r1 0 1) 0x29 .committed]
def restarting : Dev := { live with qif := { live.qif with paused := true }, admin := { live.admin with act := some (r0, (1 : Fin 2).val, 60) } }

theorem meets_QueuesCreatedResetDeleted :
    (r0.q.val = 0 ∧ hostClosed live = false ∧ (2 : QId).val ≠ 0 ∧ Mem.find live.qif.queues 2 = none ∧ 2047 < 2048 ∧
      (2 ≤ 2 ∧ 4096 ≤ 4096 ∧ 64 % 64 = 0) ∧ ¬(2 ≤ 1) ∧ ¬(4097 ≤ 4096)) ∧
    (hostClosed (paired (pair 2)) = false ∧ (1 : QId).val ≠ 0 ∧ (pair 2).deleting = false ∧
      Mem.find (paired (pair 2)).qif.queues (1 : QId).val = some (pair 2) ∧ liveFlights (paired (pair 2)) = [] ∧
      (paired (pair 2)).qif.outbox = [] ∧ (paired (pair 2)).qif.waiters = []) ∧
    (Mem.find (paired (pair 2)).qif.queues 2 = none ∧ (0 : QId).val = 0 ∧
      Mem.find (paired { pair 2 with deleting := true }).qif.queues (1 : QId).val = some { pair 2 with deleting := true }) := by decide +kernel

theorem meets_QueuesCreatedResetDeleted_wait :
    (∀ k ∈ [0, 1, 2], stewardsDown (waiting k []) = false ∧ waiterDone (waiting k []) ⟨r0, k, 1, 5, 0, 2⟩ = true ∧
      (waiting k []).qif.waiters = [⟨r0, k, 1, 5, 0, 2⟩] ∧ r0.q = 0 ∧ r0.cid = 7) ∧
    (∀ k ∈ [0, 1, 2], waiterDone (waiting k committed1) ⟨r0, k, 1, 5, 0, 2⟩ = false) ∧
    (waiterDone (waiting 1 held1) ⟨r0, 1, 1, 5, 0, 2⟩ = false ∧ waiterDone (waiting 0 held1) ⟨r0, 0, 1, 5, 0, 2⟩ = true) ∧
    stewardsDown restarting = true ∧ live.qif.waiters = [] := by decide +kernel

/-- A STREAM_WRITE of Q1 that waits for room. -/
def swait : StreamWait := ⟨r1, 0, false, [1], none⟩
def stuck : Flight := ⟨r1, 0x20, 0, 63, .streamWrite r1 0 false [1] none, .due, 64, 0, 0, false, false, false, false⟩
def stuckDev : Dev := qif fun q => { q with flights := [stuck], swaits := [swait] }
def queued (fs : List Flight) : Dev := qif fun q => { q with flights := fs }
def t1 : CmdRef := { r0 with q := 1, cid := 8 }
def waiter (d : Dev) : Waiter := ⟨r0, 0, 1, orderOf d r0, 0, 0⟩

theorem meets_FlushAndAbort :
    (r0.q.val = 0 ∧ hostClosed live = false ∧ live.qif.flights = [] ∧ live.qif.outbox = [] ∧ waiterDone live (waiter live) = true ∧
      (0x3FFF#16).toNat < 16384 ∧ (0xFFFF#16).toNat = 0xFFFF) ∧
    waiterDone { queued committed1 with qif := { (queued committed1).qif with order := 1 } } ⟨r0, 0, 1, 1, 0, 0⟩ = false ∧
    (16384 ≤ (0x4000#16).toNat ∧ (0x4000#16).toNat ≠ 0xFFFF) ∧ flightOf live t1 = none ∧
    ((flightOf (queued held1) t1).any (abortable (queued held1)) = true ∧ hostClosed (queued held1) = false) ∧
    (flightOf (queued committed1) t1).any (fun f => !abortable (queued committed1) f) = true := by decide +kernel

theorem meets_FlushAndAbort_stream :
    (hostClosed stuckDev = false ∧ flightOf stuckDev t1 = some stuck ∧ stuck.opcode = 0x20 ∧ stuck.prog = .due ∧ stuck.timed = false ∧
      swait ∈ stuckDev.qif.swaits ∧ sameRef swait.ref stuck.ref = true ∧ (∀ v ∈ stuckDev.qif.waiters, v.kind ≠ 3) ∧
      stuckDev.qif.outbox = [] ∧ hostLive stuckDev t1 = true ∧ sameRef r0 t1 = false) := by decide +kernel

def place (d : Dev) (t : When) : When := resolveWhen d t
def ownFlight (d : Dev) : Dev := { d with qif := { d.qif with flights := [⟨r0, 0x0D, 0, 63, .imageActivate r0 1 .untimed false, .started, 0, 0, 0, false, false, false, false⟩] } }

theorem meets_ImageActivationAndMarks :
    (∀ d ∈ [holding live, spoilt live, warm 951 (holding live), warm (-1) (holding live)], hostClosed d = false ∧ d.admin.img[(1 : Fin 4)].valid = true ∧
      flightOf d r0 = none ∧ cuesUsed d < 65536) ∧
    checkSlot (holding live) (holding live).admin.img[(1 : Fin 4)] = .ok small ∧
    checkSlot (spoilt live) (spoilt live).admin.img[(1 : Fin 4)] = .error (failAt 1) ∧
    (nvOpen (holding live) = true ∧ live.admin.img[(1 : Fin 4)].valid = false ∧ nvOpen (warm 951 (holding live)) = false ∧
      nvOpen (warm (-1) (holding live)) = false ∧ nvOpen (warm 950 (holding live)) = true ∧ nvOpen (warm 0 (holding live)) = true) ∧
    (place (holding live) .untimed = .untimed ∧ place (holding live) (.stc 4865) = .stc 4865 ∧ place (holding live) (.frame 5 0) = .frame 5 0) ∧
    (max (nextStc (holding live)) (fetchedAt (holding live) r0 + 4800) = 4865 ∧ 4864 < 4865) ∧
    ((flightOf (ownFlight (holding live)) r0).isSome = true ∧ hostClosed (ownFlight (holding live)) = false) := by
  refine ⟨by decide +kernel, live_slot, spoilt_slot _ _, by decide +kernel, by decide +kernel, by decide +kernel, by decide +kernel⟩

/-- A cue store with no place left. -/
def fullStore : Dev := { holding live with qif := { live.qif with flights := List.replicate 65536 (flight (.telemetryRead r1 0 1) 0x29 .cue) } }
theorem meets_ImageActivationAndMarks_full : 65536 ≤ cuesUsed fullStore ∧ flightOf fullStore r0 = none ∧ hostClosed fullStore = false ∧
    fullStore.admin.img[(1 : Fin 4)].valid = true := by
  refine ⟨?_, ?_, by decide +kernel, by decide +kernel⟩
  · show 65536 ≤ ((List.replicate 65536 (flight (.telemetryRead r1 0 1) 0x29 .cue)).filter Flight.inStore).length
    exact Nat.le_of_eq (by rw [List.filter_replicate_of_pos (by decide), List.length_replicate])
  · exact List.find?_replicate_of_neg (by decide)

/-- Staging buffers of one byte, and of all of the image but its first byte's chunk. -/
def staged_ : Dev := { holding up with admin := { (holding up).admin with fwBuf := [1], imgBuf := imageBytes.take 3759 } }

theorem staged_append : (staged_.admin.imgBuf ++ imageBytes.drop 3759) = imageBytes := List.take_append_drop _ _

theorem meets_StagingBuffers :
    (r0.q.val = 0 ∧ hostClosed staged_ = false ∧ 1 = staged_.admin.fwBuf.length ∧ (staged_.admin.fwBuf ++ [2]).length ≤ 4194304 ∧
      [(2 : Byte)].length ≤ 4194304 ∧ (2 : Nat) ≠ 0 ∧ 2 ≠ staged_.admin.fwBuf.length) ∧
    (3759 = staged_.admin.imgBuf.length ∧ (staged_.admin.imgBuf ++ imageBytes.drop 3759).length ≤ 4194304 ∧ nvOpen staged_ = true ∧
      nvOpen (warm 951 staged_) = false ∧ 1 ≠ staged_.admin.imgBuf.length) ∧
    loadCheck staged_ (1 : Fin 4).val (staged_.admin.imgBuf ++ imageBytes.drop 3759) = none ∧
    loadCheck (warm 951 staged_) (1 : Fin 4).val (staged_.admin.imgBuf ++ imageBytes.drop 3759) = none ∧
    (loadCheck staged_ (1 : Fin 4).val [2]).isSome = true := by
  refine ⟨by decide +kernel, by decide +kernel, ?_, ?_, by decide +kernel⟩ <;>
  · rw [staged_append]
    exact load_passes _ _ rfl rfl (by decide +kernel)

/-- A part whose staging buffer holds the firmware, or one byte of it, with slot 0 running and slot 1 in a state; writes of each kind. -/
def commit (buf : List Byte) (run st : Nat) : Dev := { warm 500 live with admin := { live.admin with
  keys := keys, fwBuf := buf, fwRunning := run, fw := live.admin.fw.set 1 { (fwSlotOf firmware) with st := st } } }
def nvJob (j : NvJob) : Dev := admin fun a => { a with nv := [j], records := [(9, [1])] }
def activatingDev : Dev := { commit [] 0 1 with qif := { live.qif with flights := [⟨r1, 0x0D, 0, 63, .imageActivate r1 1 .untimed false, .started, 0, 0, 0, false, false, false, false⟩] } }

theorem meets_FirmwareAndWrites :
    (r0.q.val = 0 ∧ hostClosed (commit firmware 0 1) = false ∧ (1 : Fin 2).val ≠ (commit firmware 0 1).admin.fwRunning ∧
      fwReason (commit firmware 0 1).admin.keys (commit firmware 0 1).admin.fwBuf = 0 ∧ nvOpen (commit firmware 0 1) = true) ∧
    (nvOpen (warm 951 (commit firmware 0 1)) = false ∧ (warm 951 (commit firmware 0 1)).admin.fw[(1 : Fin 2)].st ≠ 0) ∧
    (hostClosed (commit [1] 0 1) = false ∧ (1 : Fin 2).val ≠ (commit [1] 0 1).admin.fwRunning ∧
      fwReason (commit [1] 0 1).admin.keys (commit [1] 0 1).admin.fwBuf ≠ 0) ∧
    (hostClosed (commit firmware 1 1) = false ∧ (1 : Fin 2).val = (commit firmware 1 1).admin.fwRunning) ∧
    ((commit [] 0 2).admin.fw[(1 : Fin 2)].st ≠ 0 ∧ nvOpen (commit [] 0 2) = true ∧ hostClosed (commit [] 0 2) = false) ∧
    ((commit [] 0 0).admin.fw[(1 : Fin 2)].st = 0 ∧ hostClosed (commit [] 0 0) = false) := by
  decide +kernel

theorem meets_FirmwareAndWrites_done :
    (∀ j ∈ [NvJob.fw r0 (1 : Fin 2).val ⟨1, [], 0, 0, 0, 0, 0⟩ true, .fwBoot r0 (1 : Fin 2).val, .image r0 (1 : Fin 4).val [], .mark none (some 2),
      .mark (some r0) none, .record 9 [1] [2], .record 9 [3] [2], .health, .move 0],
      (nvJob j).admin.act = none ∧ (nvJob j).admin.nv = [j] ∧ Mem.find (nvJob j).admin.records 9 = some [1] ∧ (nvJob j).cob.nvWear ≤ 0xFFFF) ∧
    live.admin.nv = [] ∧ restarting.admin.act ≠ none ∧
    ((commit [] 0 1).admin.fw[(1 : Fin 2)].st = 1 ∧ activating (commit [] 0 1) = false ∧ (commit [] 0 1).admin.act = none ∧
      hostClosed (commit [] 0 1) = false) ∧
    (activatingDev.admin.fw[(1 : Fin 2)].st = 1 ∧ activating activatingDev = true ∧ hostClosed activatingDev = false) ∧
    (commit [] 0 2).admin.fw[(1 : Fin 2)].st ≠ 1 ∧ restarting.admin.act = some (r0, (1 : Fin 2).val, 60) ∧ live.admin.act = none := by
  decide +kernel

/-- Channel 3 with a loop running in manual, an image with its inner AWL stitch, and remote sense on its tile. -/
def awlImage : Image := { bare with schedFc := [(0, [⟨tyAwl, 0xF#4, true, false, false, 0, 0, 0, 0, 1⟩])] }
def sensed : Dev := { live with
  core := { live.core with image := some awlImage }
  power := live.power.set 0 { live.power[(0 : PTile)] with senseRemote := true } }
/-- A measurement of channel 3 in a step, and its channel. -/
def measIn (step steps : Nat) (f : Meas → Meas) : Meas := f { Meas.start r1 steps 60 [] with step := step }
def measuring (m : Meas) : Dev := chan fun x => { x with meas := some m, prot := { x.prot with drive := .measure } }

/-! #### Generators and captures -/

def held_ : Dev := { measuring (measIn 4 7 fun m => { m with units := [0, 0, 0, 1, 2] }) with
  awl := { live.awl with caps := live.awl.caps.set 0 { Cap.reset with heldBy := some 3 } } }
def bigRing : List InjectRec := [0, 1, 2, 3, 4].map fun u => .cap u .voltage 3 true .carrier 1 (if u = 4 then 1024 else 131072) 0

theorem meets_GeneratorsAndCaptures :
    ((sweeping sweepRec 1024).awl.gens[(0 : Fin 8)].cfg = some sweepRec ∧ (sweeping sweepRec 1024).awl.gens[(0 : Fin 8)].running = true ∧
      sweepRec.kind = .sweep ∧ sweepRec.rept = false ∧ sweepRec.len ≤ (sweeping sweepRec 1024).awl.gens[(0 : Fin 8)].n) ∧
    ((sweeping sweepRec 1023).awl.gens[(0 : Fin 8)].cfg = some sweepRec ∧ (sweeping sweepRec 1023).awl.gens[(0 : Fin 8)].n < sweepRec.len) ∧
    ({ sweepRec with rept := true }.rept = true ∧ live.awl.gens[(0 : Fin 8)].cfg = none ∧ live.awl.gens[(0 : Fin 8)].running = false) ∧
    ((capDue 1023 true none).awl.caps[(0 : Fin 16)].due = true ∧
      (capDue 1023 true none).awl.caps[(0 : Fin 16)].entries.length < (capDue 1023 true none).awl.caps[(0 : Fin 16)].ring) ∧
    ((capDue 1024 true none).awl.caps[(0 : Fin 16)].due = true ∧
      (capDue 1024 true none).awl.caps[(0 : Fin 16)].ring ≤ (capDue 1024 true none).awl.caps[(0 : Fin 16)].entries.length) ∧
    live.awl.caps[(0 : Fin 16)].due = false := by decide +kernel

theorem meets_GeneratorsAndCaptures_inject :
    (hostClosed live = false ∧ live.core.image = some bare ∧ armFieldOk [capRec] = true ∧ [capRec].all (nodeOk live bare) = true ∧
      ratesMixed ([capRec].foldl (armRec [capRec]) live.awl) = false ∧ [capRec].any (recHeld live) = false ∧
      ringSum ([capRec].foldl (armRec [capRec]) live.awl) ≤ 524288) ∧
    (held_.core.image = some bare ∧ hostClosed held_ = false ∧ [capRec].all (nodeOk held_ bare) = true ∧
      ratesMixed ([capRec].foldl (armRec [capRec]) held_.awl) = false ∧ [capRec].any (recHeld held_) = true) ∧
    (armFieldOk bigRing = true ∧ bigRing.all (nodeOk live bare) = true ∧ ratesMixed (bigRing.foldl (armRec bigRing) live.awl) = false ∧
      524288 < ringSum (bigRing.foldl (armRec bigRing) live.awl)) ∧
    (armFieldOk [.cap 0 .error 3 true .carrier 1 1024 0] = true ∧ [InjectRec.cap 0 .error 3 true .carrier 1 1024 0].all (nodeOk live bare) = false) ∧
    armFieldOk [] = false ∧
    ((∀ g : Fin 8, genHeld live g.val = false) ∧ ∀ k : Fin 16, tapHeld live k.val = false ∧ capHeld live k.val = false) ∧
    (capHeld held_ 0 = true ∧ (1#16).getLsbD 0 = true) ∧ hostClosed Dev.reset = true ∧ up.core.image = none := by decide +kernel

/-! #### Streams, tables and settings -/

/-- Stream 5 enabled, with `n` samples waiting, and a write that waits for its room. -/
def stream (n : Nat) (ws : List StreamWait) : Dev := { live with
  mix := { live.mix with streams := live.mix.streams.set 5 { Stream.reset with en := true, fifo := List.replicate n ⟨0, false⟩ } }
  qif := { live.qif with swaits := ws } }
def swait5 (st : Option Nat) : StreamWait := ⟨r1, (5 : HStream).val, false, [1], st⟩

theorem meets_StreamWrite :
    (∀ n ∈ [16383, 16384], hostClosed (stream n []) = false ∧ imageOn (stream n []) = true ∧ (stream n []).mix.streams[(5 : HStream)].en = true ∧
      (stream n []).mix.streams[(5 : HStream)].fifo.length = n) ∧
    1 ≤ [(1 : W32)].length ∧ [(1 : W32)].length + 16383 ≤ 16384 ∧ 16384 < [(1 : W32)].length + 16384 ∧
    nextStc live ≤ 65 ∧ 64 < nextStc live ∧ live.mix.streams[(5 : HStream)].en = false ∧ hostClosed Dev.reset = true ∧ imageOn up = false ∧
    (List.replicate 16385 (1 : W32)).length > 16384 := by
  simp only [stream, List.length_replicate]
  decide +kernel

theorem meets_StreamWrite_room :
    (∀ st ∈ [none, some 65, some 64], (stream 16383 [swait5 st]).qif.swaits = [] ++ swait5 st :: [] ∧ (swait5 st).h = (5 : HStream).val ∧
      (swait5 st).start = st) ∧
    (swait5 none).samples.length + 16383 ≤ 16384 ∧ (stream 16383 []).mix.streams[(5 : HStream)].fifo.length = 16383 ∧
    16384 - (stream 16384 [swait5 none]).mix.streams[(5 : HStream)].fifo.length < (swait5 none).samples.length := by
  simp only [stream, List.length_replicate]
  decide +kernel

theorem meets_CaptureAndTelemetryRead :
    (hostClosed (capDue 3 false none) = false ∧ 8 ≤ 8 ∧ 8 % 8 = 0 ∧
      (((capDue 3 false none).awl.caps[(0 : Fin 16)].entries.drop (max 2 0 - 0)).take (8 / 8)) ≠ []) ∧
    4 < 8 ∧ 12 % 8 ≠ 0 ∧ (0x7EFC % 4 = 0 ∧ 1 ≤ 1 ∧ 1 ≤ 8128 ∧ 0x7EFC + 4 * 1 ≤ 0x7F00 ∧ 16 + 4 * 1 ≤ r0.len) ∧
    (2 % 4 ≠ 0 ∧ 0 < 1 ∧ 8128 < 8129 ∧ 0x7F00 < 0x7F00 + 4 * 1 ∧ r0.len < 16 + 4 * 285) ∧ hostClosed Dev.reset = true := by decide +kernel

/-- A channel in use; tables of zero words. -/
def used : Dev := cfg fun x => { x with inUse := true }
def zeroWords (n : Nat) : List Nat := (List.replicate n (0 : W64)).map (·.toNat)

theorem meets_RegionTables :
    (hostClosed used = false ∧ imageOn used = true ∧ oddHalf used 3 = false ∧ used.chs[(3 : Ch)].cfg.inUse = true) ∧
    ((List.replicate 12 (0 : W64)).length = 12 ∧ regionTableOk (zeroWords 12) = true) ∧
    ((List.replicate 8 (0 : W64)).length = 8 ∧ threshOk (zeroWords 8) = true) ∧
    (List.replicate 11 (0 : W64)).length ≠ 12 ∧ regionTableOk ((List.replicate 12 (0x40000000 : W64)).map (·.toNat)) = false ∧
    threshOk ((List.replicate 8 (0x8000000000000000 : W64)).map (·.toNat)) = false ∧
    ({ r0 with len := 96 }.len = 96 ∧ { r0 with len := 64 }.len = 64 ∧ r0.len ≠ 96) ∧
    hostClosed Dev.reset = true ∧ imageOn up = false ∧ live.chs[(3 : Ch)].cfg.inUse = false ∧ oddHalf (bridge used) 3 = true := by decide +kernel

/-- A mix with a delay line of 32 samples and a term. -/
def delayed : Dev := { live with mix := { live.mix with
  chs := live.mix.chs.set 3 { MixCh.reset with lineSize := 32, terms := [⟨0x187, 0x100000⟩] } } }

theorem meets_TimedSet :
    (hostClosed delayed = false ∧ delayed.core.image = some bare ∧ setFieldOk (.delay 3 256 16) = true ∧
      setObjOk delayed bare (.delay 3 256 16) = true) ∧
    (2000 ≤ 2000 ∧ 1 ≤ 1 ∧ 1000 ≤ 1000 ∧ oddHalf delayed 3 = false) ∧
    (sourceOk (0x187#16).toNat = true ∧ (2#8).toNat < 3) ∧
    (∀ s ∈ [SetObj.termGain 3 0 5, .outGain 3 5, .groupGain 0 5], setObjOk delayed bare s = true) ∧
    (setFieldOk (.delay 3 257 16) = true ∧ setObjOk delayed bare (.delay 3 257 16) = false) ∧
    setFieldOk (.delay 3 256 17) = false ∧ hostClosed Dev.reset = true ∧ up.core.image = none := by decide +kernel

/-- A trajectory of channel 3's output gain with steps to go, and 512 others. -/
def traj (k : Nat) : Traj := ⟨r1, 60, .out 3, 0, 0x100000, 8, k, false⟩
def moving (k : Nat) : Dev := { live with mix := { live.mix with trajs := [traj k] } }
def crowded : Dev := { live with mix := { live.mix with trajs := List.replicate 512 { traj 0 with obj := .group 5 } } }
def findTraj (d : Dev) (id : QId) (cid : BitVec 16) : Option Traj := d.mix.trajs.find? fun t => decide (t.ref.q = id ∧ t.ref.cid = cid)

theorem meets_GainTrajectories :
    (hostClosed live = false ∧ imageOn live = true ∧ gainExists live (.out 3) = true ∧ live.mix.trajs = [] ∧ 1 ≤ 1 ∧ 1048576 ≤ 1048576 ∧
      gainBefore live (.out 3) = 0x100000 ∧ 0 < gainBefore live (.out 3)) ∧
    (0xFFFFFF#24).toInt < 0 ∧ gainExists live (.term 3 0) = false ∧ 0 < 1 ∧ 1048576 < 1048577 ∧ hostClosed Dev.reset = true ∧
    (findTraj (moving 7) r1.q r1.cid = some (traj 7) ∧ (traj 7).k + 1 = (traj 7).steps) ∧
    (findTraj (moving 6) r1.q r1.cid = some (traj 6) ∧ (traj 6).k + 1 < (traj 6).steps) ∧
    (findTraj (moving 8) r1.q r1.cid = some (traj 8) ∧ (traj 8).steps ≤ (traj 8).k) ∧
    ((traj 7).log = false ∧ -(2 ^ 23) ≤ (traj 7).g0 ∧ (traj 7).g0 < 2 ^ 23 ∧ -(2 ^ 23) ≤ (traj 7).g1 ∧ (traj 7).g1 < 2 ^ 23 ∧ 0 < (traj 7).steps ∧
      (traj 7).steps ≤ 8 ∧ 7 < (traj 7).steps) := by decide +kernel

theorem meets_GainTrajectories_full : hostClosed crowded = false ∧ imageOn crowded = true ∧ gainExists crowded (.out 3) = true ∧
    512 ≤ (crowded.mix.trajs.filter fun t => decide (t.k < t.steps ∧ t.obj ≠ .out 3)).length := by decide +kernel

/-! #### Serial ports -/

/-- Port 2 as an enabled slave input in a state. -/
def port (f : Sap → Sap) : Dev := { live with ports := { live.ports with
  sap := live.ports.sap.set 2 (f { Sap.reset with fmt := { SapFmt.reset with en := true } }) } }
def portOn (n : Nat) : Dev := port fun s => { s with started := true, running := true, fifo := List.replicate n [] }
def portOwed : Dev := port fun s => { s with started := true, running := true, discardNext := 1 }
def portOut (n : Nat) : Dev := port fun s => { s with started := true, running := true, fifo := List.replicate n [1], fmt := { s.fmt with out := true } }
def portMaster (m : Nat) : Dev :=
  let d := port fun s => { s with fmt := { s.fmt with master := true, out := true } }
  { d with tb := { d.tb with stc := 63, m := m } }

theorem meets_SerialPorts :
    ((port id).guard.audioReset = false ∧ (port id).ports.sap[(2 : Port)].fmt.en = true ∧ (port id).ports.sap[(2 : Port)].fmt.out = false ∧
      (port id).ports.sap[(2 : Port)].fmt.master = false ∧ (port id).ports.sap[(2 : Port)].started = false) ∧
    (∀ n ∈ [7, 8], (portOn n).ports.sap[(2 : Port)].fmt.en = true ∧ (portOn n).ports.sap[(2 : Port)].started = true ∧
      (portOn n).ports.sap[(2 : Port)].running = true ∧ (portOn n).ports.sap[(2 : Port)].frameBits = 256 ∧
      (portOn n).ports.sap[(2 : Port)].discardNext = 0 ∧ (portOn n).ports.sap[(2 : Port)].fifo.length = n) ∧
    255 ≠ 256 ∧ (portOwed.ports.sap[(2 : Port)].started = true ∧ 0 < portOwed.ports.sap[(2 : Port)].discardNext) ∧
    ((portOut 1).ports.sap[(2 : Port)].fmt.out = true ∧ (portOut 1).ports.sap[(2 : Port)].fifo = [[1]] ∧ (portOut 1).ports.sap[(2 : Port)].resync = 0 ∧
      (portOut 0).ports.sap[(2 : Port)].fifo = []) ∧
    ((portMaster 18).ports.sap[(2 : Port)].fmt.master = true ∧ masterTime (portMaster 18) (portMaster 18).ports.sap[(2 : Port)].fmt.rate = true ∧
      masterTime (portMaster 17) (portMaster 17).ports.sap[(2 : Port)].fmt.rate = false) ∧
    (live.ports.sap[(2 : Port)].fmt.en = false ∧ live.ports.sap[(2 : Port)].started = false) := by decide +kernel

theorem meets_SerialPorts_slips :
    (∀ f ∈ [fun s : Sap => s, fun s => { s with fmt := { s.fmt with out := true } }, fun s => { s with fmt := { s.fmt with free := true } }],
      (port fun s => f { s with running := true, evalSum := some 5 }).ports.sap[(2 : Port)].evalSum = some 5 ∧
      (port fun s => f { s with running := true, evalSum := some 5 }).ports.sap[(2 : Port)].fmt.en = true ∧
      (port fun s => f { s with running := true, evalSum := some 5 }).ports.sap[(2 : Port)].running = true) ∧
    (live.ports.sap[(2 : Port)].running = false ∧ live.ports.sap[(2 : Port)].evalSum = none) ∧
    (port fun s => { s with slipPend := 1 }).ports.sap[(2 : Port)].slipPend = 1 ∧
    (port fun s => { s with slipPend := -1 }).ports.sap[(2 : Port)].slipPend = -1 ∧ live.ports.sap[(2 : Port)].slipPend = 0 ∧
    ((port id).ports.sap[(2 : Port)].fmt.en = true ∧ (port id).ports.sap[(2 : Port)].fmt.master = false ∧ (port id).guard.audioReset = false) := by
  decide +kernel

/-! #### Measurements -/

theorem meets_MeasurementStarts :
    (hostClosed sensed = false ∧ sensed.core.image = some awlImage ∧ oddHalf sensed 3 = false ∧ stepsOk (7#8).toNat = true ∧ 1152 ≤ r1.len ∧
      sensed.power[tileOf 3].senseRemote = true ∧ innerAwl awlImage 3 = true ∧ halves sensed 3 = [3] ∧ sensed.chs[(3 : Ch)].prot.latched = false ∧
      sensed.chs[(3 : Ch)].prot.released = false ∧ sensed.chs[(3 : Ch)].mod.halted = false ∧ inStop sensed.chs[(3 : Ch)] = false ∧
      sensed.chs[(3 : Ch)].prot.drive = .off ∧ sensed.chs[(3 : Ch)].meas = none ∧ clearRefused sensed 3 = false ∧
      measUnits sensed (7#8).toNat = some [0, 0, 0, 1, 2]) ∧
    stepsOk (2#8).toNat = false ∧ { r1 with len := 1151 }.len < 1152 ∧ hostClosed Dev.reset = true ∧ up.core.image = none ∧
    ((7#8).getLsbD 1 = true ∧ live.power[tileOf 3].senseRemote = false) := by decide +kernel

theorem meets_MeasurementStarts_busy :
    (stepsOk (1#8).toNat = true ∧ (1#8).getLsbD 1 = false ∧ (1#8).getLsbD 2 = false ∧ latchOn.core.image = some bare ∧ hostClosed latchOn = false ∧
      (3 : Ch) ∈ halves latchOn 3 ∧ latchOn.chs[(3 : Ch)].prot.latched = true) ∧
    ((prot fun p => { p with released := true }).core.image = some bare ∧ halves (prot fun p => { p with released := true }) 3 = [3] ∧
      (prot fun p => { p with released := true }).chs[(3 : Ch)].prot.released = true ∧
      (prot fun p => { p with released := true }).chs[(3 : Ch)].prot.latched = false) ∧
    (∀ b ∈ [true, false], ∀ st ∈ [1, 32, 0], (measuring (measIn 1 st fun m => { m with fi := 960, driven := b })).chs[(3 : Ch)].meas =
      some (measIn 1 st fun m => { m with fi := 960, driven := b })) ∧
    ((1 : Nat).testBit 0 = true ∧ (32 : Nat).testBit 0 = false ∧ (32 : Nat).testBit 5 = true ∧ (0 : Nat).testBit 5 = false) ∧
    ((measIn 1 1 fun m => { m with fi := 959 }).fi < 960 ∧ live.chs[(3 : Ch)].meas = none) := by decide +kernel

/-- Sums of one Fi mean at 1 Ω, just under it, at 200 Ω, above it, and without current; the same of a cable. -/
def dcAt (steps : Nat) (v i : Int) (tripped : Bool) : Meas := measIn 2 steps fun m => { m with fi := 1920, sumV := v, sumI := i, cnt := 1, tripped := tripped }
def cableAt (steps : Nat) (i : Int) : Meas := measIn 3 steps fun m => { m with fi := 2880, sumV := 100, sumI := i, cnt := 1, done := 1 }
def ohms (m : Meas) : Rat := (m.sumV : Rat) * 24 / (m.sumI * 10)
def cabled (m : Meas) : Dev := (measuring m).ch 3 fun x => { x with cfg := { x.cfg with cableR := 5 } }

theorem meets_MeasurementDcAndCable :
    (∀ m ∈ [dcAt 3 180 432 false, dcAt 5 36000 432 false, dcAt 1 36000 432 false, dcAt 3 179 432 false, dcAt 3 180 432 true, dcAt 3 36001 432 false,
      dcAt 3 1 419 false, cableAt 7 83887, cableAt 3 83886], (measuring m).chs[(3 : Ch)].meas = some m) ∧
    (∀ m ∈ [dcAt 3 180 432 false, dcAt 5 36000 432 false, dcAt 1 36000 432 false], m.step = 2 ∧ 1920 ≤ m.fi ∧ 0 < m.cnt ∧ m.tripped = false ∧
      m.sumI ≠ 0 ∧ 1 ≤ ohms m ∧ ohms m ≤ 200 ∧ m.cnt * 2 ^ 23 ≤ 20000 * m.sumI.natAbs) ∧
    ((3 : Nat).testBit 1 = true ∧ (5 : Nat).testBit 1 = false ∧ (5 : Nat).testBit 2 = true ∧ (1 : Nat).testBit 2 = false) ∧
    (ohms (dcAt 3 179 432 false) < 1 ∧ (dcAt 3 180 432 true).tripped = true ∧ 200 < ohms (dcAt 3 36001 432 false) ∧
      20000 * (dcAt 3 1 419 false).sumI.natAbs < 2 ^ 23) ∧
    (dcAt 3 180 432 false).step ≠ 3 ∧ 1919 < 1920 ∧ 2879 < 2880 := by decide +kernel

theorem meets_MeasurementDcAndCable_cable :
    ((cableAt 7 83887).step = 3 ∧ 2880 ≤ (cableAt 7 83887).fi ∧ (cableAt 7 83887).step ≠ 2 ∧ 0 < (cableAt 7 83887).cnt ∧
      (cableAt 7 83887).cnt * 2 ^ 23 < 100 * (cableAt 7 83887).sumI.natAbs ∧ (cableAt 3 83886).cnt * 2 ^ 23 ≥ 100 * (cableAt 3 83886).sumI.natAbs ∧
      (cableAt 7 83887).steps.testBit 2 = true ∧ (cableAt 3 83886).steps.testBit 2 = false) ∧
    (measuring (cableAt 3 83886)).chs[(3 : Ch)].cfg.cableR = 0 ∧
    ((cabled (cableAt 3 83886)).chs[(3 : Ch)].meas = some (cableAt 3 83886) ∧ (cabled (cableAt 3 83886)).chs[(3 : Ch)].cfg.cableR ≠ 0) := by decide +kernel

/-- A sweep of channel 3 with its five units, at a point, its tone running. -/
def sweepIn (point : Nat) : Meas := measIn 4 7 fun m => { m with units := [0, 0, 0, 1, 2], point := point, fi := 200000 }
def swept (point : Nat) : Dev := { measuring (sweepIn point) with awl := { live.awl with
  gens := live.awl.gens.set 0 { Gen.reset with running := true } } }
/-- Measurements further on, of a channel with and without an identity, and the load record of identity 1 in slot 9. -/
def named (m : Meas) : Dev := (measuring m).ch 3 fun x => { x with cfg := { x.cfg with loadId := 1 :: List.replicate 31 0 } }
def anon (m : Meas) : Dev := (measuring m).ch 3 fun x => { x with cfg := { x.cfg with loadId := List.replicate 32 0 } }
def recOf : Nat × List Byte := (9, le 4 (crc32 (1 :: List.replicate 31 0)) ++ zeros 252)
def recorded (m : Meas) : Dev := { warm 500 (named m) with admin := { live.admin with records := [recOf] } }
def ending (n status : Nat) : Dev := (measuring (measIn 7 1 fun m => { m with status := status })).ch 3 fun x => { x with prot := { x.prot with ssCount := n } }
def writing : Meas := measIn 0 1 fun m => { m with writing := true }
def pausing (d : Dev) : Dev := { d with admin := { d.admin with act := restarting.admin.act } }

theorem meets_MeasurementEnds :
    (∀ k ∈ [0, 62, 63], (swept k).chs[(3 : Ch)].meas = some (sweepIn k) ∧ (sweepIn k).step = 4 ∧ (sweepIn k).units.length = 5 ∧
      toneOn (swept k) (sweepIn k) = true ∧
      settleFi (swept k).tb.n (toneDelta (swept k).tb.n (sweepIn k).point) + measureFi (swept k).tb.n (toneDelta (swept k).tb.n (sweepIn k).point)
        ≤ (sweepIn k).fi) ∧
    (∀ st ∈ [0, 3], ∀ n ∈ [16, 15], (ending n st).chs[(3 : Ch)].meas = some (measIn 7 1 fun m => { m with status := st }) ∧
      (ending n st).chs[(3 : Ch)].prot.ssCount = n ∧ halves (ending n st) 3 = [3]) ∧
    (measIn 7 1 id).step = 7 ∧ (measIn 7 1 id).step ≠ 4 ∧
    ((measIn 5 31 id).step = 5 ∧ (measuring (measIn 5 31 id)).admin.act = none ∧ (measuring (measIn 5 31 id)).chs[(3 : Ch)].meas = some (measIn 5 31 id)) ∧
    ((pausing (measuring (measIn 5 31 id))).admin.act ≠ none ∧ (pausing (measuring (measIn 5 31 id))).chs[(3 : Ch)].meas = some (measIn 5 31 id)) := by
  decide +kernel

theorem meets_MeasurementEnds_records :
    ((anon (measIn 6 31 id)).chs[(3 : Ch)].meas = some (measIn 6 31 id) ∧ (measIn 6 31 id).step = 6 ∧ (measIn 6 31 id).steps.testBit 4 = true ∧
      (anon (measIn 6 31 id)).chs[(3 : Ch)].cfg.loadId.all (· == 0) = true ∧ (anon (measIn 6 31 id)).admin.act = none) ∧
    ((recorded (measIn 6 31 id)).chs[(3 : Ch)].meas = some (measIn 6 31 id) ∧ (recorded (measIn 6 31 id)).admin.act = none ∧
      (recorded (measIn 6 31 id)).chs[(3 : Ch)].cfg.loadId.all (· == 0) = false ∧ nvOpen (recorded (measIn 6 31 id)) = true ∧
      nvOpen (warm 951 (recorded (measIn 6 31 id))) = false) ∧
    ((measIn 6 32 id).steps.testBit 5 = true ∧ nvOpen (recorded (measIn 6 32 id)) = true ∧ nvOpen (warm 951 (recorded (measIn 6 32 id))) = false ∧
      ((recorded (measIn 6 32 id)).admin.records.find? fun p => decide (recIdent p.2 = identOf (recorded (measIn 6 32 id)).chs[(3 : Ch)])) = some recOf ∧
      nvOpen (warm 500 (named (measIn 6 32 id))) = true ∧
      ((warm 500 (named (measIn 6 32 id))).admin.records.find? fun p => decide (recIdent p.2 = identOf (named (measIn 6 32 id)).chs[(3 : Ch)])) = none) ∧
    ((measuring writing).chs[(3 : Ch)].meas = some writing ∧ writing.writing = true ∧ (measIn 5 31 id).writing = false) := by decide +kernel

def supply (n : Nat) : Dev := rails fun r => { r with sinceDone := n, sumCnt := 1, sumP := 65535, supRsrcP := 0xFFFF, supRsrcN := 0xFFFF }

theorem meets_MeasurementEnds_supply :
    ((supply 9600).rails.preState = 4 ∧ 9600 ≤ (supply 9600).rails.sinceDone ∧ 0 < (supply 9600).rails.sumCnt ∧ 0 ≤ (supply 9600).rails.sumP ∧
      (supply 9600).rails.sumP ≤ 65535 * (supply 9600).rails.sumCnt ∧ (supply 9600).rails.supRsrcP = 0xFFFF ∧ (supply 9600).rails.supRsrcN = 0xFFFF) ∧
    (Dev.reset.rails.preState ≠ 4 ∧ (supply 9599).rails.sinceDone < 9600 ∧ live.rails.sumCnt = 0) ∧
    (let x := (supply 9600).rails
     (if x.maxN - x.minN ≤ x.maxP - x.minP then meanCrossings x.crossP 0 x.sumP x.sumCnt else meanCrossings x.crossN 0 x.sumN x.sumCnt) < 2 * 65535) := by
  decide +kernel

/-! #### Reliability -/

/-- The Cobbler after a pass that corrected one word of tile memory 0, with spare rows left or none; a word in error in one byte and in two. -/
def row0 : RowAddr := ⟨0, 8⟩
def scrubbed (spares : Nat) : Dev := { live with cob := { live.cob with lastRows := [row0], spareRows := live.cob.spareRows.set 0 spares } }
def one : List SymErr := [⟨34, 1⟩]
def two : List SymErr := [⟨0, 1⟩, ⟨34, 3⟩]
def hot (d : Dev) : Dev := { d with shank := { d.shank with throttle := true } }

theorem meets_CobblersDuties :
    (live.guard.audioReset = false ∧ cobWorks live = true ∧ live.shank.throttle = false ∧ (∀ r ∈ [row0], r ∉ live.cob.lastRows) ∧ live.cob.hardRows = []) ∧
    (scrubRead one = some true ∧ scrubRead two = none ∧ scrubRead [] = some false) ∧
    (∀ d ∈ [scrubbed 1, scrubbed 0, hot (scrubbed 1)], d.guard.audioReset = false ∧ cobWorks d = true ∧ row0 ∈ d.cob.lastRows ∧ d.cob.hardRows = []) ∧
    ((scrubbed 1).shank.throttle = false ∧ 0 < (scrubbed 1).cob.spareRows.getD row0.mem.val 0 ∧ (scrubbed 0).cob.spareRows.getD row0.mem.val 0 = 0 ∧
      (hot (scrubbed 1)).shank.throttle = true) ∧
    (nvOpen (warm 950 live) = true ∧ nvOpen (warm 951 live) = false ∧ (warm 951 live).guard.audioReset = false ∧
      (warm 951 live).shank.throttle = false ∧ cobWorks (warm 951 live) = true ∧ cobWorks (warm 950 live) = true) ∧
    Dev.reset.guard.audioReset = true ∧ cobWorks up = false := by decide +kernel

/-- A segment's result, a switch with segments gone, and a converter's calibration. -/
def seg (gate : Bool) (pct : Nat) : SegResult := ⟨3, true, pct, gate, 0, 0⟩
def worn (s : BitVec 12) : Dev := chan fun x => { x with seg := [0, s] }
/-- Converters of tile 0: at a place of the round, with the spare in use and failed converters. -/
def atConv (k : Nat) (spare : Bool) (failed : BitVec 9) : Dev := { live with power := live.power.set 0 { live.power[(0 : PTile)] with
  calI := k, calV := k, vSpare := spare, iSpare := spare, vFailed := failed, iFailed := failed } }
def onLane (d : Dev) : Dev := d.ch 0 fun x => { x with prot := { x.prot with released := true } }

theorem meets_SegmentTestAndCalibration :
    (live.guard.audioReset = false ∧ live.shank.throttle = false ∧ (seg true 50).gate = true ∧ 50 ≤ (seg true 50).pct ∧ (seg true 150).pct ≤ 150) ∧
    ((seg false 100).gate = false ∧ (seg true 49).pct < 50 ∧ 150 < (seg true 151).pct) ∧
    (10 ≤ segCond ((worn 0).chs[(3 : Ch)].seg.getD 1 0 ||| (1#12 <<< 4))) ∧
    (segCond ((worn 6).chs[(3 : Ch)].seg.getD 1 0 ||| (1#12 <<< 4)) < 10 ∧ (worn 6).chs[(3 : Ch)].prot.oos = 0 ∧ 1 < (worn 6).chs[(3 : Ch)].seg.length) ∧
    (prot fun p => { p with oos := 2 }).chs[(3 : Ch)].prot.oos ≠ 0 ∧ ((hot live).guard.audioReset = false ∧ (hot live).shank.throttle = true) := by
  decide +kernel

theorem meets_SegmentTestAndCalibration_converters :
    (∀ d ∈ [atConv 7 false 0, atConv 8 false 0, atConv 7 true 1, atConv 8 true 1, onLane (atConv 8 true 1), atConv 7 false 256],
      d.guard.audioReset = false ∧ d.shank.throttle = false) ∧
    ((5000 : Int).natAbs ≤ 5000 ∧ (-10000 : Int).natAbs ≤ 10000 ∧ (2000 : Int).natAbs ≤ 2000 ∧ ¬((2001 : Int).natAbs ≤ 2000)) ∧
    ((atConv 8 true 1).power[(0 : PTile)].iFailed.getLsbD 0 = true ∧ (atConv 7 true 1).power[(0 : PTile)].iFailed.getLsbD 8 = false) ∧
    ((atConv 8 false 0).power[(0 : PTile)].iSpare = false ∧ (atConv 8 false 0).power[(0 : PTile)].iFailed.getLsbD 8 = false ∧
      (atConv 7 false 256).power[(0 : PTile)].iFailed.getLsbD 8 = true) ∧
    (spareLane (atConv 7 true 1) 0 1 4 = some 0 ∧ (atConv 7 true 1).chs[(0 : Ch)].prot.released = false ∧ (atConv 7 true 1).chs[(0 : Ch)].prot.oos = 0 ∧
      spareLane (onLane (atConv 7 true 1)) 0 1 4 = some 0 ∧ (onLane (atConv 7 true 1)).chs[(0 : Ch)].prot.released = true) := by decide +kernel

/-- `live` with a spare engine tile retired, and with a delay line in use. -/
def noSpare : Dev := { live with cob := { live.cob with etMtFailed := live.cob.etMtFailed.set 16 true } }
def lined : Dev := { live with mix := { live.mix with chs := live.mix.chs.set 3 { MixCh.reset with lineSize := 32 } } }

theorem meets_UncorrectableWords :
    (∀ pl ∈ [EccPlace.tileData 0, .tileSched 16, .spareTile 16, .fabric 0 1 0 true, .delayLine 3 1, .captureRing 0 1, .streamFifo 5, .oneCopy,
      .journal 1 8, .queueContext 1, .imageCopy 0], readAt live pl two = none ∧ readAt live pl one = some 1 ∧ readAt live pl [] = some 0) ∧
    (∀ pl ∈ [EccPlace.nvFirmware 1, .nvImage 1 true, .nvRecord 9, .nvHealth], readAt live pl [⟨0, 1⟩, ⟨8, 3⟩] = none ∧
      readAt live pl ((List.range 8).map fun k => ⟨k, 1⟩) = some 8) := by decide +kernel

theorem meets_UncorrectableWords_places :
    (live.guard.audioReset = false ∧ retired live (16 : Phys).val = false ∧ servedBy live (16 : Phys).val = 0xFF) ∧
    (retired live (0 : Phys).val = false ∧ servedBy live (0 : Phys).val ≠ 0xFF) ∧
    (noSpare.guard.audioReset = false ∧ retired noSpare (16 : Phys).val = true ∧ readAt noSpare (.spareTile 16) two = none) ∧
    (Mem.wf lined.mix.chs[(3 : Ch)].line 0 = true ∧ 31 < lined.mix.chs[(3 : Ch)].lineSize ∧ readAt lined (.delayLine 3 31) two = none) ∧
    ((queued committed1).guard.audioReset = false ∧ readAt (queued committed1) (.journal 1 8) two = none ∧
      ((liveFlights (queued committed1)).find? fun f => decide (f.ref.q = 1 ∧ f.ref.cid = 8)).isSome = true ∧ liveFlights live = []) ∧
    (capDue 3 false none).awl.caps[(0 : Fin 16)].first ≤ 1 ∧ (commit [] 0 1).admin.fw[(1 : Fin 2)].st ≠ 0 ∧
    (Mem.find (recorded (measIn 6 32 id)).admin.records (9 : Fin 512).val = some recOf.2 ∧ (recorded (measIn 6 32 id)).guard.audioReset = false ∧
      readAt (recorded (measIn 6 32 id)) (.nvRecord 9) [⟨0, 1⟩, ⟨8, 3⟩] = none ∧ Mem.find live.admin.records (9 : Fin 512).val = none) ∧
    Dev.reset.guard.audioReset = true := by decide +kernel

/-- `live` with the spares of the engine tiles gone, with tile 0 loading, and failed. -/
def spareless : Dev := { live with cob := { live.cob with etMtFailed := (live.cob.etMtFailed.set 16 true).set 17 true } }
def tile0 (f : TileState → TileState) : Dev := live.tile 0 f

theorem meets_TileFailover :
    (live.guard.audioReset = false ∧ (4 : Fin 5) ≠ 0 ∧ live.core.tiles[(0 : LTile)].failed = false ∧ live.core.act = none ∧
      (∀ c : Ch, live.chs[c].meas = none) ∧ live.core.tiles[(0 : LTile)].copyBad = false ∧
      (sparesOf { live with cob := { live.cob with etMtFailed := live.cob.etMtFailed.set 0 true } } (kindOf 0)).head? = some 16) ∧
    (spareless.guard.audioReset = false ∧ spareless.core.tiles[(0 : LTile)].failed = false ∧
      (sparesOf { spareless with cob := { spareless.cob with etMtFailed := spareless.cob.etMtFailed.set 0 true } } (kindOf 0)).head? = none) ∧
    (tile0 fun t => { t with copyBad := true }).core.tiles[(0 : LTile)].copyBad = true ∧
    (tile0 fun t => { t with failed := true }).core.tiles[(0 : LTile)].failed = true ∧
    (tile0 fun t => { t with loading := some 16 }).core.tiles[(0 : LTile)].loading.isSome = true ∧
    live.core.tiles[(0 : LTile)].loading = none := by decide +kernel

/-! #### The host's queues -/

/-- The queue interface stopped, with a valid admin configuration and with an invalid one. -/
def stopped_ (depth : Nat) : Dev := qif fun q => { q with en := false, rdy := false, aqSq := depth, aqCq := 2 }

theorem meets_QueueDoorbells :
    (Mem.find (paired (pair 2)).qif.queues (1 : QId).val = some (pair 2) ∧ (3#32).toNat % 4096 < (pair 2).sqDepth ∧ (pair 2).sqDepth ≤ (4#32).toNat % 4096 ∧
      (3#32).toNat % 4096 < (pair 2).cqDepth ∧ (pair 2).cqDepth ≤ (4#32).toNat % 4096) ∧
    Mem.find live.qif.queues (1 : QId).val = none ∧ (2 ≠ 4 ∧ 6 % 4 ≠ 0 ∧ 8 % 4 = 0) ∧
    ((stopped_ 2).qif.en = false ∧ aqOk (stopped_ 2).qif = true ∧ aqOk (stopped_ 4096).qif = true) ∧
    (aqOk (stopped_ 1).qif = false ∧ aqOk (stopped_ 4097).qif = false ∧ (stopped_ 1).qif.en = false) ∧ live.qif.en = true := by decide +kernel

theorem meets_RegisterWrites :
    (1#32).getLsbD 0 = true ∧ (0#32).getLsbD 0 = false ∧ hostClosed live = false ∧
    (hostClosed Dev.reset = true ∧ audioReg (0x1000#18).toNat = true ∧ (0x1000#18).toNat % 4 = 0 ∧ (0x1000#18).toNat < 0x7F00) ∧
    (2#18).toNat % 4 ≠ 0 ∧ (0x7F00 ≤ (0x7F00#18).toNat ∧ (0x7FFC#18).toNat < 0x8000 ∧ (0x7FFC#18).toNat % 4 = 0) ∧
    (0x30000 ≤ (0x30000#18).toNat ∧ (0x3FFFC#18).toNat % 4 = 0) := by decide +kernel

/-- An entry of 64 bytes with an opcode, byte 4, bytes 8 to 15 and byte 32, and the state once it is taken from queue 1 or from Q0. -/
def entry (op b4 when_ b32 : Nat) : List Byte := le 4 (op + 2 ^ 16 * 7) ++ le 4 b4 ++ le 8 when_ ++ le 16 0 ++ le 32 b32
def fetching (d : Dev) (k : Nat) : Dev := { d with qif := { d.qif with queues := [(k, pair 1)] } }
def fetched (p : Nat × Dev) : Dev :=
  { p.2 with qif := { p.2.qif with queues := Mem.put p.2.qif.queues p.1 { pair 1 with sqHead := ((pair 1).sqHead + 1) % (pair 1).sqDepth } } }
/-- An entry's opcode with flags: a time in STC, or a frame. -/
def setEntry (flags when_ : Nat) : List Byte := le 4 (0x24 + 2 ^ 8 * flags + 2 ^ 16 * 7) ++ le 4 0 ++ le 8 when_ ++ le 16 0 ++ [3, 0, 4, 0] ++ zeros 4 ++ [0, 0, 8] ++ zeros 21
/-- What queue 1 of `live` makes of an entry: whether it is a set of an output gain that passes its checks, and its time. -/
def setTime (e : List Byte) : Option When :=
  match pick (fetching live 1) with
  | none => none
  | some p => (parseEntry (refOf 1 0 e) e []).bind fun y =>
    if y.cmd = .timedSet (refOf 1 0 e) (.outGain 4 0x080000) ∧ cidBusy p.2 (refOf 1 0 e) = false ∧ fetchFail (fetched p) { y with time := resolveWhen (fetched p) y.time } = none
    then some (resolveWhen (fetched p) y.time) else none

theorem meets_CommandFetch :
    (∀ d ∈ [live, up], ∀ k ∈ [0, 1], ∃ p ∈ pick (fetching d k), p.1 = k ∧ Mem.find p.2.qif.queues k = some (pair 1) ∧
      p.2.qif.flights = [] ∧ p.2.qif.outbox = []) ∧
    (leAt (entry 0x01 0 0 0) 0 1 = 1 ∧ opKnown 1 1 = false) ∧
    (opKnown 1 (leAt (entry 0x28 1 0 1) 0 1) = true ∧ parseEntry (refOf 1 0 (entry 0x28 1 0 1)) (entry 0x28 1 0 1) [] = none) ∧
    (∃ p ∈ pick (fetching up 1), ∃ y ∈ parseEntry (refOf 1 0 (entry 0x28 0 0 1)) (entry 0x28 0 0 1) [],
      fetchFail (fetched p) { y with time := resolveWhen (fetched p) y.time } = some 3) ∧
    (opKnown 0 (leAt (entry 0x01 0 0 0) 0 1) = true ∧ ∃ y ∈ parseEntry (refOf 0 0 (entry 0x01 0 0 0)) (entry 0x01 0 0 0) [],
      y.cmd = .identify (refOf 0 0 (entry 0x01 0 0 0)) ∧ y.op = 1 ∧ y.time = .untimed) := by decide +kernel

theorem meets_CommandFetch_times :
    setTime (setEntry 0 0) = some .untimed ∧ setTime (setEntry 1 66) = some (.stc 66) ∧
    (setTime (setEntry 3 5)).any (fun w => match w with | .frame _ _ => true | _ => false) = true ∧
    (∃ p ∈ pick { fetching (queued committed1) 1 with qif := { (fetching (queued committed1) 1).qif with flights := committed1 } },
      cidBusy p.2 { r1 with cid := 8 } = true) ∧
    (ready (fetching live 1) 0 = [1] ∧ (fetching live 1).qif.en = true ∧ (fetching live 1).qif.rdy = true ∧ (fetching live 1).qif.paused = false ∧
      (fetching live 1).qif.linkUp = true ∧ journalUsed (fetching live 1) < 32768) ∧
    pick live = none ∧ Dev.reset.qif.en = false := by decide +kernel

/-- A completion for a queue with room for one more, and the vectors in a state. -/
def comp (status : Nat) : Completion := ⟨1, 7, 0, none, 0x29, status, 64, 0, false⟩
def room (used : Nat) (ien : Bool) : Queue := { pair 1 with cqTail := used, ien := ien }
def posting (used : Nat) (ien : Bool) (th : Nat) : Dev := qif fun q => { q with outbox := [comp 0], queues := [(1, room used ien)], coalThresh := th, coalTime := 1 }
def vectors (m : Msix) : Dev := qif fun q => { q with msix := m }

theorem meets_CompletionsCuesAndVectors :
    ((vectors ⟨[3], [], false, [], [], []⟩).qif.msix.funcMasked = false ∧ (3 : Fin 2048).val ∈ (vectors ⟨[3], [], false, [], [], []⟩).qif.msix.unmasked) ∧
    ((vectors ⟨[], [], true, [], [], []⟩).qif.msix.funcMasked = true ∧ (3 : Fin 2048).val ∉ live.qif.msix.unmasked ∧ live.qif.msix.funcMasked = false) ∧
    (∀ i ∈ [true, false], ∀ th ∈ [0, 4], (posting 2 i th).qif.linkUp = true ∧ (posting 2 i th).qif.outbox.find? (postable (posting 2 i th)) = some (comp 0) ∧
      Mem.find (posting 2 i th).qif.queues (1 : QId).val = some (room 2 i) ∧ (posting 2 i th).qif.coalThresh = th ∧ (room 2 i).ien = i) ∧
    ((room 2 true).cls = 0 ∧ { room 2 true with cls := 1 }.cls ≠ 0 ∧ (comp 0).status = 0) ∧
    (live.qif.outbox = [] ∧ Dev.reset.qif.linkUp = false) ∧ ((∀ c ∈ (posting 3 true 0).qif.outbox, postable (posting 3 true 0) c = false) ∧
      (posting 3 true 0).qif.outbox ≠ []) ∧
    ((3 : Fin 2048).val, 5) ∈ (vectors ⟨[], [], false, [], [], [(3, 5)]⟩).qif.msix.deferred ∧ live.qif.msix.deferred = [] := by decide +kernel

/-- A cue of Q1 at a boundary, in a state of its progress. -/
def cueAt (n : Nat) (p : Prog) : Flight := { (flight (.telemetryRead r1 0 1) 0x29 p) with at_ := n }
def cued (n : Nat) (p : Prog) : Dev := qif fun q => { q with flights := [cueAt n p] }

theorem meets_CompletionsCuesAndVectors_cues :
    ((cueAt 65 .cue).prog = .cue ∧ (cueAt 65 .cue).ref.q = 1 ∧ (cueAt 65 .cue).ref.cid = 8 ∧ (cueAt 65 .cue).at_ ≤ nextStc (cued 65 .cue)) ∧
    ((cued 66 .cue).qif.flights[0]? = some (cueAt 66 .cue) ∧ nextStc (cued 66 .cue) < (cueAt 66 .cue).at_) ∧
    (∀ p ∈ [Prog.cue, .committed], (dueList (cued 64 p)).head? = some (cueAt 64 p) ∧ (cued 64 p).tb.cmdsDue = false ∧
      (cueAt 64 p).cmd = .telemetryRead (cueAt 64 p).ref 0 1 ∧ 0x20 ≤ (cueAt 64 p).opcode ∧ (cued 64 p).relWait = [] ∧ (cued 64 p).admin.act = none) ∧
    ((dueList (cued 64 .due)).head? = some (cueAt 64 .due) ∧ (cueAt 64 .due).prog ≠ .cue ∧ (cueAt 64 .due).prog ≠ .committed) ∧
    ((∀ f ∈ (cued 65 .committed).qif.flights, dueNow (cued 65 .committed) f = false) ∧ (cued 65 .committed).qif.flights ≠ []) := by decide +kernel

theorem meets_LossOfHost : live.core.act = none ∧ (∀ c : Ch, live.chs[c].meas = none) ∧ live.qif.en = true ∧ Dev.reset.qif.en = false ∧
    (4#3 = 4 ∧ 1 ≤ (1#4).toNat ∧ (4#4).toNat ≤ 4) ∧ (3#3 ≠ 1 ∧ 3#3 ≠ 2 ∧ 3#3 ≠ 4 ∧ ¬((5#4).toNat ≤ 4)) := by
  decide +kernel

/-! #### Bring-up and service ports -/

/-- The key armed; a keyed reset begun. -/
def armed_ : Dev := guard fun g => { g with keyArmed := true }
def keyed : Dev := guard fun g => { g with arst := true }

theorem meets_Resets :
    (armed_.guard.audioReset = false ∧ armed_.guard.arst = false ∧ (0xFFFF4152#32).toNat % 65536 = 0x4152 ∧ (0x5354#32).toNat % 65536 = 0x5354 ∧
      armed_.guard.keyArmed = true) ∧
    ((0x5355#32).toNat % 65536 ≠ 0x4152 ∧ (0x5355#32).toNat % 65536 ≠ 0x5354 ∧ live.guard.keyArmed = false) ∧
    keyed.guard.arst = true ∧ keyed.rails.preState = 4 ∧ (1 ≤ (rails fun r => { r with preState := 3 }).rails.preState ∧
      (rails fun r => { r with preState := 3 }).rails.preState ≤ 3) ∧ live.guard.arst = false ∧ live.guard.audioReset = false ∧
    ({ Guard.reset with ready := true }.ready = true ∧ { Guard.reset with ready := true }.audioReset = true) ∧
    (Dev.reset.guard.ready = false ∧ Dev.reset.guard.safe = false ∧ Dev.reset.guard.trip = 0) ∧
    ({ Guard.reset with safe := true }.safe = true ∧ { Guard.reset with trip := 1 }.trip.getLsbD (0 : Pin).val = true ∧
      (3 : Ch) ∈ maskChans (guard fun g => { g with tripMask := [List.replicate 128 true] }) 0) ∧ live.guard.ready = true := by decide +kernel

/-- A part that grows, at a step, with firmware in its slots, and one that precharges. -/
def growing (step fw0 fw1 : Nat) : Dev := { up with
  growth := ⟨0x02, 0, step⟩
  admin := { up.admin with booted := decide (2 ≤ step), fwBoot := 1, fw := (up.admin.fw.set 0 { up.admin.fw[(0 : Fin 2)] with st := fw0 }).set 1 { up.admin.fw[(1 : Fin 2)] with st := fw1 } }
  qif := { up.qif with rdy := false } }
def valid (d : Dev) (n : Nat) : Bool := decide ((look d.admin.fw n ⟨0, [], 0, 0, 0, 0, 0⟩).st = 1)
def cold : Dev := { live with rails := { Rails.reset with prsntMs := 100, supplyMs := 100 } }
def hotCold (t : Int) : Dev := { cold with shank := (warm t cold).shank }
def stage (f : Rails → Rails) : Dev := { live with rails := f Rails.reset }
def stages (p n : Nat) : Dev := stage fun r => { r with preState := min p n, stageP := p, stageN := n, iInNow := 20 }
def auto (w : W32) : Dev := { (group Prot.reset) with admin := { live.admin with autoArmed := true, autoRelease := w } }

theorem meets_GrowthAndPrecharge :
    (∀ k ∈ [0, 2, 3], (growing k 0 0).guard.audioReset = false ∧ (growing k 0 0).growth.growth = 0 ∧
      (1 ≤ (growing k 0 0).growth.step → (growing k 0 0).admin.booted = true)) ∧
    ((badParts [.segment 3 true 4] [.segment 3 true 4] (growing 2 0 0)).2 = true ∧ (badParts [.other] [.other] (growing 2 0 0)).2 = false) ∧
    badPart (growing 2 0 0) [.other] .other = none ∧ ((4 : Fin 12).val ≠ 11 ∧ (growing 2 0 0).chs[(3 : Ch)].seg.getD 1 0 = 0) ∧
    live.growth.growth ≠ 0 ∧ (growing 1 0 0).admin.booted = false ∧
    (∀ f ∈ [(0, 1), (1, 0), (0, 0)], (growing 1 f.1 f.2).guard.audioReset = false ∧ (growing 1 f.1 f.2).admin.booted = false ∧
      (growing 1 f.1 f.2).growth.step = 1 ∧ (growing 1 f.1 f.2).admin.fwBoot = 1 ∧ valid (growing 1 f.1 f.2) 1 = decide (f.2 = 1) ∧
      valid (growing 1 f.1 f.2) (1 - 1) = decide (f.1 = 1)) ∧ live.admin.booted = true := by decide +kernel

theorem meets_GrowthAndPrecharge_rails :
    (preReady cold = true ∧ guardHot cold = false) ∧ (preReady (hotCold 1251) = true ∧ guardHot (hotCold 1251) = true ∧
      guardHot (hotCold 1250) = false) ∧ preReady live = false ∧
    (∀ x ∈ [(1, 1), (2, 1), (2, 2), (3, 2), (3, 3)], 1 ≤ (stages x.1 x.2).rails.preState ∧ (stages x.1 x.2).rails.preState ≤ 3 ∧
      (stages x.1 x.2).rails.stageP = x.1 ∧ (stages x.1 x.2).rails.stageN = x.2 ∧ 20 ≤ (stages x.1 x.2).rails.iInNow) ∧
    (stage fun r => { r with preState := 2, stageP := 2, stageN := 2, iInNow := 19 }).rails.iInNow < 20 ∧
    ((stage fun r => { r with preState := 3, stage3Fi := 96 }).rails.preState = 3 ∧ 96 ≤ (stage fun r => { r with preState := 3, stage3Fi := 96 }).rails.stage3Fi) ∧
    ((stage fun r => { r with preState := 3, stage3Fi := 95 }).rails.stage3Fi < 96) ∧
    (96 * (stage fun r => { r with preTimeNow := 10, preFi := 959 }).rails.preTimeNow ≤ (stage fun r => { r with preTimeNow := 10, preFi := 959 }).rails.preFi + 1 ∧
      958 + 1 < 96 * 10 ∧ 1920 ≤ 1919 + 1 ∧ 1918 + 1 < 1920) ∧
    ((1#32).getLsbD 0 = true ∧ (2#32).getLsbD 0 = false ∧ (stage fun r => { r with preState := 5 }).rails.preState = 5 ∧ live.rails.preState ≠ 5) ∧
    ((auto 1).guard.audioReset = false ∧ (auto 1).admin.autoArmed = true ∧ preDone (auto 1) = true ∧ (auto 0).admin.autoRelease = 0 ∧
      (releaseGroupNow (auto 1) 0).map (·.2) = some 0 ∧
      (releaseGroupNow (group { Prot.reset with drive := .safeStop, released := true }) 0).isNone = true) ∧
    live.admin.autoArmed = false := by decide +kernel

/-- A guard domain with its pointers and flags given. -/
def smb (ptr hist : Nat) : Dev := guard fun g => { g with smbPtr := ptr, smbHist := hist, smbAlert := true, history := List.replicate 64 ⟨none, 0, 3, 1, 0, 0⟩ }
def baseFailed : Dev := { smb 0x1000 0 with growth := ⟨0, 2, 0⟩ }

theorem meets_ServicePorts :
    live.guard.ready = true ∧ Dev.reset.guard.ready = false ∧ ((0x7EFC#16).toNat % 4 = 0 ∧ (0x7EFC#16).toNat < 0x7F00 ∧ (2#16).toNat % 4 ≠ 0) ∧
    ((63#8).toNat < 64 ∧ ¬((64#8).toNat < 64)) ∧ ((smb 0x0FFC 0).guard.smbPtr < 0x1000) ∧
    (∀ p ∈ [0x1000, 0x7EFC], 0x1000 ≤ (smb p 0).guard.smbPtr ∧ (smb p 0).guard.smbPtr < 0x7F00 ∧ (smb p 0).guard.audioReset = false ∧
      ¬((smb p 0).growth.member = 0 ∧ (smb p 0).growth.growth = 2) ∧ (smb p 0).guard.ready = true) ∧
    (baseFailed.guard.ready = true ∧ baseFailed.growth.member = 0 ∧ baseFailed.growth.growth = 2 ∧ baseFailed.guard.smbPtr = 0x1000) ∧
    0x7F00 ≤ (smb 0x7F00 0).guard.smbPtr ∧
    (∀ p ∈ [0x0100, 0x7EFC], (smb p 0).guard.smbPtr ∉ [0x0120, 0x0124, 0x0128, 0x012C, 0x0104, 0x0108, 0x0804]) ∧
    (smb 0x0104 0).guard.smbPtr = 0x0104 ∧
    ((smb 0 63).guard.history[(smb 0 63).guard.smbHist]? = some ⟨none, 0, 3, 1, 0, 0⟩ ∧ (smb 0 64).guard.history[(smb 0 64).guard.smbHist]? = none) ∧
    (smb 0 0).guard.smbAlert = true ∧ live.guard.smbAlert = false ∧ jtagOffers live .idcode = true ∧ jtagOffers live .extest = false := by decide +kernel

/-! ### Examples of the specification, worked out there -/

/-- What a command leaves of the part. -/
def run (c : Instr) (d : Dev) : Dev :=
  match step ⟨[c], d⟩ with
  | .next s => s.dev
  | _ => Dev.reset

/-- Chapter 4: CH37 reaches count 0 at 164 Fk ticks. -/
theorem test_phase_of_CH37 : phi 37 = 164 := by decide

/-- Chapter 4: at PVP +16.2 V and PVN −17.0 V the word 0x4C_0000 becomes 0x4E_8DE1 (up to the free last bit of its rounding). -/
theorem test_feedForward : (feedForward 0x4C0000 18000 ⟨1620, -1700⟩ false).1 = 0x4E8DE1 ∨ (feedForward 0x4C0000 18000 ⟨1620, -1700⟩ true).1 = 0x4E8DE1 := by
  decide +kernel

/-- Table 4-5: the take-up of 0x4C_0000 on CH37 turns the low side off at count 0, the high side on at fine step 40 and off at 2,432, the low side on
at 2,472. -/
def ch37 : Dev := live.ch 37 fun x => { x with
  mod := { x.mod with counting := true, pending := 0x4C0000#24, pendRails := ⟨1800, -1800⟩, ls := true }
  prot := { x.prot with drive := .loop, released := true } }
theorem test_takeUp : (run (.takeUp 37) ch37).chs[(37 : Ch)].mod.edge = 2432 ∧ (run (.takeUp 37) ch37).chs[(37 : Ch)].mod.plan =
    [⟨0, false, false⟩, ⟨40, true, true⟩, ⟨2432, true, false⟩, ⟨2472, false, true⟩] := by decide +kernel

/-- R583: KV at 18,000 mV and at 10,000 mV. -/
theorem test_kv : kvWord 18000 = .c 0x555555 0 ∧ kvWord 10000 = .c 0x4CCCCD 1 := by decide +kernel

/-- Chapter 5: rails that fell to 14.5 V take the sag gain to 0.84375, for the outer period after the next. -/
theorem test_sag : (sagNext { Power.reset with sagPhase := 2, sagGain := 2 ^ 47, hRun := some 1450 } true).sagPend = some (27 * 2 ^ 42) := by decide +kernel

/-- Chapter 11: steps 1 and 96 of the trajectory down, step 1 of the one up. -/
theorem test_trajectory : trajValue ⟨r0, 0, .term 5 2, 0x100000, 0, 96, 0, false⟩ 1 false = 0x0FD555 ∧
    trajValue ⟨r0, 0, .term 5 2, 0x100000, 0, 96, 0, false⟩ 96 false = 0 ∧ trajValue ⟨r0, 0, .term 5 2, 0, 0x100000, 96, 0, false⟩ 1 false = 0x002AAB := by
  decide +kernel

/-- Chapter 13: the entry that cues CH4's output gain to 0.5 at STC 3,000,000 on Q4100 with CID 0x0011, and the doorbell's offset. -/
def gainEntry : List Byte :=
  [0x24, 0x01, 0x11, 0] ++ zeros 4 ++ [0xC0, 0xC6, 0x2D, 0, 0, 0, 0, 0] ++ zeros 16 ++ [3, 0, 4, 0] ++ zeros 4 ++ [0, 0, 8] ++ zeros 21
theorem test_entry : (parseEntry (refOf 4100 0 gainEntry) gainEntry []).map (fun y => (y.cmd, y.time)) =
    some (.timedSet ⟨4100, 0x11, 0, 0, 0⟩ (.outGain 4 0x080000), .stc 3000000) := by decide +kernel
def q4100 : Dev := { live with qif := { live.qif with queues := [(4100, ⟨0, false, 3, 4, 4, 0, 0, 0, 0, 0, 0, true, none, false⟩)] } }
theorem test_doorbell : ((Mem.find (run (.registerWrite 0x18020#18 2) q4100).qif.queues 4100).map (·.sqTail),
    (Mem.find (run (.registerWrite 0x18024#18 3) q4100).qif.queues 4100).map (·.cqHead)) = (some 2, some 3) := by decide +kernel

/-- Chapters 6 and 18: the sixteenth trip period of CH21 latches it; `GRD_LATCH0`, `GRD_CH_STAT[21]` and `GRD_EVENT` read as listed, and the write of
the event's bit clears it. -/
def ch21 : Dev := run (.class1Trip 21 false ⟨1000, 6501⟩) (live.ch 21 fun x => { x with
  mod := { x.mod with hs := true, edgeAt := 0 }
  prot := { x.prot with perIdx := 100, tripAt := (List.range 15).map (99 - ·), trips := 15, released := true, drive := .loop } })
theorem test_shortedWire : readReg ch21 0x0110 = 0x00200000 ∧ readReg ch21 0x0654 = 0x00101001 ∧ readReg ch21 0x0104 = 0x20 := by decide +kernel
theorem test_event_cleared : readReg (run (.registerWrite 0x0104#18 0x20) ch21) 0x0104 = 0 := by decide +kernel

/-- R71: the check value of CRC-32. -/
theorem test_crc32 : crc32 [0x31, 0x32, 0x33, 0x34, 0x35, 0x36, 0x37, 0x38, 0x39] = 0xCBF43926 := by decide +kernel

/-- FIPS 180-4: SHA-384 of the three bytes abc. -/
theorem test_sha384 : sha384 [0x61, 0x62, 0x63] =
    0xcb00753f45a35e8bb5a03d699ac65007272c32ab0eded1631a8b605a43ff5bed8086072ba1e7cc2358baeca134c825a7 := by decide +kernel

/-- R50, R52: a qualified Zaith is selected as the source from reset, and LOCK_ACQUIRED locks to it. -/
theorem test_lock :
    let d := run .lockAcquired (run .refSelect { fresh with tb := { fresh.tb with qual := 1 } })
    (d.tb.state, d.tb.active) = (.locked, 1) := by decide +kernel

/-- An idle step, and one that serves the oldest command. -/
theorem test_idle : step ⟨[], live⟩ = .next ⟨[], live⟩ := rfl
theorem test_oldest_first : step ⟨[.safeAssert, .snapReq], live⟩ = exec .safeAssert ⟨[.snapReq], live⟩ := rfl

/-- The table's rows give no bits, so that no word spells a command. -/
theorem test_decodeTableWord : decodeTableWord 32 0 = none := rfl

end Sys2Proof.Tests
end

section
/-!
PROOFS. The timebase (chapter 2): what leaves it alone, what an Fi boundary does to it (R58), and the snapshot (R54, R67).
-/

namespace Sys2Proof.Machine

/-! ### The parts of a boundary's work that leave the timebase alone -/

@[simp] theorem streamAll_tb (d : Dev) (f : Stream → Stream) : (d.streamAll f).tb = d.tb := by
  simp [Dev.streamAll]

@[simp] theorem flight_tb (d : Dev) (r : CmdRef) (f : Flight → Flight) : (d.flight r f).tb = d.tb := by
  simp [Dev.flight]

@[simp] theorem setMeas_tb (d : Dev) (c : Ch) (m : Meas) : (setMeas d c m).tb = d.tb := by
  simp [setMeas]

/-! #### The mix tiles' work of the period that ends -/

@[simp] theorem gainPut_tb (d : Dev) (o : GainObj) (v : Int) : (gainPut d o v).tb = d.tb := by
  cases o <;> simp [gainPut]

@[simp] theorem stepTrajs_tb (d : Dev) : (stepTrajs d).tb = d.tb := by
  simp [stepTrajs, ite_dev]

@[simp] theorem filterSources_tb (d : Dev) (i : Image) : (filterSources d i).tb = d.tb := by
  simp [filterSources, filterSource]

@[simp] theorem dlyWrLane_tb (d : Dev) (c : Ch) : (dlyWrLane d c).tb = d.tb := by
  simp [dlyWrLane, ite_dev]

@[simp] theorem dlyRdLane_tb (d : Dev) (c : Ch) : (dlyRdLane d c).tb = d.tb := by
  simp [dlyRdLane, ite_dev]

@[simp] theorem limitLane_tb (d : Dev) (c : Ch) (x : Int) : (limitLane d c x).tb = d.tb := by
  simp [limitLane, ite_dev]

@[simp] theorem xferSend_tb (d : Dev) (img : Image) (t : LTile) (s : Stitch) (p : Nat) : (xferSend d img t s p).tb = d.tb := by
  simp [xferSend, ite_dev]

@[simp] theorem xferTake_tb (d : Dev) (img : Image) (t : LTile) (s : Stitch) : (xferTake d img t s).tb = d.tb := by
  unfold xferTake
  dsimp only
  split <;> simp

@[simp] theorem sharedMove_tb (d : Dev) (t : LTile) (s : Stitch) : (sharedMove d t s).tb = d.tb := by
  simp [sharedMove, ite_dev]

@[simp] theorem mixStitch_tb (img : Image) (m : Fin 4) (p : Nat) (d : Dev) (s : Stitch) : (mixStitch img m p d s).tb = d.tb := by
  simp [mixStitch, mixAwlLane, ite_dev]

@[simp] theorem mixTileRun_tb (img : Image) (d : Dev) (m : Fin 4) : (mixTileRun img d m).tb = d.tb := by
  simp [mixTileRun, mixLost, ite_dev]

@[simp] theorem mixPeriod_tb (d : Dev) : (mixPeriod d).tb = d.tb := by
  unfold mixPeriod
  dsimp only
  split <;> simp [advanceGens, feedOutputs]

/-! #### The engine tiles, the rails and the measurements at the boundary -/

@[simp] theorem shiftTiles_tb (d : Dev) : (shiftTiles d).tb = d.tb := by
  simp [shiftTiles]

@[simp] theorem railsFi_tb (d : Dev) : (railsFi d).tb = d.tb := by
  simp [railsFi]

@[simp] theorem muteFi_tb (d : Dev) : (muteFi d).tb = d.tb := by
  unfold muteFi
  split <;> simp

@[simp] theorem takeMean_tb (d : Dev) (means : List FiMean) (c : Ch) : (takeMean d means c).tb = d.tb := by
  simp [takeMean]

@[simp] theorem addPower_tb (d : Dev) (c : Ch) : (addPower d c).tb = d.tb := by
  simp [addPower]

@[simp] theorem outerNow_tb (d : Dev) (p : LTile × Stitch × Ch) : (outerNow d p).tb = d.tb := by
  simp [outerNow, ite_dev]

@[simp] theorem regionStat_tb (d : Dev) (t : LTile) (c : Ch) : (regionStat d t c).tb = d.tb := by
  unfold regionStat
  split <;> simp [ite_dev]

@[simp] theorem shadowsCurrent_tb (d : Dev) (plain : Bool) : (shadowsCurrent d plain).tb = d.tb := by
  simp [shadowsCurrent, rescaleTile, ite_dev]

@[simp] theorem startTone_tb (d : Dev) (c : Ch) (m : Meas) : (startTone d c m).tb = d.tb := by
  unfold startTone
  split <;> simp

@[simp] theorem measFi_tb (d : Dev) (c : Ch) : (measFi d c).tb = d.tb := by
  unfold measFi
  split <;> simp [ite_dev]

@[simp] theorem countFi_tb (d : Dev) : (countFi d).tb = d.tb := by
  simp [countFi]

/-- The work of a boundary moves STC on and starts a new period of carrier boundaries; it leaves the rest of the timebase. -/
theorem boundaryWork_tb (d : Dev) (means : List FiMean) (sapBits : List (List Nat)) :
    (boundaryWork d means sapBits).tb =
      { d.tb with stc := if d.tb.started then d.tb.stc + 1 else 0, started := true, m := 0 } := by
  simp [boundaryWork, tickStc, countUnavailable, ite_dev]

@[simp] theorem startsHere_tb (d : Dev) : (startsHere d).tb = d.tb := by
  exact foldl_tb _ _ _ fun _ _ => foldl_tb _ _ _ fun e x => by simp

/-! ### Commands that leave the timebase alone -/

theorem releaseGroupNow_tb (d e : Dev) (g : RGroup) (st : Nat) (h : releaseGroupNow d g = some (e, st)) : e.tb = d.tb := by
  unfold releaseGroupNow at h
  dsimp only at h
  split at h
  · cases h; rfl
  split at h
  · cases h
  split at h
  · cases h; rfl
  · cases h; simp

@[simp] theorem doRelease_tb (d : Dev) (r : CmdRef) (g : RGroup) : (doRelease d r g).tb = d.tb := by
  unfold doRelease
  split
  next => rfl
  next h => simp [releaseGroupNow_tb d _ g _ h]

@[simp] theorem retryRelease_tb (d : Dev) (w : CmdRef × Nat) : (retryRelease d w).tb = d.tb := by
  unfold retryRelease
  split <;> simp

@[simp] theorem doClearLatch_tb (d : Dev) (r : CmdRef) (c : Ch) : (doClearLatch d r c).tb = d.tb := by
  simp [doClearLatch, ite_dev]

@[simp] theorem putTable_tb (d : Dev) (c : Ch) (q : Nat) (ws : List W64) : (putTable d c q ws).tb = d.tb := by
  simp [putTable]

@[simp] theorem putConds_tb (d : Dev) (c : Ch) (ws : List W64) : (putConds d c ws).tb = d.tb := by
  unfold putConds loadConds
  split <;> simp

@[simp] theorem doTableWrite_tb (d : Dev) (r : CmdRef) (c : Ch) (cond : Bool) (q : Fin 8) (ws : List W64) :
    (doTableWrite d r c cond q ws).tb = d.tb := by
  simp [doTableWrite, ite_dev]

@[simp] theorem doTableRead_tb (d : Dev) (r : CmdRef) (c : Ch) (kind : Fin 3) (q : Fin 8) : (doTableRead d r c kind q).tb = d.tb := by
  simp [doTableRead, ite_dev]

@[simp] theorem endTraj_tb (d : Dev) (o : GainObj) : (endTraj d o).tb = d.tb := by
  simp [endTraj]

@[simp] theorem gainChange_tb (d : Dev) (o : GainObj) (v : Int) : (gainChange d o v).tb = d.tb := by
  simp [gainChange]

@[simp] theorem applySet_tb (d : Dev) (o : SetObj) : (applySet d o).tb = d.tb := by
  cases o <;> simp [applySet]

@[simp] theorem doTimedSet_tb (d : Dev) (r : CmdRef) (o : SetObj) : (doTimedSet d r o).tb = d.tb := by
  unfold doTimedSet
  (repeat' split) <;> simp

@[simp] theorem doTraj_tb (d : Dev) (r : CmdRef) (o : GainObj) (log : Bool) (g1 : Int) (steps : Nat) :
    (doTraj d r o log g1 steps).tb = d.tb := by
  simp [doTraj, ite_dev]

@[simp] theorem doInjectArm_tb (d : Dev) (r : CmdRef) (recs : List InjectRec) : (doInjectArm d r recs).tb = d.tb := by
  unfold doInjectArm
  dsimp only
  (repeat' split) <;> simp

@[simp] theorem doInjectStop_tb (d : Dev) (r : CmdRef) (gens : Byte) (taps units : BitVec 16) :
    (doInjectStop d r gens taps units).tb = d.tb := by
  simp [doInjectStop, ite_dev]

@[simp] theorem doMeasure_tb (d : Dev) (r : CmdRef) (c : Ch) (st : Nat) : (doMeasure d r c st).tb = d.tb := by
  unfold doMeasure
  dsimp only
  (repeat' split) <;> simp

@[simp] theorem doTelemetry_tb (d : Dev) (r : CmdRef) (o n : Nat) : (doTelemetry d r o n).tb = d.tb := by
  simp [doTelemetry, ite_dev]

@[simp] theorem doGetLog_tb (d : Dev) (r : CmdRef) (page : Byte) (o : Nat) : (doGetLog d r page o).tb = d.tb := by
  unfold doGetLog
  split <;> simp [ite_dev]

@[simp] theorem doIdentify_tb (d : Dev) (r : CmdRef) (bs : List Byte) : (doIdentify d r bs).tb = d.tb := by
  simp [doIdentify]

/-! #### Admin commands that start as another ends -/

@[simp] theorem addFlight_tb (d : Dev) (f : Flight) : (addFlight d f).tb = d.tb := by
  simp [addFlight, ite_dev]

@[simp] theorem tempRefuse_tb (d : Dev) (r : CmdRef) (op : Nat) : (tempRefuse d r op).tb = d.tb := by
  simp [tempRefuse]

@[simp] theorem nvCommand_tb (d : Dev) (r : CmdRef) (op : Nat) (j : NvJob) : (nvCommand d r op j).tb = d.tb := by
  simp [nvCommand, ite_dev]

@[simp] theorem mismatchAt_tb (d : Dev) (r : CmdRef) (op : Nat) (i : FailInfo) : (mismatchAt d r op i).tb = d.tb := by
  simp [mismatchAt]

@[simp] theorem doActivate_tb (d : Dev) (r : CmdRef) (cmd : Instr) (slot : Fin 4) (w : When) (late mark : Bool) :
    (doActivate d r cmd slot w late mark).tb = d.tb := by
  unfold doActivate
  dsimp only
  (repeat' split) <;> simp

@[simp] theorem doGetFeature_tb (d : Dev) (r : CmdRef) (fid : Nat) : (doGetFeature d r fid).tb = d.tb := by
  unfold doGetFeature
  split <;> simp [ite_dev]

@[simp] theorem doCreate_tb (d : Dev) (r : CmdRef) (c : QueueCfg) : (doCreate d r c).tb = d.tb := by
  simp [doCreate, ite_dev]

@[simp] theorem resetFlight_tb (a : Dev × Nat × Nat) (f : Flight) : (resetFlight a f).1.tb = a.1.tb := by
  unfold resetFlight streamUnstart
  dsimp only
  (repeat' split) <;> simp

theorem resetFlights_tb (l : List Flight) (a : Dev × Nat × Nat) : (l.foldl resetFlight a).1.tb = a.1.tb := by
  induction l generalizing a with
  | nil => rfl
  | cons f fs ih => rw [List.foldl_cons, ih, resetFlight_tb]

@[simp] theorem waiterFinish_tb (d : Dev) (w : Waiter) : (waiterFinish d w).tb = d.tb := by
  unfold waiterFinish
  dsimp only
  split <;> simp

@[simp] theorem waiterPut_tb (d : Dev) (w : Waiter) : (waiterPut d w).tb = d.tb := by
  simp [waiterPut, ite_dev]

@[simp] theorem doReset_tb (d : Dev) (r : CmdRef) (qid : QId) (del : Bool) : (doReset d r qid del).tb = d.tb := by
  unfold doReset
  dsimp only
  (repeat' split) <;> simp [resetFlights_tb]

@[simp] theorem doFlush_tb (d : Dev) (r : CmdRef) (scope : Nat) : (doFlush d r scope).tb = d.tb := by
  simp [doFlush, ite_dev]

@[simp] theorem doDownload_tb (d : Dev) (r : CmdRef) (o : Nat) (chunk : List Byte) : (doDownload d r o chunk).tb = d.tb := by
  unfold doDownload
  split <;> simp

@[simp] theorem doCommit_tb (d : Dev) (r : CmdRef) (slot : Fin 2) (boot : Bool) : (doCommit d r slot boot).tb = d.tb := by
  simp [doCommit, ite_dev]

@[simp] theorem doMarkBoot_tb (d : Dev) (r : CmdRef) (slot : Fin 2) : (doMarkBoot d r slot).tb = d.tb := by
  simp [doMarkBoot, ite_dev]

@[simp] theorem doImageLoad_tb (d : Dev) (r : CmdRef) (slot : Fin 4) (fin : Bool) (o : Nat) (chunk : List Byte) :
    (doImageLoad d r slot fin o chunk).tb = d.tb := by
  unfold doImageLoad
  dsimp only
  (repeat' split) <;> simp

@[simp] theorem doMark_tb (d : Dev) (r : CmdRef) (cmd : Instr) (slot : Fin 4) (set : Bool) : (doMark d r cmd slot set).tb = d.tb := by
  simp [doMark, ite_dev]

@[simp] theorem startAdmin_tb (d : Dev) (f : Flight) : (startAdmin d f).tb = d.tb := by
  unfold startAdmin
  split <;> simp

@[simp] theorem adminRun_tb (n : Nat) (d : Dev) : (adminRun n d).tb = d.tb := by
  induction n generalizing d with
  | zero => rfl
  | succ n ih =>
    unfold adminRun
    split
    · rfl
    split
    · rw [ih, startAdmin_tb]
    · rfl

/-! ### The clock of the timebase -/

/-- What R41 and R58 count, and whether they count: STC, whether it has begun, the carrier boundaries of the period, and whether the timebase
runs. A command that takes effect at a boundary may write the rest of the timebase (SET_FEATURE 0x06 its reference entries), never these. -/
def Timebase.clock (t : Timebase) : Nat × Bool × Nat × Bool := (t.stc, t.started, t.m, t.running)

@[simp] theorem setQual_clock (t : Timebase) (e : Nat) (v : Bool) : (setQual t e v).clock = t.clock := rfl

@[simp] theorem setRefCfg_clock (t : Timebase) (v : Nat) : (setRefCfg t v).clock = t.clock := by
  simp only [setRefCfg, List.foldl_cons, List.foldl_nil, apply_ite Timebase.clock, setQual_clock, ite_self]
  rfl

theorem putFeature_clock (d : Dev) (fid v : Nat) (b : List Byte) : (putFeature d fid v b).tb.clock = d.tb.clock := by
  unfold putFeature setBudget
  split <;> simp

@[simp] theorem doSetFeature_clock (d : Dev) (r : CmdRef) (fid v : Nat) (b : List Byte) :
    (doSetFeature d r fid v b).tb.clock = d.tb.clock := by
  unfold doSetFeature
  split <;> simp [putFeature_clock]

@[simp] theorem runCmd_clock (d : Dev) (c : Instr) : (runCmd d c).tb.clock = d.tb.clock := by
  unfold runCmd
  split <;> simp

@[simp] theorem runFlight_clock (d : Dev) (f : Flight) : (runFlight d f).tb.clock = d.tb.clock := by
  unfold runFlight startWrite adminNext
  dsimp only
  (repeat' split) <;> simp

theorem runDueN_clock (n : Nat) (d : Dev) : (runDueN n d).tb.clock = d.tb.clock := by
  induction n generalizing d with
  | zero => rfl
  | succ n ih =>
    unfold runDueN
    split
    · rfl
    split
    · rfl
    · rw [ih, runFlight_clock]

@[simp] theorem looseReleases_tb (d : Dev) : (looseReleases d).tb = d.tb := by
  simp [looseReleases]

/-- The commands of a boundary leave its clock alone, whatever they are. -/
@[simp] theorem runCmds_clock (d : Dev) : (runCmds d).tb.clock = d.tb.clock := by
  unfold runCmds
  split
  · rw [runDue, runDueN_clock, looseReleases_tb]; rfl
  · rfl

@[simp] theorem settle_clock (d : Dev) : (settle d).tb.clock = d.tb.clock := by
  unfold settle
  split
  · exact runCmds_clock d
  · rfl

/-- A boundary that comes (R41, R58) moves STC on from 0, starts the count of carrier boundaries again, and leaves a running timebase running. -/
theorem fiDev_clock (d : Dev) (means : List FiMean) (sapBits : List (List Nat)) (up : d.guard.audioReset = false)
    (runs : d.tb.running = true) (mayStart : d.tb.started = true ∨ d.tb.state ≠ .holdover)
    (full : d.tb.started = true → d.tb.n ≤ d.tb.m) :
    (fiDev d means sapBits).tb.clock = (if d.tb.started then d.tb.stc + 1 else 0, true, 0, true) := by
  have comes : ¬(d.guard.audioReset || !d.tb.running || (!d.tb.started && decide (d.tb.state = .holdover)) ||
      (d.tb.started && decide (d.tb.m < d.tb.n))) = true := by
    cases h : d.tb.started <;> simp_all
  rw [fiDev, if_neg comes, settle_clock, startsHere_tb]
  simp [boundaryWork_tb, Timebase.clock, runs]

/-- Settles O10: the boundary's own work counts on, and the commands that take effect there leave the clock alone (`fiDev_clock`). -/
theorem fiBoundaryAdvancesStc : Obligations.FiBoundaryAdvancesStc := by
  intro q d means sapBits up runs mayStart full
  have h := fiDev_clock d means sapBits up runs mayStart full
  simp only [Timebase.clock, Prod.mk.injEq] at h
  obtain ⟨hstc, hstarted, hm, hrunning⟩ := h
  exact ⟨fiDev d means sapBits, rfl, hstc, hstarted, hm, hrunning⟩

/-! ### Holdover and the snapshot -/

theorem exec_holdExpired (s : State) : exec .holdExpired s = execHoldExpired s := rfl

theorem exec_snapReq (s : State) : exec .snapReq s = execSnapReq s := rfl

theorem exec_snapCapture (s : State) : exec .snapCapture s = execSnapCapture s := rfl

/-- Settles O8: each of the three commands looks at one condition (HOLDOVER, audio reset, a waiting request) and takes the branch that acts. -/
theorem holdoverMarksAndSnapshot : Obligations.HoldoverMarksAndSnapshot := by
  intro q d
  refine ⟨fun held => ?_, fun up => ?_, fun pend => ?_⟩
  · rw [exec_holdExpired, execHoldExpired, onDev_next, if_pos held, evHoldExpired]
  · rw [exec_snapReq, execSnapReq, onDev_next, if_neg (by simp [up])]
  · rw [exec_snapCapture, execSnapCapture, onDev_next, snapCaptureDev, if_pos pend]

end Sys2Proof.Machine
end

section
/-!
PROOFS. The host queues (chapter 13): which opcodes each queue serves, and the admin commands away from Q0 (R393).
-/

namespace Sys2Proof.Machine

/-! ### The opcodes a queue serves -/

theorem opKnown_iff (k op : Nat) : opKnown k op = true ↔ (0x20 ≤ op ∧ op ≤ 0x29) ∨ (k = 0 ∧ 1 ≤ op ∧ op ≤ 0x0E) := by
  simp [opKnown]

/-! ### Admin commands away from Q0 -/

theorem onQ0_elsewhere (d : Dev) {r : CmdRef} (op : Nat) (f : Dev) (h : r.q.val ≠ 0) : onQ0 d r op f = refuse d r op stOpcode :=
  if_neg h

/-- A command served on Q0 alone is refused on another queue, whatever its work `f` would be. -/
theorem onDev_onQ0_elsewhere (q : List Instr) (d : Dev) {r : CmdRef} (op : Nat) (f : Dev → Dev) (h : r.q.val ≠ 0) :
    onDev (fun e => onQ0 e r op (f e)) ⟨q, d⟩ = .next ⟨q, refuse d r op stOpcode⟩ := by
  rw [onDev_next, onQ0_elsewhere d op (f d) h]

/-- The same of one that also needs the host's queues open: its queue is looked at first, so it is never NOT_READY there. -/
theorem onDev_adminOpen_elsewhere (q : List Instr) (d : Dev) {r : CmdRef} (op : Nat) (f : Dev → Dev) (h : r.q.val ≠ 0) :
    onDev (fun e => adminOpen e r op (f e)) ⟨q, d⟩ = .next ⟨q, refuse d r op stOpcode⟩ :=
  onDev_onQ0_elsewhere q d op (fun e => if hostClosed e then refuse e r op stNotReady else f e) h

/-- Settles O32: the opcode ranges are those of `opKnown`; each admin command passes its work through the test for Q0, by itself (`onQ0`) or before
the test for an open host (`adminOpen`), so that away from Q0 it is refused whatever its work is. -/
theorem adminCommandsNeedQueue0 : Obligations.AdminCommandsNeedQueue0 := by
  refine ⟨fun op => ?_, fun k op hk => ?_, fun q d r b w bs n cfg id k f g t fl h => ?_⟩
  · rw [opKnown_iff]; omega
  · rw [opKnown_iff]; omega
  have q0 (op : Nat) (work : Dev → Dev) := onDev_onQ0_elsewhere q d op work h
  have open_ (op : Nat) (work : Dev → Dev) := onDev_adminOpen_elsewhere q d op work h
  simp only [exec]
  exact ⟨q0 opIdentify _, q0 opIdentify _, q0 opGetLog _,
    open_ opGetFeature _, open_ opSetFeature _,
    open_ opCreateQueue _, open_ opDeleteQueue _, open_ opAbort _, open_ opFlush _,
    open_ opFwDownload _, open_ opFwCommit _, open_ opFwCommit _, open_ opFwCommit _, open_ opFwActivate _,
    open_ opImageLoad _, q0 opImageActivate _, q0 opImageActivate _, open_ opImageActivate _, open_ opImageActivate _,
    open_ opQueueReset _⟩

end Sys2Proof.Machine
end

section
/-!
PROOFS. What a command does to the part: each answers a next state and leaves the queue alone.
-/

namespace Sys2Proof.Machine

/-- A choice by equivalent conditions. -/
theorem ite_of_iff {α : Type} {p q : Prop} [Decidable p] [Decidable q] (h : p ↔ q) (a b : α) : (if p then a else b) = if q then a else b :=
  ite_congr (propext h) (fun _ => rfl) fun _ => rfl

/-- Settles O1: a step is `exec` on the rest of the queue, or idles, by its definition. -/
theorem stepServesFront : Obligations.StepServesFront :=
  ⟨fun c s => step_front c s.pending s.dev, step_idle⟩

/-- Settles O2: each command of the table is an operation on the part alone (`onDev`), whatever the part. -/
theorem everyCommandAnswers : Obligations.EveryCommandAnswers := by
  intro c q d
  cases c
  all_goals exact ⟨_, rfl⟩

end Sys2Proof.Machine
end

section
/-!
PROOFS. The requantizer (R109) and the edges of a period (R111, R112).
-/

namespace Sys2Proof.Machine

/-! ### The requantizer -/

/-- Settles O13: past either limit the errors are 0; between them the new error is what the floor to whole fine steps leaves. -/
theorem requantizerShapesError : Obligations.RequantizerShapesError := by
  intro w p e1 e2 up hw hlo hhi x r
  have hx : x = gridDiv ((w : Int) * (16 * p) * 2 ^ 11) (2 ^ 23) up := by simp only [x]; rfl
  have hr : r = requantize w p e1 e2 up := rfl
  simp only [requantize, ← hx, Int.fdiv_eq_ediv_of_nonneg _ (show (0 : Int) ≤ 2 ^ 11 by decide)] at hr
  split at hr
  · rw [hr]; exact ⟨by omega, .inl ⟨rfl, rfl⟩⟩
  split at hr
  · rw [hr]; exact ⟨by omega, .inl ⟨rfl, rfl⟩⟩
  · rw [hr]; dsimp only; exact ⟨by omega, .inr (by omega)⟩

/-! ### The edges of a period -/

/-- The gates after an edge. -/
def edgeGates (g : Bool × Bool) (e : Edge) : Bool × Bool := if e.high then (e.on, g.2) else (g.1, e.on)

/-- Edges performed in their order never leave both switches on. -/
def neverBoth : Bool × Bool → List Edge → Prop
  | g, [] => ¬(g.1 = true ∧ g.2 = true)
  | g, e :: l => ¬(g.1 = true ∧ g.2 = true) ∧ neverBoth (edgeGates g e) l

theorem neverBoth_head {g : Bool × Bool} {l : List Edge} (h : neverBoth g l) : ¬(g.1 = true ∧ g.2 = true) := by
  cases l with
  | nil => exact h
  | cons e l => exact h.1

theorem neverBoth_take {g : Bool × Bool} {l : List Edge} (h : neverBoth g l) (k : Nat) :
    ¬(((l.take k).foldl edgeGates g).1 = true ∧ ((l.take k).foldl edgeGates g).2 = true) := by
  induction l generalizing g k with
  | nil => simpa using neverBoth_head h
  | cons e l ih =>
    cases k with
    | zero => exact h.1
    | succ k => exact ih h.2 k

/-- Leaving out the edges that change nothing leaves the rest as safe as before. -/
theorem neverBoth_realEdges {hs ls : Bool} {l : List Edge} (h : neverBoth (hs, ls) l) : neverBoth (hs, ls) (realEdges hs ls l) := by
  induction l generalizing hs ls with
  | nil => exact h
  | cons e l ih =>
    obtain ⟨now, rest⟩ := h
    obtain ⟨pos, high, on⟩ := e
    simp only [realEdges]
    cases high
    · by_cases same : ls = on
      · subst same; rw [if_pos (by simp)]; exact ih rest
      · rw [if_neg (by simpa using same)]; exact ⟨now, ih rest⟩
    · by_cases same : hs = on
      · subst same; rw [if_pos (by simp)]; exact ih rest
      · rw [if_neg (by simpa using same)]; exact ⟨now, ih rest⟩

/-- The edges of R111 turn one switch off before the other comes on. -/
theorem neverBoth_planPeriod (y dt on t : Nat) (hs ls : Bool) (h : ¬(hs = true ∧ ls = true)) :
    neverBoth (hs, ls) (planPeriod y dt on t hs) := by
  unfold planPeriod
  (repeat' split) <;> cases hs <;> cases ls <;> simp_all [neverBoth, edgeGates]

theorem neverBoth_planFrom (y dt on t : Nat) (hs ls : Bool) (h : ¬(hs = true ∧ ls = true)) :
    neverBoth (hs, ls) (planFrom y dt on t hs ls) := by
  unfold planFrom
  split
  · exact h
  · exact neverBoth_realEdges (neverBoth_planPeriod y dt on t hs ls h)

/-- Of edges in the order of their positions, those up to a moment are the first few. -/
theorem edgesSound_upTo (l : List Edge) (hs ls : Bool) (h : edgesSound hs ls l = true) (now : Nat) :
    ∃ k, l.filter (fun e => decide (e.pos ≤ now)) = l.take k := by
  induction l generalizing hs ls with
  | nil => exact ⟨0, rfl⟩
  | cons e l ih =>
    simp only [edgesSound, Bool.and_eq_true, List.all_eq_true, decide_eq_true_eq] at h
    obtain ⟨⟨-, later⟩, rest⟩ := h
    by_cases he : e.pos ≤ now
    · obtain ⟨k, hk⟩ := ih _ _ rest
      exact ⟨k + 1, by rw [List.filter_cons_of_pos (by simpa using he), hk, List.take_succ_cons]⟩
    · refine ⟨0, List.filter_eq_nil_iff.mpr fun x hx => ?_⟩
      rcases List.mem_cons.mp hx with rfl | hx
      · simpa using he
      · have := later x hx; simp; omega

/-- Settles O14: the edges a period programs are safe in their order, and as those before any moment are the first few of them, at any moment. -/
theorem planNeverBothOn : Obligations.PlanNeverBothOn := by
  intro y dt on t hs ls h
  have safe := neverBoth_planFrom y dt on t hs ls h
  refine ⟨fun k => neverBoth_take safe k, fun hon now => ?_⟩
  have sound := planFrom_sound y dt on t hs ls hon (by cases hs <;> cases ls <;> simp_all)
  obtain ⟨k, hk⟩ := edgesSound_upTo _ hs ls sound now
  dsimp only
  rw [hk]
  exact neverBoth_take safe k

end Sys2Proof.Machine
end

section
/-!
PROOFS. The reset state (chapter 18's reset columns), and the safety of every step (R111, R112, R161, R176, R181, R501).
-/

namespace Sys2Proof.Machine

/-! ### Reset -/

theorem reset_chs (c : Ch) : State.reset.dev.chs[c] = Chan.reset := by simp [State.reset, Dev.reset]

/-- Settles O3: the values stand in the reset records, a channel's in `Chan.reset`. -/
theorem resetValues : Obligations.ResetValues := by
  refine ⟨rfl, rfl, rfl, rfl, rfl, rfl, fun c => ?_, rfl, rfl, rfl, rfl, rfl, rfl, rfl, rfl, rfl, rfl, rfl, rfl, rfl, rfl, rfl, rfl, rfl, rfl, rfl,
    rfl, rfl, rfl, rfl, fun g => ?_, fun g => ?_⟩
  · rw [reset_chs]
    exact ⟨rfl, rfl, rfl, rfl, rfl, rfl, rfl, rfl, rfl, rfl, rfl, rfl, rfl, rfl, rfl, rfl, rfl, rfl, rfl, rfl, rfl⟩
  · simp [State.reset, Dev.reset]
  · simp [State.reset, Dev.reset, Mix.reset]

/-- Settles O4. -/
theorem resetIsSafe : Obligations.ResetIsSafe := reset_safe

/-! ### Every command keeps a safe part safe -/

/-- A command of Q0 keeps a safe part safe where its work does: its refusal touches no channel. -/
theorem onQ0_sound (d : Dev) (r : CmdRef) (op : Nat) (f : Dev) (h : Sound d.chs) (hf : Sound f.chs) : Sound (onQ0 d r op f).chs :=
  onQ0_holds Safe d r op f (by rw [Safe, refuse_chs]; exact h) hf

theorem adminOpen_sound (d : Dev) (r : CmdRef) (op : Nat) (f : Dev) (h : Sound d.chs) (hf : Sound f.chs) : Sound (adminOpen d r op f).chs :=
  adminOpen_holds Safe d r op f (fun st => by rw [Safe, refuse_chs]; exact h) hf

/-- Every command keeps a safe part safe: most leave the channels alone or are operations of the layer below; what is left changes a channel in
fields that its soundness does not read. -/
theorem exec_keeps_safe (c : Instr) (q : List Instr) (d : Dev) (t : State) (h : Sound d.chs) (e : exec c ⟨q, d⟩ = .next t) : Sound t.dev.chs := by
  cases c
  all_goals
    injection e with e
    subst e
    dsimp only
  case carrierBoundary => exact carrierDev_sound _ _ _ (sound_if _ _ _ (fun _ => runCmds_sound d h) fun _ => h)
  case cntClr =>
    exact sound_if _ _ _ (fun _ => chAll_sound _ _ h fun c x hx => sound_same x _ hx rfl rfl rfl rfl rfl rfl) fun _ => h
  case rampComplete =>
    split
    · split <;> exact h
    · exact h
  case dcThresholdCross | dcTimerRestart => exact ch_sound _ _ _ h fun x hx => sound_same x _ hx rfl rfl rfl rfl rfl rfl
  case smbWrite => exact sound_if _ _ _ (fun _ => smbWriteDev_sound _ _ _ h) fun _ => h
  all_goals simp [h, ite_dev, onQ0_sound, adminOpen_sound]

/-- Settles O5: a step idles or serves one command (`exec_keeps_safe`). -/
theorem stepKeepsSafe : Obligations.StepKeepsSafe := by
  rintro ⟨_ | ⟨c, q⟩, d⟩ t safe e
  · injection e with e
    exact e ▸ safe
  · exact exec_keeps_safe c q d t safe e

end Sys2Proof.Machine
end

section
/-!
PROOFS. Facts used by the proofs below: answers, equality of parts, and saturated counts.
-/

namespace Sys2Proof.Machine

/-- A command's answer is its operation's part. -/
theorem next_congr {q : List Instr} {d e : Dev} (h : d = e) :
    Host.Outcome.next (φ := Fault) (ρ := Refusal) (State.mk q d) = .next ⟨q, e⟩ := by rw [h]

/-- Two parts that agree in every field are one. -/
theorem dev_ext {u v : Dev} (chs : u.chs = v.chs) (power : u.power = v.power) (rails : u.rails = v.rails) (guard : u.guard = v.guard)
    (tb : u.tb = v.tb) (core : u.core = v.core) (groupRel : u.groupRel = v.groupRel) (groupRamp : u.groupRamp = v.groupRamp)
    (rampLen : u.rampLen = v.rampLen) (relWait : u.relWait = v.relWait) (stops : u.stops = v.stops) (halt : u.halt = v.halt)
    (haltMask : u.haltMask = v.haltMask) (evi : u.evi = v.evi) (awl : u.awl = v.awl) (mix : u.mix = v.mix) (ports : u.ports = v.ports)
    (qif : u.qif = v.qif) (admin : u.admin = v.admin) (shank : u.shank = v.shank) (cob : u.cob = v.cob) (growth : u.growth = v.growth)
    (free : u.free = v.free) : u = v := by
  cases u; cases v; simp_all

theorem satN_eq_min (m n : Nat) : satN m n = min m n := by
  unfold satN; split <;> omega

end Sys2Proof.Machine
end

section
/-!
PROOFS. The modulator's commands (chapter 4).
-/

namespace Sys2Proof.Machine

/-! ### Counter events -/

/-- `eviCount` as the register tables give it: the units that are enabled and select the event count it, up to DIV + 1. -/
theorem eviCount_eq (d : Dev) (e : Nat) (c : Ch) : eviCount d e c.val = { d with evi := Vector.ofFn fun k : Fin 16 =>
    let (ch, ev, vec, en, div, cnt) := d.evi[k]
    if en = true ∧ ev = e ∧ (5 ≤ e ∨ ch = c.val) then (ch, ev, vec, en, div, min (cnt + 1) (div + 1)) else d.evi[k] } := by
  unfold eviCount tab
  congr 2
  funext k
  rcases d.evi[k] with ⟨ch, ev, vec, en, div, cnt⟩
  dsimp only
  congr 1
  simp [and_assoc]

theorem eventsRun_iff (d : Dev) (c : Ch) : eventsRun d c = true ↔ d.chs[c].mod.counting = true ∧ d.chs[c].mod.halted = false := by
  simp [eventsRun]

/-- Whether a compare event of unit A or B occurs: its counter's events do and its compare value lies below the period (R123, R124). -/
def cmpOccurs (d : Dev) (c : Ch) (b : Bool) : Prop :=
  (d.chs[c].mod.counting = true ∧ d.chs[c].mod.halted = false) ∧
    (if b then d.chs[c].mod.cmpBNow else d.chs[c].mod.cmpANow) < d.chs[c].mod.period

theorem cmpDev_none (d : Dev) (c : Ch) (b : Bool) (ticks : Nat) (smp : Sample) (h : ¬cmpOccurs d c b) : cmpDev d c b ticks smp = d :=
  if_neg (by rw [Bool.and_eq_true, eventsRun_iff, decide_eq_true_iff]; exact h)

theorem cmpDev_counts (d : Dev) (c : Ch) (b : Bool) (ticks : Nat) (smp : Sample) (h : cmpOccurs d c b) :
    cmpDev d c b ticks smp = { eviCount d (if b then 4 else 3) c.val with awl := (cmpDev d c b ticks smp).awl } := by
  unfold cmpDev
  dsimp only
  rw [if_pos (by rw [Bool.and_eq_true, eventsRun_iff, decide_eq_true_iff]; exact h)]
  (repeat' split) <;> rfl

/-- Outside 16 to 240 Fk ticks, or without the auxiliary strobe, a compare event is counted and no more (R124). -/
theorem cmpDev_unsampled (d : Dev) (c : Ch) (b : Bool) (ticks : Nat) (smp : Sample) (h : cmpOccurs d c b)
    (haux : (if b then d.chs[c].mod.auxB else d.chs[c].mod.auxA) = false ∨ ticks < 16 ∨ 240 < ticks) :
    cmpDev d c b ticks smp = eviCount d (if b then 4 else 3) c.val := by
  unfold cmpDev
  dsimp only
  rw [if_pos (by rw [Bool.and_eq_true, eventsRun_iff, decide_eq_true_iff]; exact h), if_neg]
  rw [Bool.and_eq_true, decide_eq_true_iff]
  rintro ⟨haux', hlo, hhi⟩
  rcases haux with haux | haux
  · rw [haux] at haux'; cases haux'
  · omega

theorem eviSignalDev_eq (d : Dev) (k : Fin 16) {ch ev vec div cnt : Nat} {en : Bool} (hk : d.evi[k] = (ch, ev, vec, en, div, cnt)) :
    eviSignalDev d k = if en && decide (div < cnt) then signal { d with evi := d.evi.set k (ch, ev, vec, en, div, 0) } vec else d := by
  unfold eviSignalDev
  rw [hk]

/-- Settles O16: the events count through `eviCount`, a compare event by the branches of `cmpDev`. -/
theorem counterEvents : Obligations.CounterEvents := by
  intro q d c ticks smp k m runs counted
  have evi (e : Nat) : eviCount d e c.val = counted e := eviCount_eq d e c
  refine ⟨fun h => ?_, fun h => ?_, fun h hv haux => ?_, fun h hv haux => ?_, fun b h hv => ?_, fun b h => ?_,
    fun ch ev vec div cnt hk hd => ?_, fun ch ev vec div cnt en hk hd => ?_⟩
  · exact next_congr ((if_pos ((eventsRun_iff d c).2 h)).trans (evi 2))
  · exact next_congr (if_neg (mt (eventsRun_iff d c).1 h))
  · exact next_congr ((cmpDev_unsampled d c false ticks smp ⟨h, hv⟩ haux).trans (evi 3))
  · exact next_congr ((cmpDev_unsampled d c true ticks smp ⟨h, hv⟩ haux).trans (evi 4))
  · exact ⟨cmpDev d c b ticks smp, rfl, evi _ ▸ cmpDev_counts d c b ticks smp ⟨h, hv⟩⟩
  · refine next_congr (cmpDev_none d c b ticks smp ?_)
    rintro ⟨hr, hv⟩
    exact h.elim (fun h => h hr) (fun h => absurd hv (Nat.not_lt.2 h))
  · exact next_congr ((eviSignalDev_eq d k hk).trans (if_pos (by simpa using hd)))
  · refine next_congr ((eviSignalDev_eq d k hk).trans (if_neg ?_))
    rcases hd with hd | hd <;> simp [hd]

/-! ### Gate edges -/

theorem gateEdgeDev_edge (d : Dev) (c : Ch) {e : Edge} {rest : List Edge} (run : d.chs[c].mod.halted = false)
    (hp : d.chs[c].mod.plan = e :: rest) (inside : e.pos < 16 * d.chs[c].mod.period) :
    gateEdgeDev d c = d.ch c fun x => { x with mod := { applyEdge x.mod e with plan := rest } } := by
  unfold gateEdgeDev
  rw [if_neg (by rw [run]; decide)]
  refine ch_congr _ _ _ _ ?_
  dsimp only
  rw [hp]
  exact if_pos inside

theorem gateEdgeDev_none (d : Dev) (c : Ch)
    (h : d.chs[c].mod.halted = true ∨ d.chs[c].mod.plan = [] ∨ ∃ e ∈ d.chs[c].mod.plan.head?, 16 * d.chs[c].mod.period ≤ e.pos) :
    gateEdgeDev d c = d := by
  unfold gateEdgeDev
  split
  · rfl
  · rename_i run
    refine (ch_congr _ _ _ (fun x => x) ?_).trans (ch_id d c)
    dsimp only
    cases hp : d.chs[c].mod.plan with
    | nil => rfl
    | cons e rest =>
      refine if_neg fun inside => ?_
      simp only [hp, run, List.head?_cons, Option.mem_some_iff, exists_eq_left', reduceCtorEq, false_or] at h
      omega

/-! ### The debug halt -/

/-- The end of a halt lets every frozen counter go on from R104, and changes a channel's protection only where it starts its safe stop. -/
theorem unhalt_spec (stop : Bool) (x : Chan) :
    (unhalt stop x).mod = (if x.mod.halted then { x.mod with halted := false, phase := 0, plan := [] } else x.mod) ∧
    (unhalt stop x).cfg = x.cfg ∧ (unhalt stop x).prot.released = x.prot.released ∧
    (stop = true → x.prot.released = true → (unhalt stop x).prot.drive = .safeStop ∧ (unhalt stop x).prot.ssPend = false) ∧
    (stop = false ∨ x.prot.released = false → (unhalt stop x).prot = x.prot) := by
  obtain ⟨y, hy⟩ : ∃ y, y = if x.mod.halted then { x with mod := { x.mod with halted := false, phase := 0, plan := [] } } else x := ⟨_, rfl⟩
  have mod : y.mod = if x.mod.halted then { x.mod with halted := false, phase := 0, plan := [] } else x.mod := by rw [hy]; split <;> rfl
  have runs : y.mod.halted = false := by rw [mod]; split <;> simp_all
  have prot : y.prot = x.prot := by rw [hy]; split <;> rfl
  have cfg : y.cfg = x.cfg := by rw [hy]; split <;> rfl
  have un : unhalt stop x = if stop && y.prot.released then openStop (triggerChan y) else y := by rw [unhalt, ← hy]
  rw [un, ← mod, ← cfg, ← prot]
  cases stop
  · simp
  cases rel : y.prot.released
  · simp [rel]
  · by_cases hd : y.prot.drive = .safeStop
    · cases hp : y.prot.ssPend <;> simp [triggerChan, openStop, runs, rel, hd, hp]
    · simp [triggerChan, openStop, runs, rel, hd]

theorem haltDev_chs (d : Dev) (c : Ch) (permit : d.guard.dbgPermit = true) (up : d.guard.audioReset = false) :
    (haltDev d).chs[c] = if haltNamed d c then { d.chs[c] with mod := { d.chs[c].mod with halted := true } } else d.chs[c] := by
  simp only [haltDev, permit, up, Bool.not_false, Bool.and_self, if_true, tab_get]

/-- Settles O15. -/
theorem gateEdgesAndHalt : Obligations.GateEdgesAndHalt := by
  refine ⟨fun q d c => ⟨fun pos on rest run hp inside => ?_, fun pos on rest run hp inside => ?_, fun h => ?_⟩, fun q d jtag value =>
    ⟨fun permit up => ?_, fun h => ?_, fun h => ?_, fun h => ?_, fun clr up => ?_, fun h => ?_⟩⟩
  · exact next_congr (gateEdgeDev_edge d c run hp inside)
  · exact next_congr (gateEdgeDev_edge d c run hp inside)
  · exact next_congr (gateEdgeDev_none d c h)
  · refine ⟨haltDev d, rfl, ?_, fun c => haltDev_chs d c permit up⟩
    simp [haltDev, permit, up]
  · exact next_congr (if_neg (by rcases h with h | h <;> simp [h]))
  · have e : haltEndDev d = d.chAll fun c x => unhalt ((halves d c).any fun h => d.chs[h].mod.halted && d.chs[h].prot.released) x :=
      if_neg (by simp [h])
    refine ⟨haltEndDev d, rfl, by rw [e]; rfl, fun c => ?_⟩
    rw [e, chAll_get]
    obtain ⟨mod, cfg, rel, stops, stands⟩ := unhalt_spec ((halves d c).any fun h => d.chs[h].mod.halted && d.chs[h].prot.released) d.chs[c]
    refine ⟨mod, cfg, rel, fun hs => stops (by simpa using hs), fun hs => stands (hs.imp_left fun hs => ?_)⟩
    simpa using hs
  · exact next_congr (if_pos h)
  · refine ⟨_, next_congr (if_pos (by simp only [clr, up]; rfl)), rfl, fun c => chAll_get _ _ _⟩
  · exact next_congr (if_neg (by rcases h with h | h <;> simp only [h, Bool.not_true, Bool.and_false, Bool.false_and]; all_goals decide))

end Sys2Proof.Machine
end

section
/-!
PROOFS. Operations on the halves of a pair, one after the other.
-/

namespace Sys2Proof.Machine

theorem halves_nodup (d : Dev) (c : Ch) : (halves d c).Nodup := by
  unfold halves
  split
  · simp only [List.nodup_cons, List.mem_singleton, List.not_mem_nil, not_false_eq_true, List.nodup_nil, and_true, evenOf, oddOf, Fin.ext_iff]
    omega
  · exact List.nodup_cons.2 ⟨List.not_mem_nil, List.nodup_nil⟩

/-- Updates of single channels, one for each channel of a list, touch the channels of the list and nothing else. -/
theorem forCh_ch_get (f : Ch → Chan → Chan) (l : List Ch) (d : Dev) (nodup : l.Nodup) (k : Ch) :
    (forCh l (fun e h => e.ch h (f h)) d).chs[k] = if k ∈ l then f k d.chs[k] else d.chs[k] := by
  induction l generalizing d with
  | nil => rfl
  | cons a l ih =>
    obtain ⟨new, nodup⟩ := List.nodup_cons.1 nodup
    refine (ih (d.ch a (f a)) nodup).trans ?_
    rw [ch_get]
    by_cases hk : k = a
    · subst hk
      rw [if_neg new, if_pos rfl, if_pos List.mem_cons_self]
    · rw [if_neg hk]
      simp only [List.mem_cons, hk, false_or]

theorem forCh_ch_only (f : Ch → Chan → Chan) (l : List Ch) (d : Dev) :
    forCh l (fun e h => e.ch h (f h)) d = { d with chs := (forCh l (fun e h => e.ch h (f h)) d).chs } := by
  refine forCh_holds (fun e => e = { d with chs := e.chs }) _ (fun e a he => ?_) l d rfl
  rw [he]
  rfl

end Sys2Proof.Machine
end

section
/-!
PROOFS. Manual modulation and the handover of the loop's words (R119, R127 to R132).
-/

namespace Sys2Proof.Machine

theorem manPeriodClamp_eq (n : Nat) : manPeriodClamp n = max 128 (min 256 n) := by
  unfold manPeriodClamp
  (repeat' split) <;> omega

theorem handShadow_eq (m : Mod) (w : Q23) (near : Bool) : handShadow m w near = { m with
    shadow := w
    shadowNew := true
    nearPrev := if near then some (if m.shadowNew then some m.shadow else none) else none
    collisions := if near then min 0xFFFF (m.collisions + 1) else m.collisions } := by
  unfold handShadow
  cases near
  · rfl
  · rw [satN_eq_min]; rfl

theorem handPeriod_eq (m : Mod) (p : Nat) (near : Bool) : handPeriod m p near = { m with
    manShadowP := p
    manNewP := true
    nearPrevP := if near then some (if m.manNewP then some m.manShadowP else none) else none
    collisions := if near then min 0xFFFF (m.collisions + 1) else m.collisions } := by
  unfold handPeriod
  cases near
  · rfl
  · rw [satN_eq_min]; rfl

/-- A write of `PWM_MAN_CTRL` whose ENABLE is accepted waits on every half of the pair. -/
theorem manEnableDev_accepted (d : Dev) (c : Ch) (value : W32) (up : d.guard.audioReset = false)
    (whole : ¬(bridgedB d c = true ∧ c.val % 2 = 1)) (changes : value.getLsbD 0 ≠ d.chs[c].mod.manEnable)
    (allowed : value.getLsbD 0 = true → d.chs[c].cfg.manPermit = true ∧ (d.chs[c].prot.released = true ∨ manualAllowed d c = true)) :
    manEnableDev d c value = forCh (halves d c) (fun e h => e.ch h fun x => { x with mod := { x.mod with manPend := some (value.getLsbD 0) } })
      (d.ch c fun x => { x with mod := { x.mod with manFF := value.getLsbD 1, manEnable := value.getLsbD 0 } }) := by
  unfold manEnableDev
  dsimp only
  rw [if_neg (by rw [up]; decide), if_neg (by rw [Bool.and_eq_true, decide_eq_true_iff]; exact whole), if_neg changes, if_neg, ch_ch]
  rw [Bool.and_eq_true, Bool.not_eq_true', Bool.and_eq_false_iff, Bool.or_eq_false_iff]
  rintro ⟨en, h⟩
  obtain ⟨permit, may⟩ := allowed en
  rcases h with h | ⟨h1, h2⟩
  · rw [permit] at h; cases h
  · rcases may with may | may
    · rw [may] at h1; cases h1
    · rw [may] at h2; cases h2

/-- One whose ENABLE stays, or is not accepted, writes the feed-forward bit alone. -/
theorem manEnableDev_rejected (d : Dev) (c : Ch) (value : W32) (up : d.guard.audioReset = false)
    (whole : ¬(bridgedB d c = true ∧ c.val % 2 = 1))
    (no : ¬(value.getLsbD 0 ≠ d.chs[c].mod.manEnable ∧
      (value.getLsbD 0 = true → d.chs[c].cfg.manPermit = true ∧ (d.chs[c].prot.released = true ∨ manualAllowed d c = true)))) :
    manEnableDev d c value = d.ch c fun x => { x with mod := { x.mod with manFF := value.getLsbD 1 } } := by
  unfold manEnableDev
  dsimp only
  rw [if_neg (by rw [up]; decide), if_neg (by rw [Bool.and_eq_true, decide_eq_true_iff]; exact whole)]
  by_cases same : value.getLsbD 0 = d.chs[c].mod.manEnable
  · exact if_pos same
  · rw [if_neg same, if_pos]
    rw [Bool.and_eq_true, Bool.not_eq_true', Bool.eq_false_iff, Ne, Bool.and_eq_true, Bool.or_eq_true]
    exact ⟨Classical.not_imp.1 (fun h => no ⟨same, h⟩) |>.1, Classical.not_imp.1 (fun h => no ⟨same, h⟩) |>.2⟩

/-- A write of a manual word that takes part in the handshake, and one that only writes its register. -/
theorem manWordDev_spec (d : Dev) (c : Ch) (value : W32) (near : Bool) (up : d.guard.audioReset = false) :
    let hands := ¬(bridgedB d c = true ∧ c.val % 2 = 1) ∧ d.chs[c].mod.manual = true ∧ d.chs[c].mod.halted = false ∧
      d.chs[c].prot.drive = .manual
    let p := manPeriodClamp (value.toNat % 512)
    (hands → manWordDev d c false value near = d.ch c fun x =>
      { x with mod := handShadow { x.mod with manDuty := value.setWidth 24 } (value.setWidth 24) near }) ∧
    (hands → manWordDev d c true value near = d.ch c fun x => { x with mod := handPeriod { x.mod with manPeriod := p } p near }) ∧
    (¬hands → manWordDev d c false value near = d.ch c fun x => { x with mod := { x.mod with manDuty := value.setWidth 24 } }) ∧
    (¬hands → manWordDev d c true value near = d.ch c fun x => { x with mod := { x.mod with manPeriod := p } }) := by
  have cond (m : Mod) (hm : m.manual = d.chs[c].mod.manual) (hh : m.halted = d.chs[c].mod.halted) :
      (!(bridgedB d c && decide (c.val % 2 = 1)) && m.manual && !m.halted && decide (d.chs[c].prot.drive = .manual)) = true ↔
      ¬(bridgedB d c = true ∧ c.val % 2 = 1) ∧ d.chs[c].mod.manual = true ∧ d.chs[c].mod.halted = false ∧ d.chs[c].prot.drive = .manual := by
    rw [hm, hh]
    simp only [Bool.and_eq_true, Bool.not_eq_true', ← Bool.not_eq_true, decide_eq_true_iff, and_assoc]
  intro hands p
  simp only [manWordDev, up, Bool.false_eq_true, if_false]
  exact ⟨fun h => ch_congr _ _ _ _ (if_pos ((cond _ rfl rfl).2 h)), fun h => ch_congr _ _ _ _ (if_pos ((cond _ rfl rfl).2 h)),
    fun h => ch_congr _ _ _ _ (if_neg (mt (cond _ rfl rfl).1 h)), fun h => ch_congr _ _ _ _ (if_neg (mt (cond _ rfl rfl).1 h))⟩

theorem handoverDev_empty (d : Dev) (c : Ch) (near : Bool) (h : d.chs[c].mod.handoff = []) : handoverDev d c near = d := by
  refine (ch_congr _ _ _ (fun x => x) ?_).trans (ch_id d c)
  rw [h]

theorem handoverDev_word (d : Dev) (c : Ch) (near : Bool) {w : Q23} {rest : List Q23} (h : d.chs[c].mod.handoff = w :: rest) :
    handoverDev d c near = d.ch c fun x =>
      if x.mod.halted || x.mod.manual || decide (x.prot.drive = .safeStop) then { x with mod := { x.mod with handoff := rest } }
      else { x with mod := handShadow { x.mod with handoff := rest } w near } := by
  refine ch_congr _ _ _ _ ?_
  rw [h]

/-- Settles O17. -/
theorem manualWordsAndHandover : Obligations.ManualWordsAndHandover := by
  refine ⟨fun q d c value near => ?_, fun q d c near => ⟨fun w rest hw => ⟨fun run auto go => ?_, fun h => ?_⟩, fun h => ?_⟩⟩
  · intro x odd en accepted hands p hit
    refine ⟨fun down => ⟨next_congr (if_pos down), fun per => next_congr (if_pos down)⟩, fun up h => ?_, fun up h ha => ?_,
      fun up h ha => next_congr (manEnableDev_rejected d c value up h ha), fun up h => ?_, fun up h => ?_, fun up h => ?_, fun up h => ?_⟩
    · refine next_congr ((if_neg (by rw [up]; decide)).trans (if_pos ?_))
      rw [Bool.and_eq_true, decide_eq_true_iff]
      exact h
    · refine ⟨_, next_congr (manEnableDev_accepted d c value up h ha.1 ha.2), ?_, ?_, fun k hk hc => ?_, fun k hk => ?_⟩
      · rw [forCh_ch_only]; rfl
      · rw [forCh_ch_get _ _ _ (halves_nodup d c), if_pos (halves_self d c), ch_same]
      · rw [forCh_ch_get _ _ _ (halves_nodup d c), if_pos hk, ch_other _ _ _ _ hc]
      · rw [forCh_ch_get _ _ _ (halves_nodup d c), if_neg hk, ch_other _ _ _ _ (by rintro rfl; exact hk (halves_self d k))]
    all_goals
      obtain ⟨word, period, wordOnly, periodOnly⟩ := manWordDev_spec d c value near up
      have clamp := manPeriodClamp_eq (value.toNat % 512)
    · exact next_congr ((word h).trans (ch_congr _ _ _ _ (by rw [handShadow_eq])))
    · exact next_congr (wordOnly h)
    · exact next_congr ((period h).trans (ch_congr _ _ _ _ (by rw [handPeriod_eq, clamp])))
    · exact next_congr ((periodOnly h).trans (ch_congr _ _ _ _ (by rw [clamp])))
  · refine next_congr ((handoverDev_word d c near hw).trans (ch_congr _ _ _ _ ?_))
    rw [if_neg (by simp only [run, auto, go]; decide), handShadow_eq]
  · refine next_congr ((handoverDev_word d c near hw).trans (ch_congr _ _ _ _ (if_pos ?_)))
    rw [Bool.or_eq_true, Bool.or_eq_true, decide_eq_true_iff, or_assoc]
    exact h
  · exact next_congr (handoverDev_empty d c near h)

end Sys2Proof.Machine
end

section
/-!
PROOFS. Take-ups at count 0 and count 128 (R106, R109, R117, R121, R175).
-/

namespace Sys2Proof.Machine

/-! ### The modulator but for its gates -/

/-- The modulator without its gates and what moves them: what a performed edge leaves of it. -/
def Mod.sansGates (m : Mod) : Mod := { m with hs := false, ls := false, held := none, edgeAt := 0, plan := [] }

@[simp] theorem applyEdge_sansGates (m : Mod) (e : Edge) : (applyEdge m e).sansGates = m.sansGates := by
  unfold applyEdge
  dsimp only
  split <;> rfl

@[simp] theorem foldEdges_sansGates (l : List Edge) (m : Mod) : (l.foldl applyEdge m).sansGates = m.sansGates := by
  induction l generalizing m with
  | nil => rfl
  | cons e l ih => rw [List.foldl_cons, ih, applyEdge_sansGates]

@[simp] theorem finishPlan_sansGates (m : Mod) : (finishPlan m).sansGates = m.sansGates :=
  foldEdges_sansGates (m.plan.filter fun e => decide (e.pos < 16 * m.period)) m

@[simp] theorem atMid_sansGates (m : Mod) : (atMid m).sansGates = m.sansGates := by
  suffices ∀ (l : List Edge) (n : Mod), (l.foldl (fun n e => if e.pos < 2048 then applyEdge n e else n) n).sansGates = n.sansGates from
    this m.plan m
  intro l
  induction l with
  | nil => exact fun n => rfl
  | cons e l ih =>
    intro n
    rw [List.foldl_cons, ih]
    split
    · exact applyEdge_sansGates n e
    · rfl

@[simp] theorem midUpdate_sansGates (m : Mod) (y dt : Nat) : (midUpdate m y dt).sansGates = m.sansGates := by
  unfold midUpdate
  dsimp only
  split
  · refine Eq.trans ?_ (atMid_sansGates m)
    split <;> rfl
  · exact atMid_sansGates m

/-- The take-up's part of a modulator, which its gates say nothing of. -/
theorem fields_of_sansGates {m n : Mod} (h : m.sansGates = n.sansGates) :
    m.duty = n.duty ∧ m.period = n.period ∧ m.flags = n.flags ∧ (m.edge, m.e1, m.e2) = (n.edge, n.e1, n.e2) ∧
      m.pending = n.pending ∧ m.pendRails = n.pendRails ∧ m.shadow = n.shadow ∧ m.collisions = n.collisions :=
  have get {α : Type} (f : Mod → α) : f m.sansGates = f n.sansGates := congrArg f h
  ⟨get (·.duty), get (·.period), get (·.flags), get fun m => (m.edge, m.e1, m.e2), get (·.pending), get (·.pendRails),
    get (·.shadow), get (·.collisions)⟩

/-! ### Count 0 -/

/-- What a count 0 sets whatever follows: the period counted, the compare values in force, the waiting spares and what no period changes. -/
def Chan.marks (x : Chan) : Nat × Nat × Nat × List Bool × ChanCfg × Bool :=
  (x.prot.perIdx, x.mod.cmpANow, x.mod.cmpBNow, x.segSwap, x.cfg, x.prot.latched)

theorem countZero_marks (x : Chan) :
    (countZero x).marks = (x.prot.perIdx + 1, x.mod.cmpA, x.mod.cmpB, [false, false], x.cfg, x.prot.latched) := by
  have a : (finishPlan x.mod).cmpA = x.mod.cmpA :=
    show (finishPlan x.mod).sansGates.cmpA = x.mod.sansGates.cmpA by rw [finishPlan_sansGates]
  have b : (finishPlan x.mod).cmpB = x.mod.cmpB :=
    show (finishPlan x.mod).sansGates.cmpB = x.mod.sansGates.cmpB by rw [finishPlan_sansGates]
  simp only [Chan.marks, countZero, swapSegs, a, b]

theorem manualExit_marks (x : Chan) : (manualExit x).marks = x.marks := by
  unfold manualExit
  split <;> rfl

theorem manualReload_now (m : Mod) (take takeP : Bool) :
    (manualReload m take takeP).cmpANow = m.cmpANow ∧ (manualReload m take takeP).cmpBNow = m.cmpBNow := by
  unfold manualReload
  dsimp only
  (repeat' split) <;> exact ⟨rfl, rfl⟩

theorem takeUpMod_now (d : Dev) (c : Ch) (r0 r1 r2 : Bool) :
    (takeUpMod d c r0 r1 r2).cmpANow = d.chs[c].mod.cmpANow ∧ (takeUpMod d c r0 r1 r2).cmpBNow = d.chs[c].mod.cmpBNow := by
  unfold takeUpMod
  dsimp only
  split <;> exact ⟨rfl, rfl⟩

theorem startPeriod_marks (x : Chan) (m : Mod) (hA : m.cmpANow = x.mod.cmpANow) (hB : m.cmpBNow = x.mod.cmpBNow) :
    (startPeriod x m).marks = x.marks := by
  unfold startPeriod Chan.marks
  split <;> simp only [gatesOff, hA, hB]

/-- A part that differs from `d` in its channels, its capture units and its free counter only. -/
def PeriodOnly (d u : Dev) : Prop := ∃ chs awl free, u = { d with chs := chs, awl := awl, free := free }

/-- A take-up of channel `c` keeps its marks and touches no channel outside its pair's lead. -/
structure TakesUp (d : Dev) (c : Ch) (u : Dev) : Prop where
  only : PeriodOnly d u
  marks : u.chs[c].marks = d.chs[c].marks
  others : ∀ k : Ch, k ≠ c → k ≠ lead d c → u.chs[k] = d.chs[k]

theorem lead_of_marks {d e : Dev} {c : Ch} (h : e.chs[c].marks = d.chs[c].marks) : lead e c = lead d c := by
  have cfg : e.chs[c].cfg = d.chs[c].cfg := congrArg (·.2.2.2.2.1) h
  rw [lead, lead, bridgedB, bridgedB, cfg]

theorem TakesUp.refl (d : Dev) (c : Ch) : TakesUp d c d := ⟨⟨_, _, _, rfl⟩, rfl, fun _ _ _ => rfl⟩

theorem TakesUp.trans {d e u : Dev} {c : Ch} (h : TakesUp d c e) (h' : TakesUp e c u) : TakesUp d c u := by
  obtain ⟨⟨_, _, _, rfl⟩, marks, others⟩ := h
  obtain ⟨⟨_, _, _, rfl⟩, marks', others'⟩ := h'
  exact ⟨⟨_, _, _, rfl⟩, marks'.trans marks, fun k hc hl => (others' k hc (lead_of_marks marks ▸ hl)).trans (others k hc hl)⟩

theorem takesUp_ch (d : Dev) (c : Ch) (f : Chan → Chan) (h : (f d.chs[c]).marks = d.chs[c].marks) : TakesUp d c (d.ch c f) :=
  ⟨⟨_, _, _, rfl⟩, by rw [ch_same]; exact h, fun k hc _ => ch_other d c k f hc⟩

theorem takesUp_ticks (d : Dev) (c : Ch) (n : Nat) : TakesUp d c (d.ticks n) := ⟨⟨_, _, _, rfl⟩, rfl, fun _ _ _ => rfl⟩

theorem takesUp_capPoint (d : Dev) (c : Ch) (p : CapPoint) (st : CapStrobe) (val : Int) (trip range : Bool) :
    TakesUp d c (capPoint d p st c val trip range) := by
  have chs := capPoint_chs d p st c val trip range
  exact ⟨⟨_, _, _, rfl⟩, by rw [chs], fun k _ _ => by rw [chs]⟩

theorem takesUp_measSw (d : Dev) (c : Ch) (w : Nat) : TakesUp d c (measSw d c w) := by
  unfold measSw
  dsimp only
  split
  · exact .refl d c
  split
  · refine ⟨⟨_, _, _, rfl⟩, ?_, fun k _ hl => ch_other _ _ _ _ hl⟩
    rw [ch_get]
    split <;> rfl
  · exact .refl d c

theorem takesUp_takePeriod (d : Dev) (c : Ch) (first : Bool) : TakesUp d c (takePeriod d c first) := by
  refine (takesUp_ticks d c 4).trans ?_
  unfold takePeriod
  dsimp only
  generalize hd1 : (if decide ((d.ticks 4).chs[c].prot.drive = .manual) = true then _ else _ : Dev) = d1
  have h1 : TakesUp (d.ticks 4) c d1 := by
    rw [← hd1]
    split
    · refine takesUp_ch _ _ _ ?_
      simp only [Chan.marks, manualReload_now]
    · exact .refl _ _
  refine h1.trans ?_
  split
  · exact takesUp_ch _ _ _ (startPeriod_marks _ _ rfl rfl)
  generalize hd2 : (if halfEnding d1 c = true then _ else _ : Dev) = d2
  have h2 : TakesUp d1 c d2 ∧ d2.chs[c].mod = d1.chs[c].mod := by
    rw [← hd2]
    split
    · exact ⟨takesUp_ch _ _ _ rfl, by rw [ch_same]⟩
    · exact ⟨.refl _ _, rfl⟩
  refine h2.1.trans (.trans (takesUp_ch _ _ _ ?_) (.trans (takesUp_measSw _ _ _) (takesUp_capPoint _ _ _ _ _ _ _)))
  obtain ⟨nowA, nowB⟩ := takeUpMod_now d1 c (Config.freeBit (d.free + 0)) (Config.freeBit (d.free + 1)) (Config.freeBit (d.free + 2))
  exact startPeriod_marks _ _ (nowA.trans (by rw [h2.2])) (nowB.trans (by rw [h2.2]))

theorem takeUpDev_idle (d : Dev) (c : Ch) (h : d.chs[c].mod.counting = false ∨ d.chs[c].mod.halted = true) : takeUpDev d c = d :=
  if_pos (by rcases h with h | h <;> rw [h] <;> simp)

/-- A channel period of `c` begins (R175): its marks, and what stays as it was in `d`. -/
structure BeginsPeriod (d : Dev) (c : Ch) (u : Dev) : Prop where
  marks : u.chs[c].marks =
    (d.chs[c].prot.perIdx + 1, d.chs[c].mod.cmpA, d.chs[c].mod.cmpB, [false, false], d.chs[c].cfg, d.chs[c].prot.latched)
  others : ∀ k : Ch, k ≠ c → k ≠ lead d c → u.chs[k] = d.chs[k]
  frame : u.guard = d.guard ∧ u.rails = d.rails ∧ u.tb = d.tb ∧ u.power = d.power ∧ u.groupRel = d.groupRel

theorem BeginsPeriod.takesUp {d e u : Dev} {c : Ch} (h : BeginsPeriod d c e) (h' : TakesUp e c u) : BeginsPeriod d c u := by
  obtain ⟨⟨_, _, _, rfl⟩, marks, others⟩ := h'
  have hl : lead e c = lead d c := by
    have cfg : e.chs[c].cfg = d.chs[c].cfg := congrArg (·.2.2.2.2.1) h.marks
    rw [lead, lead, bridgedB, bridgedB, cfg]
  exact ⟨marks.trans h.marks, fun k hc hk => (others k hc (hl ▸ hk)).trans (h.others k hc hk), h.frame⟩

/-- An operation that leaves the channels alone, and what a beginning period leaves, keeps what begins. -/
theorem BeginsPeriod.sameChs {d e u : Dev} {c : Ch} (h : BeginsPeriod d c e) (chs : u.chs = e.chs)
    (frame : u.guard = e.guard ∧ u.rails = e.rails ∧ u.tb = e.tb ∧ u.power = e.power ∧ u.groupRel = e.groupRel) : BeginsPeriod d c u := by
  obtain ⟨guard, rails, tb, power, groupRel⟩ := frame
  obtain ⟨marks, others, guard', rails', tb', power', groupRel'⟩ := h
  exact ⟨by rw [chs]; exact marks, fun k hc hk => by rw [chs]; exact others k hc hk,
    guard.trans guard', rails.trans rails', tb.trans tb', power.trans power', groupRel.trans groupRel'⟩

theorem takeUpDev_begins (d : Dev) (c : Ch) (runs : d.chs[c].mod.counting = true) (free : d.chs[c].mod.halted = false) :
    BeginsPeriod d c (takeUpDev d c) := by
  unfold takeUpDev
  dsimp only
  rw [if_neg (by rw [runs, free]; decide)]
  have h1 : BeginsPeriod d c (eviCount (d.ch c countZero) 1 c.val) := by
    refine .sameChs (e := d.ch c countZero) ⟨?_, fun k hc _ => ch_other d c k _ hc, ?_⟩ (by simp) (by simp)
    · rw [ch_same]; exact countZero_marks _
    · simp
  generalize eviCount (d.ch c countZero) 1 c.val = e at h1
  split
  · split
    · exact (h1.takesUp (takesUp_ch e c chanOff rfl)).sameChs (by simp) (by simp)
    · exact h1.takesUp (takesUp_ch e c _ rfl)
  split
  · have h2 : BeginsPeriod d c (rampAgain (e.ch c manualExit) c) :=
      (h1.takesUp (takesUp_ch e c manualExit (manualExit_marks _))).sameChs (by simp) (by simp)
    split
    · exact h2
    · exact h2.takesUp (takesUp_takePeriod _ _ _)
  split
  · exact (h1.takesUp (takesUp_ch e c _ rfl)).takesUp (takesUp_takePeriod _ _ _)
  · exact h1.takesUp (takesUp_takePeriod _ _ _)

/-! ### The take-up of a loop's word -/

/-- A word on the grid of 2^(-23) lies on the grid of fine steps of a full period. -/
theorem requantize_full (w : Nat) (e1 e2 : Int) (up : Bool) :
    let v : Int := (w : Int) - 2 * e1 + e2
    let y : Int := Int.fdiv (v + 2 ^ 10) (2 ^ 11)
    let r := requantize w 256 e1 e2 up
    (y < 0 → r = (0, 0, 0)) ∧ (4095 < y → r = (4095, 0, 0)) ∧ (0 ≤ y ∧ y ≤ 4095 → (r.1 : Int) = y ∧ r.2 = (y * 2 ^ 11 - v, e1)) := by
  intro v y r
  have grid : gridDiv ((w : Int) * (16 * (256 : Nat)) * 2 ^ 11) (2 ^ 23) up = w := by
    unfold gridDiv
    rw [if_pos (by omega)]
    omega
  have hr : r = if y < 0 then (0, 0, 0) else if 4095 < y then (4095, 0, 0) else (y.toNat, y * 2 ^ 11 - v, e1) := by
    simp only [r, requantize, grid]
    rfl
  rw [hr]
  refine ⟨fun h => if_pos h, fun h => ?_, fun h => ?_⟩
  · rw [if_neg (by omega), if_pos (by omega)]
  · rw [if_neg (by omega), if_neg (by omega)]
    exact ⟨Int.toNat_of_nonneg h.1, rfl⟩

/-- Count 0 leaves the word in use, the rails it was accepted with and the error states of the take-up before. -/
theorem countZero_fields (x : Chan) :
    let m := (countZero x).mod
    m.pending = x.mod.pending ∧ m.pendRails = x.mod.pendRails ∧ m.e1 = x.mod.e1 ∧ m.e2 = x.mod.e2 ∧ m.shadow = x.mod.shadow ∧
      m.collisions = x.mod.collisions := by
  obtain ⟨-, -, -, edge, pending, rails, shadow, collisions⟩ := fields_of_sansGates (finishPlan_sansGates x.mod)
  simp only [Prod.mk.injEq] at edge
  exact ⟨pending, rails, edge.2.1, edge.2.2, shadow, collisions⟩

theorem measSw_idle (d : Dev) (c : Ch) (w : Nat) (idle : d.chs[lead d c].meas = none) : measSw d c w = d := by
  unfold measSw
  dsimp only
  rw [idle]

theorem halfEnding_loop (d : Dev) (c : Ch) (loop : d.chs[c].prot.drive = .loop) : halfEnding d c = false := by
  unfold halfEnding
  dsimp only
  rw [loop]

theorem midMode_zero (d : Dev) (c : Ch) (zero : d.chs[c].cfg.updMid = false) : midMode d c = false := by
  unfold midMode
  dsimp only
  rw [zero, Bool.false_and]

theorem takeUpMod_loop (d : Dev) (c : Ch) (loop : d.chs[c].prot.drive = .loop) (r0 r1 r2 : Bool) :
    takeUpMod d c r0 r1 r2 = takeWord d.chs[c] (wordMag d.chs[c].mod.pending) d.chs[c].cfg.ffEn 256 r1 r2 := by
  unfold takeUpMod
  dsimp only
  rw [if_neg (by rw [loop]; simp), takeSource]
  rw [halfEnding_loop d c loop, loop]
  rfl

/-- A period of a channel in its loop, which takes its word up at count 0 (R109, R117). -/
theorem takePeriod_loop (d : Dev) (c : Ch) (loop : d.chs[c].prot.drive = .loop) (idle : d.chs[lead d c].meas = none)
    (zero : d.chs[c].cfg.updMid = false) :
    let x := d.chs[c]
    let m := takeWord x (wordMag x.mod.pending) x.cfg.ffEn 256 (Config.freeBit (d.free + 1)) (Config.freeBit (d.free + 2))
    takePeriod d c false = { ((d.ticks 4).ch c fun x => startPeriod x m) with awl := (takePeriod d c false).awl } := by
  intro x m
  have chs : (d.ticks 4).chs = d.chs := rfl
  have loop' : (d.ticks 4).chs[c].prot.drive = .loop := loop
  have man : decide ((d.ticks 4).chs[c].prot.drive = .manual) = false := by rw [loop']; rfl
  have mid : midMode (d.ticks 4) c = false := midMode_zero _ _ zero
  have half : halfEnding (d.ticks 4) c = false := halfEnding_loop _ _ loop'
  have word : takeUpMod (d.ticks 4) c (Config.freeBit (d.free + 0)) (Config.freeBit (d.free + 1)) (Config.freeBit (d.free + 2)) = m :=
    takeUpMod_loop _ _ loop' _ _ _
  have sw (w : Nat) : measSw ((d.ticks 4).ch c fun x => startPeriod x m) c w = (d.ticks 4).ch c fun x => startPeriod x m := by
    have hl : lead ((d.ticks 4).ch c fun x => startPeriod x m) c = lead d c := by
      rw [lead, lead, bridgedB, bridgedB, ch_same]; rfl
    have idle' (k : Ch) (hk : k = lead d c) : ((d.ticks 4).ch c fun x => startPeriod x m).chs[k].meas = none := by
      subst hk
      rw [ch_get]
      split <;> exact idle
    exact measSw_idle _ _ _ (idle' _ hl)
  have e : takePeriod d c false = capPoint (measSw ((d.ticks 4).ch c fun x => startPeriod x m) c
      (takeSource (d.ticks 4) c (Config.freeBit (d.free + 0))).1) .duty .carrier c (q23 m.duty) m.flags.trip m.flags.range := by
    unfold takePeriod
    simp only [man, mid, half, word, Bool.false_and, Bool.false_eq_true, if_false]
  rw [e, sw]
  rfl

/-- The take-up of such a channel: no half-duty ending and no exit from manual modulation stand in the way. -/
theorem takeUpDev_loop (d : Dev) (c : Ch) (runs : d.chs[c].mod.counting = true) (free : d.chs[c].mod.halted = false)
    (exit : d.chs[c].mod.exitHold = 0) (loop : d.chs[c].prot.drive = .loop) :
    takeUpDev d c = takePeriod (eviCount (d.ch c countZero) 1 c.val) c false := by
  have half : halfEnding (eviCount (d.ch c countZero) 1 c.val) c = false :=
    halfEnding_loop _ _ (by rw [eviCount_chs, ch_same]; exact loop)
  unfold takeUpDev
  dsimp only
  rw [if_neg (by rw [runs, free]; decide), half, if_neg (by simp), if_neg (by rw [exit]; simp), if_neg (by rw [exit]; simp)]

/-- What a take-up sets and keeps of the modulator (R106 to R109). -/
theorem takeWord_fields (x : Chan) (w : Nat) (ff : Bool) (p : Nat) (r1 r2 : Bool) :
    let f := if ff then feedForward w x.cfg.ffRef x.mod.pendRails r1 else (w, false)
    let m := takeWord x w ff p r1 r2
    m.duty = BitVec.ofNat 24 f.1 ∧ m.period = p ∧ m.flags.ffSat = f.2 ∧
      (m.edge, m.e1, m.e2) = requantize f.1 p x.mod.e1 x.mod.e2 r2 ∧ m.shadow = x.mod.shadow ∧ m.collisions = x.mod.collisions :=
  ⟨rfl, rfl, rfl, rfl, rfl, rfl⟩

theorem startPeriod_sansGates (x : Chan) (m : Mod) : (startPeriod x m).mod.sansGates = m.sansGates := by
  unfold startPeriod
  split <;> rfl

/-- A channel in its loop after the count 0 that takes its pending word up, with the bits that settle the roundings. -/
def loopPeriod (r1 r2 : Bool) (x : Chan) : Chan :=
  startPeriod (countZero x) (takeWord (countZero x) (wordMag (countZero x).mod.pending) (countZero x).cfg.ffEn 256 r1 r2)

theorem loopPeriod_fields (r1 r2 : Bool) (x : Chan) :
    let f := if x.cfg.ffEn then feedForward (wordMag x.mod.pending) x.cfg.ffRef x.mod.pendRails r1 else (wordMag x.mod.pending, false)
    let u := loopPeriod r1 r2 x
    u.mod.duty = BitVec.ofNat 24 f.1 ∧ u.mod.period = 256 ∧ u.mod.flags.ffSat = f.2 ∧
      (u.mod.edge, u.mod.e1, u.mod.e2) = requantize f.1 256 x.mod.e1 x.mod.e2 r2 ∧ u.mod.shadow = x.mod.shadow ∧
      u.mod.collisions = x.mod.collisions ∧ u.cfg = x.cfg ∧ u.prot = { x.prot with perIdx := x.prot.perIdx + 1 } := by
  intro f u
  let w := takeWord (countZero x) (wordMag (countZero x).mod.pending) (countZero x).cfg.ffEn 256 r1 r2
  obtain ⟨pending, rails, e1, e2, shadow, collisions⟩ := countZero_fields x
  obtain ⟨duty, period, flags, edge, -, -, shadow', collisions'⟩ := fields_of_sansGates (startPeriod_sansGates (countZero x) w)
  obtain ⟨wDuty, wPeriod, wSat, wEdge, wShadow, wCollisions⟩ :=
    takeWord_fields (countZero x) (wordMag (countZero x).mod.pending) (countZero x).cfg.ffEn 256 r1 r2
  have hcfg : (countZero x).cfg = x.cfg := rfl
  have hf : (if (countZero x).cfg.ffEn then
      feedForward (wordMag (countZero x).mod.pending) (countZero x).cfg.ffRef (countZero x).mod.pendRails r1
      else (wordMag (countZero x).mod.pending, false)) = f := by rw [pending, rails, hcfg]
  rw [hf] at wDuty wSat wEdge
  rw [e1, e2] at wEdge
  exact ⟨duty.trans wDuty, period.trans wPeriod, (congrArg (·.ffSat) flags).trans wSat, edge.trans wEdge,
    shadow'.trans (wShadow.trans shadow), collisions'.trans (wCollisions.trans collisions), rfl, rfl⟩

theorem midTakeUpDev_idle (d : Dev) (c : Ch)
    (h : ¬(d.chs[c].mod.counting = true ∧ d.chs[c].mod.halted = false ∧ d.chs[c].mod.exitHold = 0 ∧ midMode d c = true)) :
    midTakeUpDev d c = d := by
  refine if_pos ?_
  simp only [not_and, Bool.not_eq_true] at h
  cases runs : d.chs[c].mod.counting
  · rfl
  cases free : d.chs[c].mod.halted
  · by_cases exit : d.chs[c].mod.exitHold = 0
    · rw [h runs free exit]; rfl
    · rw [decide_eq_true exit, Bool.or_true]
  · rfl

/-- A channel at the middle of its period, its word taken up there and its remaining gate edges programmed anew (R121). -/
def midTaken (r1 r2 : Bool) (x : Chan) : Chan :=
  let w := takeWord x (wordMag x.mod.pending) x.cfg.ffEn 256 r1 r2
  let m := { w with flags := midFlags w.flags x.mod x.mod.edge w.edge w.dead }
  { x with mod := if switching x then midUpdate m m.edge m.dead else m }

theorem midTakeUpDev_takes (d : Dev) (c : Ch) (runs : d.chs[c].mod.counting = true) (free : d.chs[c].mod.halted = false)
    (exit : d.chs[c].mod.exitHold = 0) (mid : midMode d c = true) :
    midTakeUpDev d c =
      { (d.ticks 2).ch c (midTaken (Config.freeBit d.free) (Config.freeBit (d.free + 1))) with awl := (midTakeUpDev d c).awl } := by
  have e : midTakeUpDev d c =
      let d1 := (d.ticks 2).ch c (midTaken (Config.freeBit d.free) (Config.freeBit (d.free + 1)))
      capPoint d1 .duty .carrier c (q23 d1.chs[c].mod.duty) d1.chs[c].mod.flags.trip d1.chs[c].mod.flags.range :=
    if_neg (by rw [runs, free, exit, mid]; decide)
  rw [e]
  rfl

theorem midTaken_fields (r1 r2 : Bool) (x : Chan) :
    let w := takeWord x (wordMag x.mod.pending) x.cfg.ffEn 256 r1 r2
    let u := midTaken r1 r2 x
    u.mod.duty = w.duty ∧ u.mod.period = w.period ∧ (u.mod.edge, u.mod.e1, u.mod.e2) = (w.edge, w.e1, w.e2) := by
  intro w u
  have sans (m : Mod) (b : Bool) (e dt : Nat) : (if b then midUpdate m e dt else m).sansGates = m.sansGates := by
    split
    · exact midUpdate_sansGates m e dt
    · rfl
  obtain ⟨duty, period, -, edge, -⟩ := fields_of_sansGates
    (m := u.mod) (n := { w with flags := midFlags w.flags x.mod x.mod.edge w.edge w.dead }) (sans _ _ _ _)
  exact ⟨duty, period, edge⟩

/-- Settles O12: count 0 by what every beginning period does (`takeUpDev_begins`) and by the loop's take-up alone (`takeUpDev_loop`,
`takePeriod_loop`, `requantize_full`), the middle of the period by `midTakeUpDev_takes`. -/
theorem takeUps : Obligations.TakeUps := by
  refine ⟨fun q d c => ⟨fun runs free => ?_, fun h => next_congr (takeUpDev_idle d c h), fun runs free exit loop idle zero => ?_⟩,
    fun q d c => ⟨fun takes => ?_, fun h => next_congr (midTakeUpDev_idle d c fun h' => h ?_)⟩⟩
  · obtain ⟨marks, others, frame⟩ := takeUpDev_begins d c runs free
    simp only [Chan.marks, Prod.mk.injEq] at marks
    obtain ⟨per, a, b, seg, cfg, latched⟩ := marks
    exact ⟨takeUpDev d c, rfl, per, a, b, seg, cfg, latched, others, frame⟩
  · let e := eviCount (d.ch c countZero) 1 c.val
    have he : e.chs[c] = countZero d.chs[c] := by rw [eviCount_chs, ch_same]
    have hcfg : (countZero d.chs[c]).cfg = d.chs[c].cfg := rfl
    have hdrive : (countZero d.chs[c]).prot.drive = d.chs[c].prot.drive := rfl
    have hl : lead e c = lead d c := by rw [lead, lead, bridgedB, bridgedB, he]; rfl
    have idle' (k : Ch) (hk : k = lead d c) : e.chs[k].meas = none := by
      subst hk
      rw [eviCount_chs, ch_get]
      split <;> exact idle
    have hu := takePeriod_loop e c (by rw [he]; exact loop) (idle' _ hl) (by rw [he]; exact zero)
    rw [← takeUpDev_loop d c runs free exit loop] at hu
    have hfree : e.free = d.free := rfl
    rw [he, hfree] at hu
    have hc : (takeUpDev d c).chs[c] = loopPeriod (Config.freeBit (d.free + 1)) (Config.freeBit (d.free + 2)) d.chs[c] :=
      (congrArg (fun u : Dev => u.chs[c]) hu).trans
        ((ch_same _ _ _).trans (congrArg (startPeriod · _) he))
    obtain ⟨duty, period, sat, edge, shadow, collisions, cfg, prot⟩ :=
      loopPeriod_fields (Config.freeBit (d.free + 1)) (Config.freeBit (d.free + 2)) d.chs[c]
    rw [← hc] at duty period sat edge shadow collisions cfg prot
    refine ⟨takeUpDev d c, Config.freeBit (d.free + 1), ?_⟩
    intro w
    split
    next w' s hf =>
    rw [hf] at duty sat edge
    obtain ⟨low, high, inside⟩ := requantize_full w' d.chs[c].mod.e1 d.chs[c].mod.e2 (Config.freeBit (d.free + 2))
    rw [← edge] at low high inside
    simp only [Prod.mk.injEq] at low high inside
    exact ⟨rfl, by rw [hu]; rfl, fun k hk => by rw [hu]; exact (ch_other _ _ _ _ hk).trans (ch_other _ _ _ _ hk),
      duty, period, sat, low, high, inside, shadow, collisions, cfg, prot⟩
  · obtain ⟨runs, free, exit, upd, drive⟩ := takes
    have mid : midMode d c = true := by
      unfold midMode
      dsimp only
      rw [upd]
      rcases drive with h | h | ⟨h, h'⟩
      · rw [h]; rfl
      · rw [h]; rfl
      · rw [h, h']; rfl
    have hu := midTakeUpDev_takes d c runs free exit mid
    have hc : (midTakeUpDev d c).chs[c] = midTaken (Config.freeBit d.free) (Config.freeBit (d.free + 1)) d.chs[c] := by
      rw [hu]; exact ch_same _ _ _
    obtain ⟨duty, period, edge⟩ := midTaken_fields (Config.freeBit d.free) (Config.freeBit (d.free + 1)) d.chs[c]
    obtain ⟨wDuty, -, -, wEdge, -, -⟩ := takeWord_fields d.chs[c] (wordMag d.chs[c].mod.pending) d.chs[c].cfg.ffEn 256
      (Config.freeBit d.free) (Config.freeBit (d.free + 1))
    rw [apply_ite Prod.fst] at wDuty wEdge
    refine ⟨midTakeUpDev d c, Config.freeBit d.free, Config.freeBit (d.free + 1), rfl, ?_, fun k hk => ?_, ?_, ?_, ?_, ?_, ?_⟩
    · rw [hu]; rfl
    · rw [hu]; exact ch_other _ _ _ _ hk
    · rw [hc]; exact duty.trans wDuty
    · rw [hc]; exact period
    · rw [hc]; rfl
    · rw [hc]; rfl
    · rw [hc]; exact edge.trans wEdge
  · obtain ⟨runs, free, exit, mid⟩ := h'
    simp only [midMode, Bool.and_eq_true, Bool.or_eq_true, decide_eq_true_eq] at mid
    obtain ⟨upd, drive⟩ := mid
    exact ⟨runs, free, exit, upd, or_assoc.mp drive⟩

end Sys2Proof.Machine
end

section
/-!
PROOFS. What an operation on some channels keeps of every channel and where it changes one at all; the release of a group (R161, R196).
-/

namespace Sys2Proof.Machine

/-! ### Changes confined to some channels -/

/-- A change of the bank that keeps `keep` of every channel and the whole of every channel outside `S`. -/
def ChangesIn {α : Type} (S : Ch → Prop) (keep : Chan → α) (v w : Bank Chan 128) : Prop :=
  ∀ k : Ch, keep w[k] = keep v[k] ∧ (¬S k → w[k] = v[k])

section
variable {α : Type} {S : Ch → Prop} {keep : Chan → α}

theorem changesIn_refl (v : Bank Chan 128) : ChangesIn S keep v v := fun _ => ⟨rfl, fun _ => rfl⟩

theorem changesIn_of_eq {v w : Bank Chan 128} (h : w = v) : ChangesIn S keep v w := by
  rw [h]; exact changesIn_refl v

theorem ChangesIn.trans {u v w : Bank Chan 128} (h : ChangesIn S keep u v) (h' : ChangesIn S keep v w) : ChangesIn S keep u w := fun k =>
  ⟨(h' k).1.trans (h k).1, fun out => ((h' k).2 out).trans ((h k).2 out)⟩

theorem ChangesIn.mono {T : Ch → Prop} {v w : Bank Chan 128} (h : ChangesIn S keep v w) (sub : ∀ k, S k → T k) : ChangesIn T keep v w :=
  fun k => ⟨(h k).1, fun out => (h k).2 fun inside => out (sub k inside)⟩

/-- What is read off what is kept is kept. -/
theorem ChangesIn.weaken {β : Type} {v w : Bank Chan 128} (h : ChangesIn S keep v w) (f : α → β) : ChangesIn S (fun x => f (keep x)) v w :=
  fun k => ⟨congrArg f (h k).1, (h k).2⟩

theorem changesIn_ch (d : Dev) (c : Ch) (f : Chan → Chan) (inside : S c) (kept : keep (f d.chs[c]) = keep d.chs[c]) :
    ChangesIn S keep d.chs (d.ch c f).chs := fun k => by
  rw [ch_get]
  split
  next h => exact ⟨h ▸ kept, fun out => absurd (h ▸ inside) out⟩
  · exact ⟨rfl, fun _ => rfl⟩

theorem changesIn_forCh (f : Dev → Ch → Dev) (l : List Ch) (d : Dev) (step : ∀ e, ∀ c ∈ l, ChangesIn S keep e.chs (f e c).chs) :
    ChangesIn S keep d.chs (forCh l f d).chs := by
  induction l generalizing d with
  | nil => exact changesIn_refl _
  | cons a l ih =>
    exact (step d a (List.mem_cons_self ..)).trans (ih (f d a) fun e c hc => step e c (List.mem_cons_of_mem _ hc))

/-- Single changes of the channels of a list. -/
theorem changesIn_forCh_ch (f : Ch → Chan → Chan) (l : List Ch) (d : Dev) (inside : ∀ c ∈ l, S c) (kept : ∀ c x, keep (f c x) = keep x) :
    ChangesIn S keep d.chs (forCh l (fun e c => e.ch c (f c)) d).chs :=
  changesIn_forCh _ l d fun e c hc => changesIn_ch e c (f c) (inside c hc) (kept c _)

/-- The halves of a channel, and its lead, where every channel keeps its configuration. -/
theorem halves_of_cfg {d e : Dev} {c : Ch} (h : e.chs[c].cfg = d.chs[c].cfg) : halves e c = halves d c := by
  rw [halves, halves, bridgedB, bridgedB, h]

theorem lead_of_cfg {d e : Dev} {c : Ch} (h : e.chs[c].cfg = d.chs[c].cfg) : lead e c = lead d c := by
  rw [lead, lead, bridgedB, bridgedB, h]

end

/-! ### The end of a measurement and the binding at a release -/

section
variable {α : Type} {S : Ch → Prop} {keep : Chan → α}

theorem measComplete_changes (d : Dev) (c : Ch) (m : Meas) (st : Nat) (inside : S c) (kept : ∀ x o, keep { x with meas := o } = keep x) :
    ChangesIn S keep d.chs (measComplete d c m st).chs := by
  have chs : (freeUnits (complete (hostWrite d m.ref (measResult d c m)) m.ref opMeasure st (m.done + 256 * m.cls) 0) c m).chs = d.chs := by
    simp only [freeUnits_frame, complete_frame, hostWrite_frame]
  exact (changesIn_of_eq chs).trans (changesIn_ch _ c _ inside (kept _ _))

theorem leaveDrive_changes (d : Dev) (c : Ch) (inside : S c) (kept : ∀ x, keep (leaveMeasure x) = keep x) :
    ChangesIn S keep d.chs (leaveDrive d c).chs := by
  unfold leaveDrive
  split
  · refine ChangesIn.trans (changesIn_of_eq ?_) (changesIn_ch _ c _ inside (kept _))
    split
    · rfl
    · simp only [tile_frame]
  · exact changesIn_refl _

theorem measRelease_changes (d : Dev) (c : Ch) (inside : ∀ k ∈ halves d (lead d c), S k) (meas : ∀ x o, keep { x with meas := o } = keep x)
    (leave : ∀ x, keep (leaveMeasure x) = keep x) : ChangesIn S keep d.chs (measRelease d c).chs := by
  unfold measRelease
  dsimp only
  split
  · exact changesIn_refl _
  · exact (changesIn_forCh _ _ d fun e k hk => leaveDrive_changes e k (inside k hk) leave).trans
      (measComplete_changes _ _ _ _ (inside _ (halves_self _ _)) meas)

theorem bindRecord_changes (d : Dev) (c : Ch) (inside : S c) (kept : ∀ x b r, keep { x with bound := b, loadRec := r } = keep x) :
    ChangesIn S keep d.chs (bindRecord d c).chs := by
  unfold bindRecord
  dsimp only
  split <;> simp only [restartModel_frame, loadStages_frame, trackUnbound_frame] <;> exact changesIn_ch d c _ inside (kept _ _ _)

end

/-! ### The release of a channel -/

/-- What a release keeps of every channel. -/
def Chan.locks (x : Chan) : Bool × Nat × ChanCfg := (x.prot.latched, x.prot.oos, x.cfg)

theorem releaseChan_changes (d : Dev) (c : Ch) :
    ChangesIn (fun k => k = c ∨ k ∈ halves d (lead d c)) Chan.locks d.chs (releaseChan d c).chs := by
  unfold releaseChan
  dsimp only
  refine (measRelease_changes d c (fun k hk => .inr hk) (fun _ _ => rfl) fun _ => rfl).trans
    (.trans (changesIn_ch _ c _ (.inl rfl) ?_) (bindRecord_changes _ c (.inl rfl) fun _ _ _ => rfl))
  rfl

theorem releaseChan_released (d : Dev) (c k : Ch) :
    (releaseChan d c).chs[k].prot.released = if k = c then true else d.chs[k].prot.released := by
  have meas : (measRelease d c).chs[k].prot.released = d.chs[k].prot.released :=
    (measRelease_changes (S := fun _ => True) (keep := fun x => x.prot.released) d c (fun _ _ => trivial) (fun _ _ => rfl) (fun _ => rfl) k).1
  unfold releaseChan
  dsimp only
  refine (bindRecord_changes (S := fun _ => True) (keep := fun x => x.prot.released) _ c trivial (fun _ _ _ => rfl) k).1.trans ?_
  rw [ch_get]
  split
  · rfl
  · exact meas

theorem forCh_releaseChan_released (l : List Ch) (d : Dev) (k : Ch) :
    (forCh l releaseChan d).chs[k].prot.released = if k ∈ l then true else d.chs[k].prot.released := by
  induction l generalizing d with
  | nil => rfl
  | cons a l ih =>
    refine (ih (releaseChan d a)).trans ?_
    rw [releaseChan_released]
    by_cases hk : k = a <;> by_cases hl : k ∈ l <;> simp [hk, hl]

/-- The channels that a release of the channels of a list can touch. -/
def ReleaseTouches (d : Dev) (cs : List Ch) (k : Ch) : Prop := ∃ c ∈ cs, k = c ∨ k ∈ halves d (lead d c)

theorem forCh_releaseChan_changes (d e : Dev) (cs l : List Ch) (sub : ∀ c ∈ l, c ∈ cs) (kept : ChangesIn (ReleaseTouches d cs) Chan.locks d.chs e.chs) :
    ChangesIn (ReleaseTouches d cs) Chan.locks d.chs (forCh l releaseChan e).chs := by
  induction l generalizing e with
  | nil => exact kept
  | cons a l ih =>
    refine ih (releaseChan e a) (fun c hc => sub c (List.mem_cons_of_mem _ hc)) (kept.trans ((releaseChan_changes e a).mono fun k hk => ?_))
    have cfg (c : Ch) : e.chs[c].cfg = d.chs[c].cfg := congrArg (·.2.2) (kept c).1
    refine ⟨a, sub a (List.mem_cons_self ..), hk.imp_right fun hk => ?_⟩
    rwa [lead_of_cfg (cfg a), halves_of_cfg (cfg _)] at hk

/-! ### The release of a group -/

theorem mem_ixs {n : Nat} (k : Fin n) : k ∈ ixs n := List.mem_finRange k

theorem tripBlocks_iff (d : Dev) (c : Ch) : tripBlocks d c = true ↔ ∃ (p : Pin) (h : Ch), d.guard.trip.getLsbD p.val = true ∧
    h ∈ halves d c ∧ (d.guard.tripMask.getD p.val []).getD h.val false = true := by
  simp only [tripBlocks, List.any_eq_true, Bool.and_eq_true, mem_ixs, true_and, exists_and_left]

theorem releaseRefused_iff (d : Dev) (g : RGroup) : releaseRefused d g = true ↔ imageOn d = false ∨ d.rails.preState ≠ 4 ∨ d.rails.okLast = false ∨
    d.guard.safe = true ∨ d.guard.prsnt = false ∨ d.guard.thermLatch = true ∨ ∃ c ∈ groupChans d g, tripBlocks d c = true := by
  simp only [releaseRefused, preDone, Bool.or_eq_true, Bool.not_eq_true', decide_eq_false_iff_not, List.any_eq_true, or_assoc, ne_eq]

/-- A channel that its group's release leaves behind: it, or the other half of its pair, is latched or out of service. -/
def leftBehind (d : Dev) (c : Ch) : Bool := (halves d c).any fun h => d.chs[h].prot.latched || decide (d.chs[h].prot.oos ≠ 0)

theorem leftBehind_iff (d : Dev) (c : Ch) :
    leftBehind d c = true ↔ ∃ h ∈ halves d c, d.chs[h].prot.latched = true ∨ d.chs[h].prot.oos ≠ 0 := by
  simp only [leftBehind, List.any_eq_true, Bool.or_eq_true, decide_eq_true_eq]

/-- The channels that a group's release releases. -/
def goers (d : Dev) (g : RGroup) : List Ch := (groupChans d g).filter fun c => !leftBehind d c && !d.chs[c].prot.released

theorem mem_goers (d : Dev) (g : RGroup) (c : Ch) :
    c ∈ goers d g ↔ c ∈ groupChans d g ∧ leftBehind d c = false ∧ d.chs[c].prot.released = false := by
  simp only [goers, List.mem_filter, Bool.and_eq_true, Bool.not_eq_true']

/-- The part after the release of a group that R161 allows. -/
def groupReleased (d : Dev) (g : RGroup) : Dev :=
  let d1 := forCh (goers d g) releaseChan (forCh (groupChans d g) (fun e c => e.ch c fun x => { x with conf := true }) d)
  { d1 with groupRel := d1.groupRel.set g true, groupRamp := if (goers d g).isEmpty then d1.groupRamp else d1.groupRamp.set g (some 0) }

theorem releaseGroupNow_allowed (d : Dev) (g : RGroup) (ok : releaseRefused d g = false) (idle : ∀ c ∈ groupChans d g, inStop d.chs[c] = false)
    (some_ : groupChans d g ≠ []) :
    releaseGroupNow d g = some (groupReleased d g, if (groupChans d g).any (leftBehind d) then 9 else 0) := by
  have idle' : (groupChans d g).any (fun c => inStop d.chs[c]) = false := List.any_eq_false.2 fun c hc => by rw [idle c hc]; exact Bool.false_ne_true
  unfold releaseGroupNow
  dsimp only
  rw [if_neg (by rw [ok]; exact Bool.false_ne_true), if_neg (by rw [idle']; exact Bool.false_ne_true), if_neg (by simpa using some_)]
  rfl

theorem groupReleased_changes (d : Dev) (g : RGroup) :
    ChangesIn (ReleaseTouches d (groupChans d g)) Chan.locks d.chs (groupReleased d g).chs :=
  forCh_releaseChan_changes d _ _ (goers d g) (fun _ hc => ((mem_goers d g _).1 hc).1)
    (changesIn_forCh_ch (fun _ x => { x with conf := true }) _ d (fun c hc => ⟨c, hc, .inl rfl⟩) fun _ _ => rfl)

theorem groupReleased_released (d : Dev) (g : RGroup) (k : Ch) :
    (groupReleased d g).chs[k].prot.released = if k ∈ goers d g then true else d.chs[k].prot.released := by
  have conf : (forCh (groupChans d g) (fun e c => e.ch c fun x => { x with conf := true }) d).chs[k].prot.released = d.chs[k].prot.released :=
    (changesIn_forCh_ch (S := fun _ => True) (keep := fun x => x.prot.released) (fun _ x => { x with conf := true }) _ d
      (fun _ _ => trivial) (fun _ _ => rfl) k).1
  exact (forCh_releaseChan_released _ _ k).trans (by rw [conf])

theorem groupReleased_frame (d : Dev) (g : RGroup) :
    let u := groupReleased d g
    u.guard = d.guard ∧ u.tb = d.tb ∧ u.power = d.power ∧ u.rails = d.rails ∧ u.cob = d.cob ∧ u.shank = d.shank ∧
      u.groupRel = d.groupRel.set g true ∧ u.groupRamp = if (goers d g).isEmpty then d.groupRamp else d.groupRamp.set g (some 0) := by
  simp [groupReleased]

/-- Settles O21, by what `releaseChan` does to the channels of the group one after the other (`forCh_releaseChan_changes`). -/
theorem releaseGroup : Obligations.ReleaseGroup := by
  intro q d r g cs bad
  have left (c : Ch) : leftBehind d c = true ↔ bad c := leftBehind_iff d c
  refine ⟨?_, fun refused => next_congr ?_, fun ok empty => next_congr ?_, fun ok stops => next_congr ?_, fun ok idle some_ => ?_⟩
  · simp only [releaseRefused_iff, tripBlocks_iff]; rfl
  · unfold doRelease releaseGroupNow
    dsimp only
    rw [if_pos refused]; rfl
  · have none_ : cs.any (fun c => inStop d.chs[c]) = false := by rw [empty]; rfl
    unfold doRelease releaseGroupNow
    dsimp only
    rw [if_neg (by rw [ok]; exact Bool.false_ne_true), if_neg (by rw [none_]; exact Bool.false_ne_true), if_pos (List.isEmpty_iff.2 empty)]
    rfl
  · have some_ : cs.any (fun c => inStop d.chs[c]) = true := List.any_eq_true.2 stops
    unfold doRelease releaseGroupNow
    dsimp only
    rw [if_neg (by rw [ok]; exact Bool.false_ne_true), if_pos some_]
  · obtain ⟨guard, tb, power, rails, cob, shank, rel, ramp⟩ := groupReleased_frame d g
    have kept := groupReleased_changes d g
    refine ⟨groupReleased d g, if cs.any (leftBehind d) then 9 else 0, ?_, fun some_ => if_pos ?_, fun none_ => if_neg ?_,
      ?_, fun k hk => ⟨?_, ?_⟩, ?_, fun c hc go => ?_, fun c hc stay => ?_, fun c => ⟨congrArg (·.1) (kept c).1, congrArg (·.2.1) (kept c).1⟩,
      fun k out => (kept k).2 fun touched => ?_, guard, tb, power, rails, cob, shank⟩
    · refine next_congr (?_ : doRelease d r g = _)
      unfold doRelease
      rw [releaseGroupNow_allowed d g ok idle some_]
      rfl
    · obtain ⟨c, hc, hb⟩ := some_
      exact List.any_eq_true.2 ⟨c, hc, (left c).2 hb⟩
    · intro h
      obtain ⟨c, hc, hb⟩ := List.any_eq_true.1 h
      exact none_ c hc ((left c).1 hb)
    · rw [rel]; exact Vector.getElem_set_self ..
    · rw [rel]; exact Vector.getElem_set_ne _ _ fun h => hk (Fin.ext h.symm)
    · rw [ramp]
      split
      · rfl
      · exact Vector.getElem_set_ne _ _ fun h => hk (Fin.ext h.symm)
    · rintro ⟨c, hc, hb, hr⟩
      have mem : c ∈ goers d g := (mem_goers d g c).2 ⟨hc, Bool.eq_false_iff.2 fun h => hb ((left c).1 h), hr⟩
      rw [ramp, if_neg fun h => by rw [List.isEmpty_iff.1 h] at mem; exact List.not_mem_nil mem]
      exact Vector.getElem_set_self ..
    · rw [groupReleased_released]
      split
      · rfl
      next out => exact Bool.of_not_eq_false fun h => out ((mem_goers d g c).2 ⟨hc, Bool.eq_false_iff.2 fun h' => go ((left c).1 h'), h⟩)
    · rw [groupReleased_released, if_neg fun h => ?_]
      have := ((mem_goers d g c).1 h).2.1
      rw [(left c).2 stay] at this
      cases this
    · obtain ⟨c, hc, hk⟩ := touched
      obtain ⟨ne, -, notHalf⟩ := out c hc
      exact hk.elim ne notHalf

end Sys2Proof.Machine
end

section
/-!
PROOFS. Stops of channels and groups, and the ends of a safe stop, a ramp and a clamp (R156, R163, R164, R166).
-/

namespace Sys2Proof.Machine

/-! ### Stops that are settled -/

/-- Whether every channel of a waiting stop is unreleased. -/
def stopGone (d : Dev) (s : CmdRef × List Nat × Nat) : Bool := s.2.1.all fun c => !(look d.chs c .reset).prot.released

theorem settleStops_stops (d : Dev) : (settleStops d).stops = d.stops.filter fun s => !stopGone d s := by
  unfold settleStops
  dsimp only
  simp only [foldl_stops, completeAt_frame, implies_true]
  rfl

/-- Settling leaves stops that wait for a released channel waiting. -/
theorem settleStops_none (d : Dev) (waits : ∀ s ∈ d.stops, stopGone d s = false) : settleStops d = d := by
  have fin : d.stops.filter (fun s => stopGone d s) = [] := List.filter_eq_nil_iff.2 fun s hs => by rw [waits s hs]; exact Bool.false_ne_true
  have rest : d.stops.filter (fun s => !stopGone d s) = d.stops := List.filter_eq_self.2 fun s hs => by rw [waits s hs]; rfl
  have e : settleStops d = (d.stops.filter (fun s => stopGone d s)).foldl (fun e s => completeAt e s.1 opChannel stSuccess s.2.2)
      { d with stops := d.stops.filter fun s => !stopGone d s } := rfl
  rw [e, fin, rest]
  rfl

/-! ### Stop triggers -/

/-- What a safe-stop trigger keeps of every channel. -/
def Chan.stopKeeps (x : Chan) : Bool × Bool × ChanCfg × Option Check × Bool := (x.prot.released, x.prot.latched, x.cfg, x.prot.check, x.conf)

theorem triggerChan_keeps (x : Chan) : (triggerChan x).stopKeeps = x.stopKeeps := by
  unfold triggerChan
  dsimp only
  (repeat' split) <;> rfl

theorem triggerStop_changes (d : Dev) (c : Ch) : ChangesIn (· ∈ halves d c) Chan.stopKeeps d.chs (triggerStop d c).chs :=
  changesIn_forCh_ch (fun _ => triggerChan) _ d (fun _ h => h) fun _ => triggerChan_keeps

/-- A trigger puts each half into its safe stop or leaves it waiting for it. -/
theorem triggerStop_halves (d : Dev) (c h : Ch) (hh : h ∈ halves d c) : (triggerStop d c).chs[h].stopping := by
  have e := forCh_ch_get (fun _ => triggerChan) (halves d c) d (halves_nodup d c) h
  rw [if_pos hh] at e
  exact (congrArg Chan.stopping e).mpr (triggerChan_stopping _)

/-- The channels after the stop of a list: no longer confirmed, and triggered where no short check runs. -/
def stopped (d : Dev) (cs : List Ch) : Dev :=
  forCh cs (fun e c => if e.chs[c].prot.check.isSome then e else triggerStop e c)
    (forCh (cs.flatMap (halves d)) (fun e c => e.ch c fun x => { x with conf := false }) d)

theorem doStop_eq (d : Dev) (r : CmdRef) (cs : List Ch) :
    doStop d r cs = settleStops { stopped d cs with stops := (stopped d cs).stops ++ [(r, (cs.flatMap (halves d)).map (·.val), d.tb.stc)] } := rfl

/-- What the stop of a list keeps of every channel. -/
def Chan.stopLocks (x : Chan) : Bool × Bool × ChanCfg × Option Check := (x.prot.released, x.prot.latched, x.cfg, x.prot.check)

/-- The trigger of one channel of a list that is stopped, unless its short check goes on (R197). -/
def stopOne (e : Dev) (c : Ch) : Dev := if e.chs[c].prot.check.isSome then e else triggerStop e c

theorem stopOne_changes (d : Dev) (c : Ch) : ChangesIn (· ∈ halves d c) Chan.stopKeeps d.chs (stopOne d c).chs := by
  unfold stopOne
  split
  · exact changesIn_refl _
  · exact triggerStop_changes d c

theorem stopOne_stopping (d : Dev) (c k : Ch) (h : d.chs[k].stopping) : (stopOne d c).chs[k].stopping := by
  unfold stopOne
  split
  · exact h
  · exact triggerStop_stopping d c k h

/-- Every half of a channel of the list whose check does not run stops. -/
theorem forCh_stopOne_stopping (d e : Dev) (l : List Ch) (c h : Ch) (hc : c ∈ l) (hh : h ∈ halves d c) (check : d.chs[c].prot.check = none)
    (kept : ∀ k : Ch, e.chs[k].cfg = d.chs[k].cfg ∧ e.chs[k].prot.check = d.chs[k].prot.check) : (forCh l stopOne e).chs[h].stopping := by
  induction l generalizing e with
  | nil => cases hc
  | cons a l ih =>
    rcases List.mem_cons.1 hc with rfl | hc
    · refine forCh_holds (fun u => u.chs[h].stopping) _ (fun u k => stopOne_stopping u k h) l _ ?_
      rw [stopOne, if_neg (by rw [(kept c).2, check]; exact Bool.false_ne_true)]
      exact triggerStop_halves e c h (halves_of_cfg (kept c).1 ▸ hh)
    · refine ih (stopOne e a) hc fun k => ?_
      have one := (stopOne_changes e a k).1
      exact ⟨(congrArg (·.2.2.1) one).trans (kept k).1, (congrArg (·.2.2.2.1) one).trans (kept k).2⟩

/-- The channels that a stop of a list can touch. -/
def StopTouches (d : Dev) (cs : List Ch) (k : Ch) : Prop := ∃ c ∈ cs, k ∈ halves d c

theorem unconfirm_conf (l : List Ch) (d : Dev) (k : Ch) (h : k ∈ l ∨ d.chs[k].conf = false) :
    (forCh l (fun e c => e.ch c fun x => { x with conf := false }) d).chs[k].conf = false := by
  induction l generalizing d with
  | nil => exact h.resolve_left List.not_mem_nil
  | cons a l ih =>
    refine ih (d.ch a fun x => { x with conf := false }) ?_
    rw [ch_get]
    by_cases hk : k = a
    · exact .inr (by rw [if_pos hk])
    · rw [if_neg hk]
      exact h.imp_left fun h => (List.mem_cons.1 h).resolve_left hk

theorem unconfirm_changes (d : Dev) (cs : List Ch) : ChangesIn (StopTouches d cs) Chan.stopLocks d.chs
    (forCh (cs.flatMap (halves d)) (fun e c => e.ch c fun x => { x with conf := false }) d).chs :=
  changesIn_forCh_ch (fun _ x => { x with conf := false }) _ d (fun _ hc => List.mem_flatMap.1 hc) fun _ _ => rfl

theorem forCh_stopOne_changes (d e : Dev) (cs l : List Ch) (sub : ∀ c ∈ l, c ∈ cs) (cfg : ∀ k : Ch, e.chs[k].cfg = d.chs[k].cfg) :
    ChangesIn (StopTouches d cs) Chan.stopKeeps e.chs (forCh l stopOne e).chs := by
  induction l generalizing e with
  | nil => exact changesIn_refl _
  | cons a l ih =>
    have one := stopOne_changes e a
    refine (one.mono fun k hk => ⟨a, sub a (List.mem_cons_self ..), halves_of_cfg (cfg a) ▸ hk⟩).trans
      (ih (stopOne e a) (fun c hc => sub c (List.mem_cons_of_mem _ hc)) fun k => (congrArg (·.2.2.1) (one k).1).trans (cfg k))

theorem stopped_changes (d : Dev) (cs : List Ch) : ChangesIn (StopTouches d cs) Chan.stopLocks d.chs (stopped d cs).chs :=
  have un := unconfirm_changes d cs
  un.trans ((forCh_stopOne_changes d _ cs cs (fun _ h => h) fun k => congrArg (·.2.2.1) (un k).1).weaken fun x =>
    (x.1, x.2.1, x.2.2.1, x.2.2.2.1))

theorem stopped_locks (d : Dev) (cs : List Ch) (k : Ch) :
    (stopped d cs).chs[k].prot.released = d.chs[k].prot.released ∧ (stopped d cs).chs[k].prot.latched = d.chs[k].prot.latched ∧
      (stopped d cs).chs[k].cfg = d.chs[k].cfg ∧ (stopped d cs).chs[k].prot.check = d.chs[k].prot.check := by
  have kept := (stopped_changes d cs k).1
  simpa only [Chan.stopLocks, Prod.mk.injEq] using kept

/-- The stop of a single released channel that runs no check. -/
theorem stopped_single (d : Dev) (c : Ch) (single : bridgedB d c = false) (check : d.chs[c].prot.check = none) :
    stopped d [c] = d.ch c fun x => triggerChan { x with conf := false } := by
  have cfg : (d.ch c fun x => { x with conf := false }).chs[c].cfg = d.chs[c].cfg := by rw [ch_same]
  have idle : ¬((d.ch c fun x => { x with conf := false }).chs[c].prot.check.isSome = true) := by
    rw [ch_same, check]; exact Bool.false_ne_true
  have first : forCh ([c].flatMap (halves d)) (fun e c => e.ch c fun x => { x with conf := false }) d = d.ch c fun x => { x with conf := false } := by
    rw [List.flatMap_singleton, halves_single d c single]; rfl
  unfold stopped
  rw [first]
  refine (if_neg idle).trans ?_
  rw [triggerStop, halves_of_cfg cfg, halves_single d c single]
  exact ch_ch d c _ triggerChan

theorem triggerChan_releases (x : Chan) (free : x.mod.halted = false) (rel : x.prot.released = true) (drive : x.prot.drive ≠ .safeStop) :
    triggerChan x = { x with prot := { x.prot with ssPend := true } } := by
  simp [triggerChan, free, rel, drive]

theorem stopped_conf (d : Dev) (cs : List Ch) (k : Ch) (hk : StopTouches d cs k) : (stopped d cs).chs[k].conf = false := by
  have kept := (forCh_stopOne_changes d _ cs cs (fun _ h => h) (fun k => congrArg (·.2.2.1) (unconfirm_changes d cs k).1) k).1
  exact (congrArg (·.2.2.2.2) kept).trans (unconfirm_conf _ d k (.inl (List.mem_flatMap.2 hk)))

theorem stopped_stopping (d : Dev) (cs : List Ch) (c h : Ch) (hc : c ∈ cs) (hh : h ∈ halves d c) (check : d.chs[c].prot.check = none) :
    (stopped d cs).chs[h].stopping :=
  forCh_stopOne_stopping d _ cs c h hc hh check fun k =>
    have un := (unconfirm_changes d cs k).1
    ⟨congrArg (·.2.2.1) un, congrArg (·.2.2.2) un⟩

theorem stopped_only (d : Dev) (cs : List Ch) : stopped d cs = { d with chs := (stopped d cs).chs } := by
  refine forCh_holds (fun e => e = { d with chs := e.chs }) _ (fun e a he => ?_) _ _ (forCh_ch_only _ _ d)
  split
  · exact he
  · refine (forCh_ch_only (fun _ => triggerChan) _ e).trans ?_
    rw [he]
    rfl

theorem doStop_chs (d : Dev) (r : CmdRef) (cs : List Ch) : (doStop d r cs).chs = (stopped d cs).chs := settleStops_chs _

theorem doStop_only (d : Dev) (r : CmdRef) (cs : List Ch) :
    let u := doStop d r cs
    u = { d with chs := u.chs, stops := u.stops, qif := u.qif, admin := u.admin } := by
  intro u
  apply dev_ext <;> simp [u]

/-- A channel number of a list of channels, looked up. -/
theorem look_val (d : Dev) (c : Ch) (x : Chan) : look d.chs c.val x = d.chs[c] := dif_pos c.isLt

/-- A stop with a released channel keeps waiting. -/
theorem doStop_waits (d : Dev) (r : CmdRef) (cs : List Ch) (h : Ch) (hh : StopTouches d cs h) (rel : d.chs[h].prot.released = true) :
    (r, (cs.flatMap (halves d)).map (·.val), d.tb.stc) ∈ (doStop d r cs).stops := by
  rw [doStop_eq, settleStops_stops]
  refine List.mem_filter.2 ⟨List.mem_append_right _ (List.mem_singleton_self _), ?_⟩
  have rel' : (stopped d cs).chs[h].prot.released = true := (stopped_locks d cs h).1.trans rel
  have gone : stopGone { stopped d cs with stops := (stopped d cs).stops ++ [(r, (cs.flatMap (halves d)).map (·.val), d.tb.stc)] }
      (r, (cs.flatMap (halves d)).map (·.val), d.tb.stc) = false :=
    List.all_eq_false.2 ⟨h.val, List.mem_map_of_mem (List.mem_flatMap.2 hh), by rw [look_val, rel']; exact Bool.false_ne_true⟩
  rw [gone]
  rfl

/-- A stop of channels that are all unreleased completes at once. -/
theorem doStop_completes (d : Dev) (r : CmdRef) (cs : List Ch) (none_ : d.stops = [])
    (off : ∀ h, StopTouches d cs h → d.chs[h].prot.released = false) :
    doStop d r cs = completeAt (stopped d cs) r 0x28 0 d.tb.stc := by
  have noStops : (stopped d cs).stops = [] := (congrArg Dev.stops (stopped_only d cs)).trans none_
  have gone : ((cs.flatMap (halves d)).map (·.val)).all (fun c => !(look (stopped d cs).chs c .reset).prot.released) = true := by
    refine List.all_eq_true.2 fun n hn => ?_
    obtain ⟨h, hh, rfl⟩ := List.mem_map.1 hn
    have touched := List.mem_flatMap.1 hh
    rw [look_val, (stopped_locks d cs h).1, off h touched]
    rfl
  have same : { stopped d cs with stops := [] } = stopped d cs := by rw [← noStops]
  rw [doStop_eq, noStops, List.nil_append]
  unfold settleStops
  dsimp only
  simp only [List.filter_cons, gone, if_true, List.filter_nil, List.foldl_cons, List.foldl_nil, Bool.not_true, Bool.false_eq_true, if_false]
  rw [same]
  rfl

/-- Settles O22: a stop by what it changes (`stopped_changes`, `stopped_stopping`) and what waits after it, the ends by their conditions. -/
theorem stopsAndTheirEnds : Obligations.StopsAndTheirEnds := by
  refine ⟨fun q d r c g => ⟨fun on => ?_, fun on single check free rel drive stops => next_congr ?_, fun on off stops => ?_, fun on => ?_,
      fun off => ⟨next_congr ?_, next_congr ?_⟩⟩,
    fun q d c g => ⟨fun drive count => ?_, fun not => next_congr ?_, fun k ramp len => next_congr ?_, fun k ramp len => next_congr ?_,
      fun ramp => next_congr ?_, fun clamp below fi => next_congr ?_, fun clamp below fi => next_congr ?_, fun not => next_congr ?_,
      fun not => next_congr ?_⟩⟩
  · have touches (k : Ch) : StopTouches d [c] k ↔ k ∈ halves d c := by simp [StopTouches]
    have chs := doStop_chs d r [c]
    refine ⟨doStop d r [c], next_congr (if_pos on), fun h hh => ?_, fun k out => ?_, fun ⟨h, hh, rel⟩ => ?_, doStop_only d r [c]⟩
    · dsimp only
      rw [chs]
      obtain ⟨released, latched, cfg, -⟩ := stopped_locks d [c] h
      exact ⟨stopped_conf d [c] h ((touches h).2 hh), released, latched, cfg, stopped_stopping d [c] c h (List.mem_singleton_self c) hh⟩
    · rw [chs]
      exact (stopped_changes d [c] k).2 fun hk => out ((touches k).1 hk)
    · have := doStop_waits d r [c] h ((touches h).2 hh) rel
      rwa [List.flatMap_singleton] at this
  · have one : stopped d [c] =
        { d with chs := d.chs.set c { d.chs[c] with conf := false, prot := { d.chs[c].prot with ssPend := true } } } := by
      rw [stopped_single d c single check, ch_congr d c _ (fun x => { x with conf := false, prot := { x.prot with ssPend := true } })
        (triggerChan_releases { d.chs[c] with conf := false } free rel drive)]
      rfl
    have rel' : (stopped d [c]).chs[c].prot.released = true := (stopped_locks d [c] c).1.trans rel
    have stays (l : List (CmdRef × List Nat × Nat)) : stopGone { stopped d [c] with stops := l } (r, [c.val], d.tb.stc) = false := by
      refine List.all_eq_false.2 ⟨c.val, List.mem_singleton_self _, ?_⟩
      rw [look_val, rel']
      exact Bool.false_ne_true
    have noStops : (stopped d [c]).stops = [] := (congrArg Dev.stops (stopped_only d [c])).trans stops
    refine (if_pos on).trans ?_
    rw [doStop_eq, List.flatMap_singleton, halves_single d c single, noStops, settleStops_none]
    · rw [one]; rfl
    · intro s hs
      rw [List.mem_singleton.1 hs]
      exact stays _
  · have touches (k : Ch) (hk : StopTouches d [c] k) : k ∈ halves d c := by simpa [StopTouches] using hk
    exact ⟨stopped d [c], next_congr ((if_pos on).trans (doStop_completes d r [c] stops fun h hh => off h (touches h hh))), stopped_only d [c]⟩
  · let e : Dev := { d with groupRel := d.groupRel.set g false, groupRamp := d.groupRamp.set g none }
    have chs := doStop_chs e r (groupChans d g)
    refine ⟨doStop e r (groupChans d g), next_congr (if_neg (by rw [on]; decide)), ?_, ?_, fun k hk => ?_, fun k out => ?_, ?_⟩
    · simp [e]
    · simp [e]
    · dsimp only
      rw [chs]
      have self : StopTouches e (groupChans d g) k := ⟨k, hk, halves_self e k⟩
      obtain ⟨released, latched, -, -⟩ := stopped_locks e (groupChans d g) k
      exact ⟨stopped_conf e _ k self, released, latched, stopped_stopping e _ k k hk (halves_self e k)⟩
    · rw [chs]
      exact (stopped_changes e (groupChans d g) k).2 fun ⟨c, hc, hk⟩ => out c hc hk
    · have := doStop_only e r (groupChans d g)
      exact this.trans (by simp [e])
  · exact if_neg (by rw [off]; exact Bool.false_ne_true)
  · exact if_pos off
  · have out : safeStopEndDev d c = settleStops (d.ch c chanOff) := if_pos ⟨drive, count⟩
    have chs : (safeStopEndDev d c).chs = (d.ch c chanOff).chs := by rw [out, settleStops_chs]
    refine ⟨safeStopEndDev d c, rfl, ?_, fun k hk => ?_, ?_⟩
    · rw [out]
      apply dev_ext <;> simp
    · rw [chs]; exact ch_other d c k chanOff hk
    · rw [chs, ch_same]; exact chanOff_spec _
  · exact if_neg fun ⟨drive, count⟩ => not.elim (· drive) (Nat.not_lt.2 count)
  · simp only [ramp, if_pos len]
  · simp only [ramp, if_neg (Nat.not_le.2 len)]
  · simp only [ramp]
  · simp only [clamp, below, fi]; rfl
  · simp only [clamp, below, fi]; rfl
  · rcases not with h | h | h <;> simp [h]
  · rcases not with h | h | h <;> simp [h]

end Sys2Proof.Machine
end

section
/-!
PROOFS. The short check of a channel or pair (R194, R195).
-/

namespace Sys2Proof.Machine

@[simp] theorem lead_lead (d : Dev) (c : Ch) : lead d (lead d c) = lead d c := by
  have even : evenOf (evenOf c) = evenOf c := Fin.ext (by simp only [evenOf]; omega)
  unfold lead
  by_cases h : bridgedB d c = true
  · rw [if_pos h, even, ite_self]
  · rw [if_neg h, if_neg h]

/-- A half of the pair whose short check ends with a cause. -/
def checkOver (cause : Nat) (x : Chan) : Chan :=
  let pass := decide (cause = 0x0C)
  let y := chanOff x
  { y with prot := { y.prot with check := none, cause := cause, latched := !pass, tripAt := if pass then [] else y.prot.tripAt
                                 dcNeg := if pass then none else y.prot.dcNeg } }

/-- The end of a check that runs: both halves off with its cause, and nothing of the other channels. -/
theorem checkFinish_chs (d : Dev) (c : Ch) (cause st : Nat) (k : Check) (run : d.chs[lead d c].prot.check = some k) (h : Ch) :
    (checkFinish d c cause st).chs[h] = if h ∈ halves d (lead d c) then checkOver cause d.chs[h] else d.chs[h] := by
  have chs : (checkFinish d c cause st).chs = (forCh (halves d (lead d c)) (fun e h => e.ch h (checkOver cause)) d).chs := by
    unfold checkFinish
    dsimp only
    rw [run]
    simp only [foldl_chs, completeAt_frame, hist_frame, implies_true]
    rfl
  rw [chs]
  exact forCh_ch_get (fun _ => checkOver cause) _ d (halves_nodup d _) h

/-- A step of a running check on both halves. -/
theorem checkStep_chs (d : Dev) (c : Ch) (f : Check → Check) (h : Ch) : (checkStep d c f).chs[h] =
    if h ∈ halves d c then { d.chs[h] with prot := { d.chs[h].prot with check := d.chs[h].prot.check.map f, ssCount := 0 } } else d.chs[h] :=
  forCh_ch_get (fun _ x => { x with prot := { x.prot with check := x.prot.check.map f, ssCount := 0 } }) _ d (halves_nodup d c) h

theorem checkStep_only (d : Dev) (c : Ch) (f : Check → Check) : checkStep d c f = { d with chs := (checkStep d c f).chs } :=
  forCh_ch_only (fun _ x => { x with prot := { x.prot with check := x.prot.check.map f, ssCount := 0 } }) _ d

section
variable (d : Dev) (c : Ch) (k : Check)

/-- What the obligation asks of the end of the check of the pair that `l` leads. -/
theorem checkFinish_ends (cause st : Nat) (run : d.chs[lead d c].prot.check = some k) :
    let u := checkFinish d (lead d c) cause st
    (∀ h ∈ halves d (lead d c), u.chs[h].mod.hs = false ∧ u.chs[h].mod.ls = false ∧ u.chs[h].prot.released = false ∧
      u.chs[h].prot.check = none ∧ u.chs[h].prot.cause = cause ∧ u.chs[h].prot.latched = decide (cause ≠ 0x0C)) ∧
      u.tb = d.tb ∧ u.rails = d.rails ∧ ∀ j : Ch, j ∉ halves d (lead d c) → u.chs[j] = d.chs[j] := by
  intro u
  have run' : d.chs[lead d (lead d c)].prot.check = some k := by simp only [lead_lead]; exact run
  have chs := checkFinish_chs d (lead d c) cause st k run'
  simp only [lead_lead] at chs
  refine ⟨fun h hh => ?_, by simp [u], by simp [u], fun j out => (chs j).trans (if_neg out)⟩
  rw [(chs h).trans (if_pos hh)]
  exact ⟨rfl, rfl, rfl, rfl, rfl, (decide_not ..).symm⟩

theorem checkObserved_early (run : d.chs[lead d c].prot.check = some k) (early : k.step ≠ 1 ∨ k.fi < 960) : checkObserved d c = d := by
  unfold checkObserved
  dsimp only
  rw [run]
  exact if_pos early

theorem checkObserved_over (run : d.chs[lead d c].prot.check = some k) (step : k.step = 1) (time : 960 ≤ k.fi) : checkObserved d c =
    if checkAny d (lead d c) (·.driven) then checkFinish d (lead d c) 0x0B 9
    else checkStep d (lead d c) fun k => { k with step := 2, fi := 0, sum := 0, cnt := 0, tripped := false } := by
  unfold checkObserved
  dsimp only
  rw [run]
  exact if_neg (by omega)

theorem checkDriven_early (run : d.chs[lead d c].prot.check = some k) (early : k.step ≠ 2 ∨ k.fi < 1920) : checkDriven d c = d := by
  unfold checkDriven
  dsimp only
  rw [run]
  exact if_pos early

theorem checkDriven_over (run : d.chs[lead d c].prot.check = some k) (step : k.step = 2) (time : 1920 ≤ k.fi) : checkDriven d c =
    checkStep d (lead d c) fun j => { j with step := 4, outcome := checkJudge k (checkAny d (lead d c) (·.tripped)) } := by
  unfold checkDriven
  dsimp only
  rw [run]
  exact if_neg (by omega)

theorem checkEnded_early (run : d.chs[lead d c].prot.check = some k)
    (early : k.step ≠ 4 ∨ ∃ h ∈ halves d (lead d c), d.chs[h].prot.ssCount < 16) : checkEnded d c = d := by
  unfold checkEnded
  dsimp only
  rw [run]
  refine if_pos (early.imp_right fun ⟨h, hh, few⟩ => ?_)
  rw [List.all_eq_false.2 ⟨h, hh, by rw [decide_eq_false (Nat.not_le.2 few)]; exact Bool.false_ne_true⟩]
  rfl

theorem checkEnded_over (run : d.chs[lead d c].prot.check = some k) (step : k.step = 4)
    (time : ∀ h ∈ halves d (lead d c), 16 ≤ d.chs[h].prot.ssCount) : checkEnded d c =
    checkFinish d (lead d c) k.outcome (if k.outcome = 0x0C then 0 else 9) := by
  unfold checkEnded
  dsimp only
  rw [run]
  refine if_neg (not_or.2 ⟨Classical.not_not.2 step, ?_⟩)
  rw [List.all_eq_true.2 fun h hh => decide_eq_true (time h hh)]
  exact Bool.false_ne_true

end

/-- The verdict of the drive by its thresholds (R194). -/
theorem checkJudge_cases (k : Check) (tripped : Bool) :
    (tripped = true → checkJudge k tripped = 0x0A) ∧
    (tripped = false → (k.cnt : Int) * 2 ^ 23 < 100 * k.sum → checkJudge k tripped = 0x0A) ∧
    (tripped = false → 100 * k.sum ≤ (k.cnt : Int) * 2 ^ 23 → 1000 * k.sum < -((k.cnt : Int) * 2 ^ 23) → checkJudge k tripped = 0x0B) ∧
    (tripped = false → 100 * k.sum ≤ (k.cnt : Int) * 2 ^ 23 → -((k.cnt : Int) * 2 ^ 23) ≤ 1000 * k.sum → checkJudge k tripped = 0x0C) := by
  refine ⟨fun t => if_pos t, fun t high => ?_, fun t low high => ?_, fun t low mid => ?_⟩ <;> subst t <;> unfold checkJudge
  · rw [if_neg Bool.false_ne_true, if_pos high]
  · rw [if_neg Bool.false_ne_true, if_neg (Int.not_lt.2 low), if_pos high]
  · rw [if_neg Bool.false_ne_true, if_neg (Int.not_lt.2 low), if_neg (Int.not_lt.2 mid)]

/-- Settles O24: each end of a step by whether its time has come, and the verdict by its thresholds. -/
theorem shortChecks : Obligations.ShortChecks := by
  refine ⟨fun q d c => ?_, checkJudge_cases⟩
  intro l
  have goes (f : Check → Check) : checkStep d l f = { d with chs := (checkStep d l f).chs } ∧
      (∀ j : Ch, j ∉ halves d l → (checkStep d l f).chs[j] = d.chs[j]) ∧ ∀ h ∈ halves d l, (checkStep d l f).chs[h] =
        { d.chs[h] with prot := { d.chs[h].prot with ssCount := 0, check := d.chs[h].prot.check.map f } } :=
    ⟨checkStep_only d l f, fun j out => (checkStep_chs d l f j).trans (if_neg out), fun h hh => (checkStep_chs d l f h).trans (if_pos hh)⟩
  refine ⟨fun idle => ⟨next_congr ?_, next_congr ?_, next_congr ?_⟩, fun k run => ?_⟩
  · unfold checkObserved
    dsimp only
    rw [idle]
  · unfold checkDriven
    dsimp only
    rw [idle]
  · unfold checkEnded
    dsimp only
    rw [idle]
  intro ends goes'
  refine ⟨fun step time driven => ?_, fun step time idle => ?_, fun step time => ?_, fun step time => ?_,
    fun early => next_congr (checkObserved_early d c k run early), fun early => next_congr (checkDriven_early d c k run early),
    fun early => next_congr (checkEnded_early d c k run early)⟩
  · exact ⟨_, next_congr ((checkObserved_over d c k run step time).trans (if_pos driven)), checkFinish_ends d c k 0x0B 9 run⟩
  · exact ⟨_, next_congr ((checkObserved_over d c k run step time).trans (if_neg (by rw [idle]; exact Bool.false_ne_true))), goes _⟩
  · exact ⟨_, next_congr (checkDriven_over d c k run step time), goes _⟩
  · exact ⟨_, next_congr (checkEnded_over d c k run step time), checkFinish_ends d c k _ _ run⟩

end Sys2Proof.Machine
end

section
/-!
PROOFS. Class 1 trips, the DC timer and the loss of a carrier (R172 to R176, R184, R187, R188).
-/

namespace Sys2Proof.Machine

/-! ### The pair of a channel -/

/-- The halves that the lead of a channel acts on are among the channel's own. -/
theorem halves_lead_sub (d : Dev) (c k : Ch) (h : k ∈ halves d (lead d c)) : k ∈ halves d c := by
  have even : evenOf (evenOf c) = evenOf c := Fin.ext (by simp only [evenOf]; omega)
  have odd : oddOf (evenOf c) = oddOf c := Fin.ext (by simp only [evenOf, oddOf]; omega)
  by_cases pair : bridgedB d c = true
  · rw [halves_pair d c pair]
    rw [lead, if_pos pair] at h
    unfold halves at h
    split at h
    · rwa [even, odd] at h
    · exact List.mem_cons.2 (.inl (List.mem_singleton.1 h))
  · rwa [lead, if_neg pair] at h

/-! ### The end of a measurement under a latch -/

theorem measStop_changes (d : Dev) (c : Ch) (st : Nat) :
    ChangesIn (· ∈ halves d (lead d c)) Chan.cfg d.chs (measStop d c st).chs := by
  unfold measStop
  dsimp only
  split
  · exact changesIn_refl _
  · refine (changesIn_forCh_ch (fun _ x => if x.prot.drive = .measure then chanOff x else x) _ d (fun _ h => h) fun _ x => ?_).trans
      (measComplete_changes _ _ _ _ (halves_self _ _) fun _ _ => rfl)
    split <;> rfl

/-- What holds of a channel that is off, and does not speak of its measurement, a measurement that stops keeps. -/
theorem measStop_holds (P : Chan → Prop) (off : ∀ x, P x → P (chanOff x)) (meas : ∀ x o, P x → P { x with meas := o })
    (d : Dev) (c k : Ch) (st : Nat) (h : P d.chs[k]) : P (measStop d c st).chs[k] := by
  unfold measStop
  dsimp only
  split
  · exact h
  · unfold measComplete
    dsimp only
    rw [ch_get]
    simp only [freeUnits_frame, complete_frame, hostWrite_frame]
    have one : P (forCh (halves d (lead d c)) (fun e h => e.ch h fun x => if x.prot.drive = .measure then chanOff x else x) d).chs[k] := by
      refine forCh_holds (fun e => P e.chs[k]) _ (fun e a he => ?_) _ d h
      rw [ch_get]
      split
      · split
        · exact off _ he
        · exact he
      · exact he
    split
    · exact meas _ _ one
    · exact one

/-! ### The latch of a channel -/

/-- One half of a pair that a protection latches with a cause. -/
def latchOne (cause : Nat) (x : Chan) : Chan :=
  let y := chanOff x
  { y with prot := { y.prot with latched := true, cause := if y.prot.latched then y.prot.cause else cause } }

/-- A channel that is off, unreleased and latched. -/
def Chan.latchedOff (x : Chan) : Prop := x.mod.hs = false ∧ x.mod.ls = false ∧ x.prot.released = false ∧ x.prot.latched = true

theorem latch_chs (d : Dev) (c : Ch) (cause detail evt : Nat) : ∃ e : Dev, e.chs = (forCh (halves d c) (fun e h => e.ch h (latchOne cause)) d).chs ∧
    (latch d c cause detail evt).chs = (measStop e c 9).chs :=
  ⟨forCh (halves d c) (fun e h => e.ch h (latchOne cause)) d, rfl, by
    unfold latch
    simp only [settleStops_chs, setGrd_frame, hist_frame]
    rfl⟩

theorem latch_latched (d : Dev) (c : Ch) (cause detail evt : Nat) (h : Ch) (hh : h ∈ halves d c) :
    (latch d c cause detail evt).chs[h].latchedOff ∧
      (latch d c cause detail evt).chs[h].prot.cause = if d.chs[h].prot.latched then d.chs[h].prot.cause else cause := by
  obtain ⟨e, he, chs⟩ := latch_chs d c cause detail evt
  have one : e.chs[h] = latchOne cause d.chs[h] := by
    rw [he]
    exact (forCh_ch_get (fun _ => latchOne cause) _ d (halves_nodup d c) h).trans (if_pos hh)
  rw [chs]
  refine ⟨measStop_holds Chan.latchedOff (fun x hx => ⟨rfl, rfl, rfl, hx.2.2.2⟩) (fun _ _ hx => hx) e c h 9 ?_,
    measStop_holds (fun x => x.prot.cause = _) (fun _ hx => hx) (fun _ _ hx => hx) e c h 9 ?_⟩ <;> rw [one]
  · exact ⟨rfl, rfl, rfl, rfl⟩
  · rfl

theorem latch_changes (d : Dev) (c : Ch) (cause detail evt : Nat) :
    ChangesIn (· ∈ halves d c) Chan.cfg d.chs (latch d c cause detail evt).chs := by
  obtain ⟨e, he, chs⟩ := latch_chs d c cause detail evt
  have one : ChangesIn (· ∈ halves d c) Chan.cfg d.chs e.chs :=
    he ▸ changesIn_forCh_ch (fun _ => latchOne cause) _ d (fun _ h => h) fun _ _ => rfl
  rw [chs]
  exact one.trans ((measStop_changes e c 9).mono fun k hk => halves_of_cfg (one c).1 ▸ halves_lead_sub e c k hk)

theorem latch_event (d : Dev) (c : Ch) (cause detail evt : Nat) (small : evt < 16) :
    (latch d c cause detail evt).guard.event.getLsbD evt = true := by
  unfold latch
  simp only [settleStops_frame]
  exact setGrd_bit _ _ small

/-! ### Class 1 -/

/-- A channel whose switch a class 1 trip turns off, the trip counted. -/
def tripChan (low : Bool) (pos : Nat) (x : Chan) : Chan :=
  let p := countTrip x.prot
  { x with prot := { p with check := p.check.map fun k => if k.step = 2 then { k with tripped := true } else k }, mod := tripGates x.mod low pos }

/-- The part after a class 1 trip but for what its trip count brings. -/
def tripNoted (d : Dev) (c : Ch) (low : Bool) (pos : Nat) : Dev :=
  let d1 := d.ch c (tripChan low pos)
  match d.chs[lead d c].meas with
  | some m => d1.ch (lead d c) fun x => { x with meas := some { m with tripped := true } }
  | none => d1

theorem class1_eq (d : Dev) (c : Ch) (low : Bool) (pos ma : Nat) : class1 d c low pos ma =
    let x := d.chs[c]
    let n := winCount (countTrip x.prot) x.cfg.tripWindow
    if (if low then x.mod.ls else x.mod.hs) && unblanked x pos && decide (50 * classLimit x < ma) then
      if x.cfg.tripCount ≤ n then
        if x.prot.latched then setGrd (hist (tripNoted d c low pos) c.val 1 (satN 0xFF n) false) 5
        else latch (tripNoted d c low pos) c 1 (satN 0xFF n) 5
      else tripNoted d c low pos
    else d := by
  have one : d.ch c (tripChan low pos) = d.ch c fun x =>
      { x with prot := (tripChan low pos d.chs[c]).prot, mod := tripGates x.mod low pos } := ch_congr d c _ _ rfl
  unfold tripNoted
  rw [one]
  rfl

/-- Beside the channel that tripped, a trip changes at most the measurement of the pair's lead. -/
theorem tripNoted_eq (d : Dev) (c : Ch) (low : Bool) (pos : Nat) : ∃ f : Chan → Chan,
    (∀ x, (f x).mod = x.mod ∧ (f x).prot = x.prot ∧ (f x).cfg = x.cfg) ∧
      tripNoted d c low pos = (d.ch c (tripChan low pos)).ch (lead d c) f := by
  unfold tripNoted
  dsimp only
  split
  next m _ => exact ⟨fun x => { x with meas := some { m with tripped := true } }, fun _ => ⟨rfl, rfl, rfl⟩, rfl⟩
  · exact ⟨fun x => x, fun _ => ⟨rfl, rfl, rfl⟩, (ch_id _ _).symm⟩

/-- What a trip notes of its channel. -/
theorem tripNoted_same (d : Dev) (c : Ch) (low : Bool) (pos : Nat) :
    (tripNoted d c low pos).chs[c].mod = tripGates d.chs[c].mod low pos ∧ (tripNoted d c low pos).chs[c].cfg = d.chs[c].cfg ∧
      (tripNoted d c low pos).chs[c].prot = (tripChan low pos d.chs[c]).prot := by
  obtain ⟨f, keeps, e⟩ := tripNoted_eq d c low pos
  obtain ⟨mod, prot, cfg⟩ := keeps (tripChan low pos d.chs[c])
  rw [e, ch_get, ch_same]
  split
  · exact ⟨mod, cfg, prot⟩
  · exact ⟨rfl, rfl, rfl⟩

theorem tripNoted_other (d : Dev) (c k : Ch) (low : Bool) (pos : Nat) (hk : k ≠ c) :
    (tripNoted d c low pos).chs[k].mod = d.chs[k].mod ∧ (tripNoted d c low pos).chs[k].prot = d.chs[k].prot ∧
      (tripNoted d c low pos).chs[k].cfg = d.chs[k].cfg ∧ (k ≠ lead d c → (tripNoted d c low pos).chs[k] = d.chs[k]) := by
  obtain ⟨f, keeps, e⟩ := tripNoted_eq d c low pos
  obtain ⟨mod, prot, cfg⟩ := keeps d.chs[k]
  rw [e, ch_get, ch_other _ _ _ _ hk]
  split
  next h => exact ⟨mod, prot, cfg, fun ne => absurd h ne⟩
  · exact ⟨rfl, rfl, rfl, fun _ => rfl⟩

theorem tripNoted_only (d : Dev) (c : Ch) (low : Bool) (pos : Nat) : tripNoted d c low pos = { d with chs := (tripNoted d c low pos).chs } := by
  obtain ⟨f, -, e⟩ := tripNoted_eq d c low pos
  rw [e]
  rfl

theorem countTrip_keeps (p : Prot) : (countTrip p).latched = p.latched ∧ (countTrip p).check = p.check ∧ (countTrip p).cause = p.cause := by
  unfold countTrip
  split <;> exact ⟨rfl, rfl, rfl⟩

theorem tripGates_eq (m : Mod) (low : Bool) (pos : Nat) : tripGates m low pos = { m with
    hs := if low then m.hs else false
    ls := if low then false else m.ls
    flags := { m.flags with trip := true }
    tripPend := true
    tripSmp := true
    edgeAt := pos
    plan := if m.halted ∨ (low = false ∧ 16 * m.period ≤ pos + m.dead) then [] else [⟨pos + m.dead, low, true⟩] } := by
  unfold tripGates
  cases low <;> rfl

/-! ### DC and carrier loss -/

/-- The halves that a DC or carrier-loss latch turns off: those of the pair's procedure where its short check runs. -/
def latchHalves (d : Dev) (c : Ch) : List Ch := if d.chs[lead d c].prot.check.isSome then halves d (lead d c) else halves d c

theorem guardLatch_event (d : Dev) (c : Ch) (cause evt : Nat) (small : evt < 16) : (guardLatch d c cause evt).guard.event.getLsbD evt = true := by
  unfold guardLatch
  split
  · simp only [settleStops_frame]
    exact setGrd_bit _ _ small
  · exact latch_event d c cause 0 evt small

theorem guardLatch_off (d : Dev) (c : Ch) (cause evt : Nat) (fails : cause ≠ 0x0C) (h : Ch) (hh : h ∈ latchHalves d c) :
    (guardLatch d c cause evt).chs[h].latchedOff := by
  unfold guardLatch
  unfold latchHalves at hh
  split at hh
  next run =>
    obtain ⟨k, run'⟩ := Option.isSome_iff_exists.1 run
    rw [if_pos run, settleStops_chs]
    simp only [setGrd_frame]
    rw [checkFinish_chs d c cause stLatched k run', if_pos hh]
    exact ⟨rfl, rfl, rfl, by simp [checkOver, fails]⟩
  next idle =>
    rw [if_neg idle]
    exact (latch_latched d c cause 0 evt h hh).1

theorem guardLatch_changes (d : Dev) (c : Ch) (cause evt : Nat) : ChangesIn (· ∈ latchHalves d c) Chan.cfg d.chs (guardLatch d c cause evt).chs := by
  unfold guardLatch latchHalves
  split
  next run =>
    obtain ⟨k, run'⟩ := Option.isSome_iff_exists.1 run
    intro j
    rw [settleStops_chs]
    simp only [setGrd_frame]
    rw [checkFinish_chs d c cause stLatched k run']
    split
    next hj => exact ⟨rfl, fun out => absurd hj out⟩
    · exact ⟨rfl, fun _ => rfl⟩
  · exact latch_changes d c cause 0 evt

/-- The channels but for those that a DC or carrier-loss latch turns off, and the halves of the pair. -/
theorem guardLatch_frees (d : Dev) (c : Ch) (cause evt : Nat) (k : Ch) (out : k ∉ latchHalves d c) :
    (guardLatch d c cause evt).chs[k] = d.chs[k] := (guardLatch_changes d c cause evt k).2 out

/-- The condition of a class 1 trip: the switch on, its comparator not blanked, the current above the limit. -/
def trips (d : Dev) (c : Ch) (low : Bool) (pos ma : Nat) : Bool :=
  (if low then d.chs[c].mod.ls else d.chs[c].mod.hs) && unblanked d.chs[c] pos && decide (50 * classLimit d.chs[c] < ma)

theorem trips_iff (d : Dev) (c : Ch) (low : Bool) (pos ma : Nat) : trips d c low pos ma = true ↔
    (if low then d.chs[c].mod.ls else d.chs[c].mod.hs) = true ∧ d.chs[c].mod.edgeAt + 16 * (d.chs[c].cfg.blank : Int) ≤ pos ∧
      50 * classLimit d.chs[c] < ma := by
  simp only [trips, unblanked, Bool.and_eq_true, decide_eq_true_eq, and_assoc]

theorem dcTripDev_runs (d : Dev) (c : Ch) (runs : d.chs[c].prot.dcNeg.isSome = true) :
    dcTripDev d c = (guardLatch d c 2 6).ch c fun x => { x with prot := { x.prot with dcNeg := none } } := if_pos runs

/-- Settles O25: a trip by what it notes and the latch that its count brings, the timer and the carrier by `guardLatch`. -/
theorem class1AndDcTrips : Obligations.Class1AndDcTrips := by
  refine ⟨fun q d c low pos ma => ?_, fun q d c neg => ?_⟩
  · intro x on trips_ counted n tripped
    obtain ⟨mod, cfg, prot⟩ := tripNoted_same d c low pos
    have mod' : (tripNoted d c low pos).chs[c].mod = tripped := mod.trans (tripGates_eq _ low pos)
    obtain ⟨latched, check, cause⟩ := countTrip_keeps d.chs[c].prot
    refine ⟨fun t few => ?_, fun t many free => ?_, fun t many was => ?_, fun no => ?_⟩
    · have h : class1 d c low pos ma = tripNoted d c low pos := by
        rw [class1_eq]
        exact (if_pos ((trips_iff d c low pos ma).2 t)).trans (if_neg (Nat.not_le.2 few))
      refine ⟨tripNoted d c low pos, next_congr h, tripNoted_only d c low pos, mod', ?_, cfg, fun none_ => ?_, fun k hk => ?_⟩
      · rw [prot]; rfl
      · rw [prot]
        show ((countTrip d.chs[c].prot).check.map _) = none
        rw [check, none_]; rfl
      · obtain ⟨kmod, kprot, -, rest⟩ := tripNoted_other d c k low pos hk
        exact ⟨kmod, kprot, rest⟩
    · have h : class1 d c low pos ma = latch (tripNoted d c low pos) c 1 (satN 0xFF n) 5 := by
        rw [class1_eq]
        exact (if_pos ((trips_iff d c low pos ma).2 t)).trans ((if_pos many).trans (if_neg (by rw [free]; exact Bool.false_ne_true)))
      have same : halves (tripNoted d c low pos) c = halves d c := halves_of_cfg cfg
      refine ⟨_, next_congr h, fun k hk => (latch_latched _ c 1 _ 5 k (same ▸ hk)).1, ?_, latch_event _ c 1 _ 5 (by decide), fun k out notLead => ?_,
        ?_, ?_, ?_⟩
      · rw [(latch_latched _ c 1 _ 5 c (halves_self _ c)).2, prot]
        refine if_neg ?_
        show ¬(countTrip d.chs[c].prot).latched = true
        rw [latched, free]
        exact Bool.false_ne_true
      · rw [(latch_changes _ c 1 _ 5 k).2 fun hk => out (same ▸ hk)]
        exact (tripNoted_other d c k low pos fun hk => out (hk ▸ halves_self d c)).2.2.2 notLead
      all_goals
        rw [tripNoted_only]
        simp
    · have h : class1 d c low pos ma = setGrd (hist (tripNoted d c low pos) c.val 1 (satN 0xFF n) false) 5 := by
        rw [class1_eq]
        exact (if_pos ((trips_iff d c low pos ma).2 t)).trans ((if_pos many).trans (if_pos was))
      refine ⟨_, next_congr h, ?_, ?_, setGrd_bit _ _ (by decide), ?_, ?_, ?_⟩
      · simp only [setGrd_frame, hist_frame]; exact mod'
      · simp only [setGrd_frame, hist_frame]
        rw [prot]
        exact latched.trans was
      all_goals
        rw [tripNoted_only]
        simp
    · refine next_congr ?_
      show class1 d c low pos ma = d
      rw [class1_eq]
      exact if_neg fun t => no ((trips_iff d c low pos ma).1 t)
  · intro hs off
    have offs (cause evt : Nat) (fails : cause ≠ 0x0C) (u : Dev) (same : ∀ k : Ch, (guardLatch d c cause evt).chs[k].latchedOff → u.chs[k].latchedOff)
        (frees : ∀ k : Ch, k ∉ halves d c → k ≠ c → u.chs[k] = (guardLatch d c cause evt).chs[k])
        (rails : u.rails = (guardLatch d c cause evt).rails) (tb : u.tb = (guardLatch d c cause evt).tb) : off u :=
      ⟨fun h hh => same h (guardLatch_off d c cause evt fails h hh),
        fun k out notHalf notSelf _ => (frees k notHalf notSelf).trans (guardLatch_frees d c cause evt k out),
        rails.trans (by simp), tb.trans (by simp)⟩
    refine ⟨rfl, rfl, fun runs => ?_, fun idle => next_congr ?_, fun sw free => ?_, fun no => next_congr ?_⟩
    · refine ⟨(guardLatch d c 2 6).ch c fun x => { x with prot := { x.prot with dcNeg := none } }, next_congr (dcTripDev_runs d c runs),
        offs 2 6 (by decide) _ (fun k hk => ?_) (fun k _ notSelf => ch_other _ _ _ _ notSelf) rfl rfl, ?_, guardLatch_event d c 2 6 (by decide)⟩
      · rw [ch_get]
        split <;> exact hk
      · rw [ch_same]
    · exact if_neg (by rw [idle]; exact Bool.false_ne_true)
    · have h : carrierLossDev d c = forCh (halves d c) (fun e h => e.ch h fun x => { x with lost := true }) (guardLatch d c 3 4) :=
        if_pos (by rw [sw, free]; rfl)
      have chs := forCh_ch_get (fun _ x => { x with lost := true }) (halves d c) (guardLatch d c 3 4) (halves_nodup d c)
      refine ⟨_, next_congr h, offs 3 4 (by decide) _ (fun k hk => ?_) (fun k notHalf _ => (chs k).trans (if_neg notHalf)) (by simp) (by simp),
        fun k hk => ?_, ?_⟩
      · rw [chs k]
        split <;> exact hk
      · rw [chs k, if_pos hk]
      · simp only [forCh_guard, ch_frame, implies_true]
        exact guardLatch_event d c 3 4 (by decide)
    · refine if_neg fun h => ?_
      obtain ⟨sw, free⟩ := Bool.and_eq_true_iff.1 h
      rcases no with no | no
      · rw [no] at sw; exact Bool.false_ne_true sw
      · rw [no] at free; exact Bool.false_ne_true free

end Sys2Proof.Machine
end

section
/-!
PROOFS. The guard's pins, its backstop and its releases of every channel (R178 to R186, R533, R540).
-/

namespace Sys2Proof.Machine

/-! ### Stops from outside -/

theorem guard_of_sans {g h : Guard} (e : g.sansHist = h.sansHist) :
    g.trip = h.trip ∧ g.safe = h.safe ∧ g.prsnt = h.prsnt ∧ g.backstops = h.backstops ∧ g.event = h.event ∧ g.thermLatch = h.thermLatch ∧
      g.ovP = h.ovP ∧ g.ovN = h.ovN ∧ g.uvP = h.uvP ∧ g.uvN = h.uvN :=
  have get {α : Type} (f : Guard → α) : f g.sansHist = f h.sansHist := congrArg f e
  ⟨get (·.trip), get (·.safe), get (·.prsnt), get (·.backstops), get (·.event), get (·.thermLatch), get (·.ovP), get (·.ovN), get (·.uvP), get (·.uvN)⟩

/-- What `setGrd` leaves of the guard beside the event bit it sets. -/
theorem setGrd_keeps (d : Dev) (i : Nat) :
    let g := (setGrd d i).guard
    g.trip = d.guard.trip ∧ g.safe = d.guard.safe ∧ g.prsnt = d.guard.prsnt ∧ g.backstops = d.guard.backstops ∧ g.thermLatch = d.guard.thermLatch ∧
      g.ovP = d.guard.ovP ∧ g.ovN = d.guard.ovN ∧ g.uvP = d.guard.uvP ∧ g.uvN = d.guard.uvN := by
  rw [setGrd_guard]
  split <;> simp only [and_self]

/-- The part that a record, an event bit and a stop from outside leave: the guard's levels but for the event bit. -/
theorem stopEvent_guard (d : Dev) (cs : List Ch) (ch cause detail evt : Nat) (l : Bool) (small : evt < 16) :
    let g := (stopFrom (setGrd (hist d ch cause detail l) evt) cs).guard
    g.trip = d.guard.trip ∧ g.safe = d.guard.safe ∧ g.prsnt = d.guard.prsnt ∧ g.backstops = d.guard.backstops ∧ g.event.getLsbD evt = true := by
  intro g
  obtain ⟨trip, safe, prsnt, backstops, event, -⟩ := guard_of_sans (stopFrom_sans (setGrd (hist d ch cause detail l) evt) cs)
  obtain ⟨trip', safe', prsnt', backstops', -⟩ := setGrd_keeps (hist d ch cause detail l) evt
  obtain ⟨trip'', safe'', prsnt'', backstops'', -⟩ := guard_of_sans (hist_sans d ch cause detail l)
  refine ⟨(trip.trans trip').trans trip'', (safe.trans safe').trans safe'', (prsnt.trans prsnt').trans prsnt'',
    (backstops.trans backstops').trans backstops'', ?_⟩
  rw [event]
  exact setGrd_bit _ _ small

theorem stopFrom_stops (d : Dev) (cs : List Ch) (c : Ch) (hc : c ∈ cs) : (stopFrom d cs).chs[c].prot.released = true →
    (stopFrom d cs).chs[c].prot.drive = .safeStop ∨ (stopFrom d cs).chs[c].prot.ssPend = true := by
  have h := stopFrom_stopping d cs c (.inl hc)
  rwa [Chan.stopping] at h

theorem measOutside_changes {α : Type} (keep : Chan → α) (pend : ∀ x, keep { x with prot := { x.prot with ssPend := true } } = keep x)
    (meas : ∀ x o, keep { x with meas := o } = keep x) (d : Dev) (c : Ch) : ChangesIn (fun _ => True) keep d.chs (measOutside d c).chs := by
  unfold measOutside
  dsimp only
  split
  · exact changesIn_refl _
  · refine (changesIn_forCh_ch (fun _ x => if x.prot.drive = .measure then { x with prot := { x.prot with ssPend := true } } else x) _ d
      (fun _ _ => trivial) fun _ x => ?_).trans (measComplete_changes _ _ _ _ trivial meas)
    split
    · exact pend x
    · rfl

/-- Where no short check runs a stop from outside changes no latch. -/
theorem stopFrom_latches (d : Dev) (cs : List Ch) (idle : ∀ k : Ch, d.chs[k].prot.check = none) (c : Ch) :
    (stopFrom d cs).chs[c].prot.latched = d.chs[c].prot.latched := by
  have holds : ∀ k : Ch, (stopFrom d cs).chs[k].prot.check = none ∧ (stopFrom d cs).chs[k].prot.latched = d.chs[k].prot.latched := by
    unfold stopFrom
    rw [settleStops_chs]
    refine forCh_holds (fun e => ∀ k : Ch, e.chs[k].prot.check = none ∧ e.chs[k].prot.latched = d.chs[k].prot.latched) _ (fun e a he k => ?_) _ d
      fun k => ⟨idle k, rfl⟩
    have none_ : checkAbandon e a = e := by
      unfold checkAbandon checkFinish
      dsimp only
      rw [(he _).1]
    have meas := (measOutside_changes (fun x => (x.prot.check, x.prot.latched)) (fun _ => rfl) (fun _ _ => rfl) e a k).1
    have trig := (triggerStop_changes (measOutside e a) a k).1
    simp only [Chan.stopKeeps, Prod.mk.injEq] at meas trig
    obtain ⟨-, latched, -, check, -⟩ := trig
    rw [none_]
    exact ⟨(check.trans meas.1).trans (he k).1, (latched.trans meas.2).trans (he k).2⟩
  exact (holds c).2

/-! ### The backstop -/

/-- A channel whose switches no one drives stays so when its check or measurement drops. -/
theorem dropWork_still (d : Dev) (c k : Ch) (h : switching d.chs[k] = false) : switching (dropWork d c).chs[k] = false := by
  refine measStop_holds (fun x => switching x = false) (fun _ _ => rfl) (fun _ _ hx => hx) _ c k _ ?_
  unfold checkAbandon
  cases run : d.chs[lead d c].prot.check with
  | none =>
    unfold checkFinish
    dsimp only
    rw [run]
    exact h
  | some j =>
    rw [checkFinish_chs d c 0x0D stNotReady j run]
    split
    · rfl
    · exact h

/-- The backstop's release of one channel. -/
def backstopOne (cause : Nat) (e : Dev) (c : Ch) : Dev :=
  if switching e.chs[c] then hist (guardOff (dropWork e c) c) c.val cause 0 false else e

theorem backstopOne_still (cause : Nat) (e : Dev) (c k : Ch) (h : k = c ∨ switching e.chs[k] = false) :
    switching (backstopOne cause e c).chs[k] = false := by
  unfold backstopOne
  split
  · simp only [hist_frame]
    unfold guardOff
    rw [ch_get]
    split
    · rfl
    next ne => exact dropWork_still e c k (h.resolve_left ne)
  next off => exact h.elim (fun h => by rw [h]; exact Bool.eq_false_iff.2 off) id

/-- After the backstop no channel of its list switches, nor one that did not before. -/
theorem forCh_backstopOne_still (cause : Nat) (l : List Ch) (d : Dev) (k : Ch) (h : k ∈ l ∨ switching d.chs[k] = false) :
    switching (forCh l (backstopOne cause) d).chs[k] = false := by
  induction l generalizing d with
  | nil => exact h.resolve_left List.not_mem_nil
  | cons a l ih =>
    refine ih (backstopOne cause d a) ?_
    rcases h with h | h
    · rcases List.mem_cons.1 h with h | h
      · exact .inr (backstopOne_still cause d a k (.inl h))
      · exact .inl h
    · exact .inr (backstopOne_still cause d a k (.inr h))

theorem backstopRelease_still (d : Dev) (cause : Nat) (k : Ch) : switching (backstopRelease d cause).chs[k] = false := by
  have chs : (backstopRelease d cause).chs = (forCh (ixs 128) (backstopOne cause) d).chs := settleStops_chs _
  rw [chs]
  exact forCh_backstopOne_still cause _ d k (.inl (mem_ixs k))

theorem backstopRelease_sans (d : Dev) (cause : Nat) : (backstopRelease d cause).guard.sansHist = d.guard.sansHist := by
  unfold backstopRelease
  simp only [settleStops_frame]
  refine foldl_keeps (fun e => e.guard.sansHist) _ (fun e a => ?_) _ d
  split
  · rw [hist_sans, (guardOff_frame _ a).2.2.1, dropWork_sans]
  · rfl

/-! ### The commands -/

/-- The hot-swap gates turned off: precharge is no longer complete, unless it had failed. -/
theorem hsgOff_pre (d : Dev) : (hsgOff d).rails.preState = if d.rails.preState = 5 then 5 else 0 := rfl

/-- Settles O26, by what a stop from outside leaves (`stopEvent_guard`, `stopFrom_stopping`, `stopFrom_latches`) and the backstop's release of
every channel that switches. -/
theorem pinsAndBackstop : Obligations.PinsAndBackstop := by
  refine ⟨fun q d p => ⟨fun low => ?_, fun high => next_congr (if_pos high), rfl⟩, fun q d => ?_⟩
  · let d1 : Dev := { d with guard := { d.guard with trip := d.guard.trip ||| (1#8 <<< p.val) } }
    have h : tripPinDev d p = stopFrom (setGrd (hist d1 0xFF 4 p.val false) (8 + p.val)) (maskChans d p) :=
      if_neg (by rw [low]; exact Bool.false_ne_true)
    have chs : (setGrd (hist d1 0xFF 4 p.val false) (8 + p.val)).chs = d.chs := by simp only [setGrd_frame, hist_frame]; rfl
    obtain ⟨trip, -, -, -, event⟩ := stopEvent_guard d1 (maskChans d p) 0xFF 4 p.val (8 + p.val) false (by omega)
    refine ⟨_, next_congr h, trip, event, fun c mask => stopFrom_stops _ _ c (List.mem_filter.2 ⟨mem_ixs c, mask⟩), fun idle c => ?_,
      by simp [d1], by simp [d1], by simp [d1], by simp [d1]⟩
    rw [stopFrom_latches _ _ (by rw [chs]; exact idle), chs]
  · dsimp only
    refine ⟨fun low => ?_, fun high => next_congr (if_pos high), rfl, fun high => ?_, fun low => next_congr (if_pos (by rw [low]; rfl)),
      fun high => next_congr (if_pos high), fun low => next_congr (if_neg (by rw [low]; exact Bool.false_ne_true)), fun b rest back => ?_,
      fun none_ => next_congr ?_⟩
    · let d1 : Dev := { d with guard := { d.guard with safe := true, backstops := d.guard.backstops ++ [false] } }
      have h : safeDev d = stopFrom (setGrd (hist d1 0xFF 5 0 false) 0) (ixs 128) := if_neg (by rw [low]; exact Bool.false_ne_true)
      obtain ⟨-, safe, -, backstops, event⟩ := stopEvent_guard d1 (ixs 128) 0xFF 5 0 0 false (by decide)
      have stops (c : Ch) := stopFrom_stops (setGrd (hist d1 0xFF 5 0 false) 0) (ixs 128) c (mem_ixs c)
      have tb : (stopFrom (setGrd (hist d1 0xFF 5 0 false) 0) (ixs 128)).tb = d.tb := by simp [d1]
      have rails : (stopFrom (setGrd (hist d1 0xFF 5 0 false) 0) (ixs 128)).rails = d.rails := by simp [d1]
      generalize stopFrom (setGrd (hist d1 0xFF 5 0 false) 0) (ixs 128) = u at *
      exact ⟨u, next_congr h, safe, backstops, event, stops, tb, rails⟩
    · let d1 : Dev := { d with guard := { d.guard with prsnt := false, backstops := d.guard.backstops ++ [true] }
                               rails := { d.rails with prsntMs := 0 } }
      have h : prsntOffDev d = if !anyB d.chs fun _ x => switching x then hsgOff (stopFrom (setGrd (hist d1 0xFF 6 0 false) 1) (ixs 128))
          else stopFrom (setGrd (hist d1 0xFF 6 0 false) 1) (ixs 128) := if_neg (by rw [high]; exact Bool.false_ne_true)
      obtain ⟨-, -, prsnt, backstops, event⟩ := stopEvent_guard d1 (ixs 128) 0xFF 6 0 1 false (by decide)
      have stops (c : Ch) := stopFrom_stops (setGrd (hist d1 0xFF 6 0 false) 1) (ixs 128) c (mem_ixs c)
      have tb : (stopFrom (setGrd (hist d1 0xFF 6 0 false) 1) (ixs 128)).tb = d.tb := by simp [d1]
      have rails : (stopFrom (setGrd (hist d1 0xFF 6 0 false) 1) (ixs 128)).rails.prsntMs = 0 := by simp [d1]
      generalize stopFrom (setGrd (hist d1 0xFF 6 0 false) 1) (ixs 128) = u at *
      split at h
      · exact ⟨hsgOff u, next_congr h, prsnt, backstops, event, by rw [(hsgOff_frame u).1]; exact stops, tb, rails⟩
      · exact ⟨u, next_congr h, prsnt, backstops, event, stops, tb, rails⟩
    · have h : backstopDev d = if b then hsgOff (backstopRelease { d with guard := { d.guard with backstops := rest } } (if b then 6 else 5))
          else backstopRelease { d with guard := { d.guard with backstops := rest } } (if b then 6 else 5) := by
        unfold backstopDev
        rw [back]
      obtain ⟨-, -, -, backstops, -⟩ := guard_of_sans (backstopRelease_sans { d with guard := { d.guard with backstops := rest } } (if b then 6 else 5))
      have still := backstopRelease_still { d with guard := { d.guard with backstops := rest } } (if b then 6 else 5)
      have rails : (backstopRelease { d with guard := { d.guard with backstops := rest } } (if b then 6 else 5)).rails = d.rails := by simp
      have tb : (backstopRelease { d with guard := { d.guard with backstops := rest } } (if b then 6 else 5)).tb = d.tb := by simp
      generalize backstopRelease { d with guard := { d.guard with backstops := rest } } (if b then 6 else 5) = u at *
      cases b with
      | true => exact ⟨hsgOff u, next_congr h, backstops, by rw [(hsgOff_frame u).1]; exact still,
          fun _ fine => by rw [hsgOff_pre, rails, if_neg fine], fun no => absurd no (by decide), tb⟩
      | false => exact ⟨u, next_congr h, backstops, still, fun no => absurd no (by decide), fun _ => rails, tb⟩
    · show backstopDev d = d
      unfold backstopDev
      rw [none_]

/-! ### Releases of every channel -/

theorem releaseAll_allOff (d : Dev) (cause : Nat) (c : Ch) :
    (releaseAll d cause).chs[c].mod.hs = false ∧ (releaseAll d cause).chs[c].mod.ls = false ∧ (releaseAll d cause).chs[c].mod.plan = [] ∧
      (releaseAll d cause).chs[c].prot.released = false ∧ (releaseAll d cause).chs[c].prot.drive = .off := by
  rw [releaseAll_off d cause c]
  exact ⟨rfl, rfl, rfl, rfl, rfl⟩

/-- Settles O27, by the release of every channel (`releaseAll_allOff`) and what it leaves of the guard and the rails. -/
theorem guardReleases : Obligations.GuardReleases := by
  intro q d sn neg
  dsimp only
  refine ⟨?_, ?_, fun done => ?_, fun before => next_congr (if_neg (by rw [before]; exact Bool.false_ne_true))⟩
  · let d0 : Dev := if tjRecommended d then d.chAll fun _ x => { x with lost := true } else d
    let d1 : Dev := { d0 with guard := { d.guard with thermLatch := true } }
    have same : d0.rails = d.rails ∧ d0.tb = d.tb ∧ d0.power = d.power := by
      simp only [d0]
      split <;> simp
    obtain ⟨rails, tb, power⟩ := same
    obtain ⟨-, -, -, -, -, therm, -⟩ := guard_of_sans (releaseAll_sans d1 7)
    have h : thermShutDev d = hsgOff (releaseAll d1 7) := rfl
    have off := releaseAll_allOff d1 7
    have rails' : (releaseAll d1 7).rails = d.rails := by simp [d1, rails]
    have tb' : (releaseAll d1 7).tb = d.tb := by simp [d1, tb]
    have power' : (releaseAll d1 7).power = d.power := by simp [d1, power]
    refine ⟨_, next_congr h, ?_⟩
    generalize releaseAll d1 7 = u at *
    exact ⟨by rw [(hsgOff_frame u).1]; exact off, therm, fun fine => by rw [hsgOff_pre, rails', if_neg fine], tb', power'⟩
  · let d1 : Dev := { d with guard := if neg then { d.guard with ovN := true } else { d.guard with ovP := true } }
    obtain ⟨-, -, -, -, therm', ovP', ovN', -⟩ := setGrd_keeps (releaseAll d1 8) 2
    obtain ⟨-, -, -, -, -, therm, ovP, ovN, -⟩ := guard_of_sans (releaseAll_sans d1 8)
    have off := releaseAll_allOff d1 8
    rw [← (setGrd_frame (releaseAll d1 8) 2).1] at off
    have event := setGrd_bit (releaseAll d1 8) 2 (by decide)
    have high : (if neg then (setGrd (releaseAll d1 8) 2).guard.ovN else (setGrd (releaseAll d1 8) 2).guard.ovP) = true := by
      cases neg with
      | true => exact (ovN'.trans ovN).trans rfl
      | false => exact (ovP'.trans ovP).trans rfl
    have keepsTherm : (setGrd (releaseAll d1 8) 2).guard.thermLatch = d.guard.thermLatch := (therm'.trans therm).trans (by cases neg <;> rfl)
    have rails : (setGrd (releaseAll d1 8) 2).rails = d.rails := by simp [d1]
    have tb : (setGrd (releaseAll d1 8) 2).tb = d.tb := by simp [d1]
    have h : exec (.railOvRelease neg) ⟨q, d⟩ = .next ⟨q, setGrd (releaseAll d1 8) 2⟩ := rfl
    generalize setGrd (releaseAll d1 8) 2 = u at *
    exact ⟨u, h, off, high, keepsTherm, event, rails, tb⟩
  · let d1 : Dev := { d with guard := if neg then { d.guard with uvN := true } else { d.guard with uvP := true } }
    have h : railUvDev d neg = hsgOff (setGrd (releaseAll d1 9) 3) := if_pos done
    obtain ⟨-, -, -, -, -, -, -, uvP', uvN'⟩ := setGrd_keeps (releaseAll d1 9) 3
    obtain ⟨-, -, -, -, -, -, -, -, uvP, uvN⟩ := guard_of_sans (releaseAll_sans d1 9)
    have off := releaseAll_allOff d1 9
    rw [← (setGrd_frame (releaseAll d1 9) 3).1] at off
    have event := setGrd_bit (releaseAll d1 9) 3 (by decide)
    have low : (if neg then (setGrd (releaseAll d1 9) 3).guard.uvN else (setGrd (releaseAll d1 9) 3).guard.uvP) = true := by
      cases neg with
      | true => exact (uvN'.trans uvN).trans rfl
      | false => exact (uvP'.trans uvP).trans rfl
    have rails : (setGrd (releaseAll d1 9) 3).rails = d.rails := by simp [d1]
    have tb : (setGrd (releaseAll d1 9) 3).tb = d.tb := by simp [d1]
    have pre : d.rails.preState = 4 := of_decide_eq_true done
    refine ⟨_, next_congr h, ?_⟩
    generalize setGrd (releaseAll d1 9) 3 = u at *
    exact ⟨by rw [(hsgOff_frame u).1]; exact off, low, event, by rw [hsgOff_pre, rails, pre]; rfl, tb⟩

end Sys2Proof.Machine
end

section
/-!
PROOFS. The carrier boundary (R58, R103, R107, R117, R119, R155, R164).
-/

namespace Sys2Proof.Machine

/-! ### What the Fc sequences leave -/

/-- The parts outside channels, tiles and signals that no Fc sequence and no tick of a period changes. -/
def Dev.calm (d : Dev) : Bank Power 16 × Rails × Guard × Timebase × Bank Bool 32 × Bank (Option Nat) 32 × Shank × Cobbler × Growth :=
  (d.power, d.rails, d.guard, d.tb, d.groupRel, d.groupRamp, d.shank, d.cob, d.growth)

/-- What no Fc sequence changes of a channel. -/
def Chan.calm (x : Chan) : Bool × Bool × Bool × Drive × Bool :=
  (x.prot.latched, x.prot.released, x.prot.ssPend, x.prot.drive, x.mod.counting)

/-- A change of the part that keeps what is calm. -/
structure Calm (d e : Dev) : Prop where
  parts : e.calm = d.calm
  chs : ∀ k : Ch, e.chs[k].calm = d.chs[k].calm

theorem Calm.refl (d : Dev) : Calm d d := ⟨rfl, fun _ => rfl⟩

theorem Calm.trans {d e u : Dev} (h : Calm d e) (h' : Calm e u) : Calm d u := ⟨h'.parts.trans h.parts, fun k => (h'.chs k).trans (h.chs k)⟩

theorem calm_foldl {α : Type} (f : Dev → α → Dev) (step : ∀ e a, Calm e (f e a)) (l : List α) (d : Dev) : Calm d (l.foldl f d) := by
  induction l generalizing d with
  | nil => exact .refl d
  | cons a l ih => exact (step d a).trans (ih (f d a))

/-- An operation that leaves the channels and the calm parts. -/
theorem calm_of_parts {d e : Dev} (parts : e.calm = d.calm) (chs : e.chs = d.chs) : Calm d e := ⟨parts, fun k => by rw [chs]⟩

theorem calm_ch (d : Dev) (c : Ch) (f : Chan → Chan) (h : ∀ x, (f x).calm = x.calm) : Calm d (d.ch c f) :=
  by
  refine ⟨rfl, fun k => ?_⟩
  rw [ch_get]
  split
  · exact h _
  · rfl

theorem calm_stat (d : Dev) (c : Ch) (f : LoopStat → LoopStat) : Calm d (d.stat c f) := calm_ch d c _ fun _ => rfl

theorem calm_sns (d : Dev) (c : Ch) (f : Sense → Sense) : Calm d (d.sns c f) := calm_ch d c _ fun _ => rfl

theorem calm_tile (d : Dev) (t : LTile) (f : TileState → TileState) : Calm d (d.tile t f) := calm_of_parts rfl rfl

theorem calm_if {d a b : Dev} (p : Prop) [Decidable p] (ha : p → Calm d a) (hb : ¬p → Calm d b) : Calm d (if p then a else b) := by
  by_cases h : p
  · rw [if_pos h]; exact ha h
  · rw [if_neg h]; exact hb h

theorem excurLane_calm (d : Dev) (t : LTile) (s : Stitch) (c : Ch) : Calm d (excurLane d t s c) := by
  unfold excurLane
  exact (calm_tile _ _ _).trans (calm_sns _ _ _)

theorem thermalLane_calm (d : Dev) (t : LTile) (s : Stitch) (c : Ch) : Calm d (thermalLane d t s c) := by
  unfold thermalLane
  split
  · exact .refl d
  dsimp only
  split
  · split
    · exact calm_tile _ _ _
    · exact .refl d
  · exact (calm_tile _ _ _).trans (calm_sns _ _ _)

theorem grantLane_calm (d : Dev) (t : LTile) (s : Stitch) (c : Ch) : Calm d (grantLane d t s c) := by
  unfold grantLane
  dsimp only
  split <;> exact calm_tile _ _ _

theorem xferSend_calm (d : Dev) (img : Image) (t : LTile) (s : Stitch) (p : Nat) : Calm d (xferSend d img t s p) := by
  unfold xferSend
  dsimp only
  split
  · exact .refl d
  · exact calm_of_parts rfl rfl

theorem xferTake_calm (d : Dev) (img : Image) (t : LTile) (s : Stitch) : Calm d (xferTake d img t s) := by
  unfold xferTake
  dsimp only
  split
  · exact calm_tile _ _ _
  · exact .refl d

theorem sharedMove_calm (d : Dev) (t : LTile) (s : Stitch) : Calm d (sharedMove d t s) := by
  unfold sharedMove
  dsimp only
  split
  · exact calm_tile _ _ _
  · exact calm_of_parts rfl rfl

theorem noteSat_calm (img : Image) (t : LTile) (s : Stitch) (i : Nat) (d : Dev) : Calm d (noteSat img t s i d) :=
  calm_if _ (fun _ => calm_stat _ _ _) fun _ => .refl d

theorem senseLane_calm (d : Dev) (t : LTile) (s : Stitch) (c : Ch) (i m : Nat) : Calm d (senseLane d t s c i m) := by
  unfold senseLane
  exact (calm_tile _ _ _).trans (calm_stat _ _ _)

theorem capPoint_calm (d : Dev) (p : CapPoint) (st : CapStrobe) (c : Ch) (val : Int) (trip range : Bool) : Calm d (capPoint d p st c val trip range) :=
  calm_of_parts rfl rfl

theorem awlLane_calm (d : Dev) (t : LTile) (s : Stitch) (c : Ch) (i : Nat) : Calm d (awlLane d t s c i) := by
  unfold awlLane
  dsimp only
  refine calm_if _ (fun _ => ?_) fun _ => .trans ?_ (calm_tile _ _ _) <;> exact (capPoint_calm _ _ _ _ _ _ _).trans (capPoint_calm _ _ _ _ _ _ _)

theorem innerLane_calm (d : Dev) (img : Image) (t : LTile) (s : Stitch) (m i : Nat) : Calm d (innerLane d img t s m i) := by
  have tile (u : TileState → TileState) : Calm d (d.tile t u) := calm_tile _ _ _
  have stat (u : TileState → TileState) (c : Ch) (f : LoopStat → LoopStat) : Calm d ((d.tile t u).stat c f) := (tile u).trans (calm_stat _ _ _)
  unfold innerLane
  dsimp only
  refine calm_if _ (fun _ => senseLane_calm _ _ _ _ _ _) fun _ => calm_if _ (fun _ => calm_if _ (fun _ => tile _) fun _ => stat _ _ _) fun _ =>
    calm_if _ (fun _ => stat _ _ _) fun _ => calm_if _ (fun _ => tile _) fun _ => calm_if _ (fun _ => tile _) fun _ =>
    calm_if _ (fun _ => tile _) fun _ => calm_if _ (fun _ => tile _) fun _ => calm_if _ (fun _ => tile _) fun _ =>
    calm_if _ (fun _ => stat _ _ _) fun _ => calm_if _ (fun _ => calm_ch _ _ _ fun _ => rfl) fun _ => calm_if _ (fun _ => stat _ _ _) fun _ =>
    calm_if _ (fun _ => tile _) fun _ => calm_if _ (fun _ => awlLane_calm _ _ _ _ _) fun _ => .refl d

theorem engStitch_calm (img : Image) (t : LTile) (p m : Nat) (d : Dev) (s : Stitch) : Calm d (engStitch img t p m d s) := by
  unfold engStitch
  refine calm_if _ (fun _ => .refl d) fun _ => calm_if _ (fun _ => calm_foldl _ (fun e c => excurLane_calm e t s c) _ d) fun _ =>
    calm_if _ (fun _ => calm_foldl _ (fun e c => thermalLane_calm e t s c) _ d) fun _ =>
    calm_if _ (fun _ => calm_foldl _ (fun e c => grantLane_calm e t s c) _ d) fun _ => calm_if _ (fun _ => xferSend_calm _ _ _ _ _) fun _ =>
    calm_if _ (fun _ => xferTake_calm _ _ _ _) fun _ => calm_if _ (fun _ => sharedMove_calm _ _ _) fun _ =>
    calm_foldl _ (fun e i => (innerLane_calm e img t s m i).trans (noteSat_calm _ _ _ _ _)) _ d

theorem fcDone_calm (d : Dev) (img : Image) (t : LTile) : Calm d (fcDone d img t) :=
  (calm_foldl _ (fun _ _ => calm_stat _ _ _) _ d).trans (calm_tile _ _ _)

theorem engRun_calm (img : Image) (m : Nat) (d : Dev) (k : Fin 16) : Calm d (engRun img m d k) := by
  unfold engRun
  dsimp only
  refine calm_if _ (fun _ => .refl d) fun _ => ?_
  generalize hd1 : (if (d.core.tiles[enOf k]).skipFc = true then _ else _ : Dev) = d1
  have h1 : Calm d d1 := by
    rw [← hd1]
    exact calm_if _ (fun _ => (calm_tile _ _ _).trans (calm_tile _ _ _)) fun _ =>
      (calm_tile _ _ _).trans (.trans (calm_tile _ _ _) ((calm_foldl _ (fun e s => engStitch_calm _ _ _ _ e s) _ _).trans (fcDone_calm _ _ _)))
  refine h1.trans (calm_if _ (fun _ => .refl d1) fun _ => ?_)
  have h2 := calm_foldl (engStitch img (enOf k) (d.tb.stc % 32) m) (fun e s => engStitch_calm _ _ _ _ e s) ((slicesOf (img.fi (enOf k).val)).getD m []) d1
  exact calm_if _ (fun _ => h2.trans (calm_tile _ _ _)) fun _ => h2

theorem engAll_calm (d : Dev) (m : Nat) : Calm d (engAll d m) := by
  unfold engAll
  split
  · exact .refl d
  · exact calm_foldl _ (fun e k => engRun_calm _ _ e k) _ d

/-! ### The ticks of a period -/

theorem calm_stream (d : Dev) (h : Nat) (f : Stream → Stream) : Calm d (d.stream h f) := calm_of_parts rfl rfl

theorem calm_sap (d : Dev) (p : Nat) (f : Sap → Sap) : Calm d (d.sap p f) := calm_of_parts rfl rfl

theorem calm_tick (d : Dev) : Calm d d.tick := calm_of_parts rfl rfl

theorem setAcc_calm (d : Dev) (m a : Nat) : Calm d (setAcc d m a) :=
  calm_if _ (fun _ => calm_sap _ _ _) fun _ => calm_stream _ _ _

theorem tickSet_calm (grp : Option Nat) (all : List Nat) (d : Dev) (j : Nat) : Calm d (tickSet grp all d j) := by
  unfold tickSet
  dsimp only
  generalize hd1 : List.foldl _ _ (List.map _ _) = d1
  have h1 : Calm d d1 := by
    rw [← hd1]
    refine .trans (.trans (calm_tick d) (.trans (calm_foldl _ (fun _ _ => calm_stream _ _ _) _ _)
      (calm_foldl _ (fun e m => calm_if _ (fun _ => calm_sap _ _ _) fun _ => .refl e) _ _))) (calm_foldl _ (fun e c => ?_) _ _)
    exact calm_if _ (fun _ => calm_sap _ _ _) fun _ => calm_stream _ _ _
  split
  · exact h1.trans (calm_if _ (fun _ => .refl d1) fun _ => calm_of_parts rfl rfl)
  · exact h1

theorem tickMembers_calm (d : Dev) (grp : Option Nat) (ms : List Nat) : Calm d (tickMembers d grp ms) := by
  unfold tickMembers
  split
  · exact .refl d
  · exact ((calm_tick d).trans (calm_foldl _ (fun e j => tickSet_calm _ _ e j) _ _)).trans (calm_foldl _ (fun e x => setAcc_calm e x _) _ _)

theorem outTicks_calm (d : Dev) (p : Nat) : Calm d (outTicks d p) := by
  unfold outTicks
  dsimp only
  refine calm_if _ (fun _ => ?_) fun _ => .refl d
  exact ((calm_tick d).trans (calm_foldl _ (fun e j => (calm_tick e).trans (calm_sap _ _ _)) _ _)).trans (setAcc_calm _ _ _)

theorem calm_streamAll (d : Dev) (f : Stream → Stream) : Calm d (d.streamAll f) :=
  calm_of_parts (by simp only [Dev.calm, Dev.streamAll]) (by simp only [Dev.streamAll])

theorem idleStreams_calm (d : Dev) : Calm d (idleStreams d) := by
  unfold idleStreams
  exact calm_streamAll d _

theorem startStreams_calm (d : Dev) : Calm d (startStreams d) := by
  unfold startStreams
  refine (calm_streamAll d _).trans (calm_foldl _ (fun e h => ?_) _ _)
  exact calm_if _ (fun _ => calm_stream _ _ _) fun _ => .refl e

theorem allTicks_calm (d : Dev) : Calm d (allTicks d) := by
  unfold allTicks
  dsimp only
  refine ((startStreams_calm d).trans (idleStreams_calm _)).trans ?_
  exact (calm_foldl _ (fun e g => tickMembers_calm e _ _) _ _).trans
    ((calm_foldl _ (fun e m => tickMembers_calm e _ _) _ _).trans (calm_foldl _ (fun e p => outTicks_calm e p) _ _))

/-! ### The reload of the channels -/

/-- What a reload leaves of the modulator. -/
theorem loopReload_keeps (m : Mod) (take : Bool) : (loopReload m take).counting = m.counting ∧ (loopReload m take).hs = m.hs ∧
    (loopReload m take).ls = m.ls ∧ (loopReload m take).plan = m.plan := by
  unfold loopReload
  dsimp only
  (repeat' split) <;> exact ⟨rfl, rfl, rfl, rfl⟩

/-- What a carrier boundary does of a channel's locks: its counter runs, a stop that waits opens, and nothing latches or unreleases. -/
theorem boundaryMod_locks (x : Chan) (man : Mod) (rails : RailSample) (take : Bool) :
    let y := boundaryMod x man rails take
    y.mod.counting = true ∧ y.prot.latched = x.prot.latched ∧ y.prot.released = x.prot.released ∧ y.prot.ssPend = false ∧
      (x.prot.ssPend = true → y.prot.drive = .safeStop) := by
  intro y
  have opened : (openStop { x with mod := { x.mod with counting := true } }).mod.counting = true ∧
      (openStop { x with mod := { x.mod with counting := true } }).prot.latched = x.prot.latched ∧
      (openStop { x with mod := { x.mod with counting := true } }).prot.released = x.prot.released ∧
      (openStop { x with mod := { x.mod with counting := true } }).prot.ssPend = false ∧
      (x.prot.ssPend = true → (openStop { x with mod := { x.mod with counting := true } }).prot.drive = .safeStop) := by
    unfold openStop
    cases h : x.prot.ssPend <;> simp [h]
  simp only [y, boundaryMod]
  generalize openStop { x with mod := { x.mod with counting := true } } = z at opened
  obtain ⟨counting, latched, released, pend, opens⟩ := opened
  split
  · exact ⟨counting, latched, released, pend, opens⟩
  have step : (enableStep z man).mod.counting = true ∧ (enableStep z man).prot.latched = x.prot.latched ∧
      (enableStep z man).prot.released = x.prot.released ∧ (enableStep z man).prot.ssPend = false ∧
      (x.prot.ssPend = true → (enableStep z man).prot.drive = .safeStop) := by
    unfold enableStep
    split
    · split
      · exact ⟨counting, latched, released, pend, opens⟩
      next h => exact ⟨counting, latched, released, pend, fun stop => absurd (.inl (opens stop)) h⟩
    · exact ⟨counting, latched, released, pend, opens⟩
    · exact ⟨counting, latched, released, pend, opens⟩
  obtain ⟨counting, latched, released, pend, opens⟩ := step
  split
  · exact ⟨counting, latched, released, pend, opens⟩
  · refine ⟨?_, latched, released, pend, opens⟩
    exact (loopReload_keeps _ take).1.trans counting

theorem foldl_boundary (d : Dev) (l : List Ch) (rail : Ch → RailSample) (nodup : l.Nodup) (k : Ch) :
    let u := l.foldl (fun e c => e.ch c fun x => boundaryMod x e.chs[lead e c].mod (rail c) (Config.freeBit (e.free + c.val))) d
    (k ∉ l → u.chs[k] = d.chs[k]) ∧ (k ∈ l → ∃ man take, u.chs[k] = boundaryMod d.chs[k] man (rail k) take) := by
  induction l generalizing d with
  | nil => exact ⟨fun _ => rfl, fun h => absurd h List.not_mem_nil⟩
  | cons a l ih =>
    obtain ⟨new, nodup⟩ := List.nodup_cons.1 nodup
    obtain ⟨out, mem⟩ := ih (d.ch a fun x => boundaryMod x d.chs[lead d a].mod (rail a) (Config.freeBit (d.free + a.val))) nodup
    refine ⟨fun h => ?_, fun h => ?_⟩
    · obtain ⟨ne, notIn⟩ := not_or.1 ((not_congr List.mem_cons).1 h)
      exact (out notIn).trans (ch_other _ _ _ _ ne)
    · rcases List.mem_cons.1 h with rfl | h
      · exact ⟨_, _, (out new).trans (ch_same _ _ _)⟩
      · obtain ⟨man, take, e⟩ := mem h
        exact ⟨man, take, by rw [ch_other _ _ _ _ fun ne => new (by rw [← ne]; exact h)] at e; exact e⟩

/-- The part with the boundary counted and, at the first boundary of a period, its ticks done. -/
def carrierOpen (d : Dev) : Dev :=
  let d0 := if d.tb.started && decide (d.tb.m = 0) then allTicks d else d
  advanceGens { d0 with tb := { d0.tb with m := d.tb.m + 1 } } true

/-- The part with its rail samples taken. -/
def carrierRails (d : Dev) (rails : List RailSample) : Dev :=
  supplySample (d.power.toList.map (·.rail)) (railWide { d with power := tab d.power fun k p => railSampleTile d p (rails.getD k.val ⟨0, 0⟩) })

/-- The part with the channels' samples taken and the Fc sequences run. -/
def carrierSamples (d : Dev) (samples : List Sample) (m : Nat) : Dev :=
  let d3 := (ixs 128).foldl (fun e c => takeSample e c (samples.getD c.val ⟨0, 0⟩)) d
  let d4 := (ixs 128).foldl checkSample d3
  engAll (eviCount ((ixs 128).foldl captureSample { d4 with awl := { d4.awl with inj := tab d4.awl.inj fun c _ => injNow d4 c } }) 5 0) m

theorem carrierDev_runs (d : Dev) (samples : List Sample) (rails : List RailSample) (out : d.guard.audioReset = false) (runs : d.tb.running = true)
    (more : d.tb.m < d.tb.n) : carrierDev d samples rails = carrierSamples (carrierRails (reloadAll (carrierOpen d)) rails) samples d.tb.m := by
  have go : ¬((d.guard.audioReset || !d.tb.running || decide (d.tb.n ≤ d.tb.m)) = true) := by
    rw [out, runs, decide_eq_false (Nat.not_le.2 more)]; decide
  unfold carrierDev carrierSamples carrierRails carrierOpen
  dsimp only
  rw [if_neg go]

theorem carrierOpen_calm (d : Dev) : (carrierOpen d).calm = { d with tb := { d.tb with m := d.tb.m + 1 } : Dev }.calm ∧
    ∀ k : Ch, (carrierOpen d).chs[k].calm = d.chs[k].calm := by
  have ticks : Calm d (if d.tb.started && decide (d.tb.m = 0) then allTicks d else d) := calm_if _ (fun _ => allTicks_calm d) fun _ => .refl d
  unfold carrierOpen
  dsimp only
  generalize (if (d.tb.started && decide (d.tb.m = 0)) = true then _ else _ : Dev) = e at ticks
  obtain ⟨parts, chs⟩ := ticks
  refine ⟨?_, fun k => ?_⟩
  · simp only [Dev.calm, Prod.mk.injEq] at parts
    obtain ⟨power, rails, guard, tb, rel, ramp, shank, cob, growth⟩ := parts
    simp only [Dev.calm, advanceGens, power, rails, guard, tb, rel, ramp, shank, cob, growth]
  · rw [advanceGens_chs]; exact chs k

/-- The reload of the channels of a list. -/
def reloadOver (l : List Ch) (d : Dev) : Dev :=
  let d1 := l.foldl (fun e c => e.ch c fun x => boundaryMod x e.chs[lead e c].mod d.power[tileOf c].rail (Config.freeBit (e.free + c.val))) d
  { d1 with free := d1.free + 128 }

theorem reloadAll_eq (d : Dev) : reloadAll d = reloadOver (ixs 128) d := rfl

theorem reloadOver_calm (l : List Ch) (d : Dev) : (reloadOver l d).calm = d.calm :=
  foldl_keeps Dev.calm (fun e c => e.ch c fun x => boundaryMod x e.chs[lead e c].mod d.power[tileOf c].rail (Config.freeBit (e.free + c.val)))
    (fun _ _ => rfl) l d

theorem reloadOver_chs (l : List Ch) (d : Dev) (nodup : l.Nodup) (k : Ch) (h : k ∈ l) :
    ∃ man rails take, (reloadOver l d).chs[k] = boundaryMod d.chs[k] man rails take := by
  obtain ⟨man, take, e⟩ := (foldl_boundary d l (fun c => d.power[tileOf c].rail) nodup k).2 h
  exact ⟨man, d.power[tileOf k].rail, take, e⟩

theorem reloadAll_calm (d : Dev) : (reloadAll d).calm = d.calm := by
  rw [reloadAll_eq]
  exact reloadOver_calm _ d

theorem reloadAll_chs (d : Dev) (k : Ch) : ∃ man rails take, (reloadAll d).chs[k] = boundaryMod d.chs[k] man rails take := by
  rw [reloadAll_eq]
  exact reloadOver_chs _ d (List.nodup_finRange 128) k (mem_ixs k)

/-- What the rail samples bring to the rails, and what they leave. -/
theorem railWide_parts (d : Dev) :
    let u := railWide d
    u.chs = d.chs ∧ u.power = d.power ∧ u.tb = d.tb ∧ u.groupRel = d.groupRel ∧ u.groupRamp = d.groupRamp ∧ u.shank = d.shank ∧
      u.cob = d.cob ∧ u.growth = d.growth ∧ ((∃ t : PTile, (d.rails.riseThr : Int) < 10 * d.power[t].rail.pvp) → u.rails.clampP = true) ∧
      ((∃ t : PTile, (d.rails.riseThr : Int) < -10 * d.power[t].rail.pvn) → u.rails.clampN = true) := by
  have above (f : RailSample → Int) (t : PTile) (h : (d.rails.riseThr : Int) < 10 * f d.power[t].rail) :
      (anyB d.power fun _ p => decide ((d.rails.riseThr : Int) < 10 * f p.rail)) = true :=
    List.any_eq_true.2 ⟨t, mem_ixs t, decide_eq_true h⟩
  unfold railWide
  dsimp only
  split
  · simp only [raiseEvt_frame, true_and]
    refine ⟨fun ⟨t, h⟩ => ?_, fun ⟨t, h⟩ => ?_⟩
    · exact Bool.or_eq_true_iff.2 (.inr (above (·.pvp) t h))
    · exact Bool.or_eq_true_iff.2 (.inr (above (fun x => -x.pvn) t (by omega)))
  · refine ⟨rfl, rfl, rfl, rfl, rfl, rfl, rfl, rfl, fun ⟨t, h⟩ => ?_, fun ⟨t, h⟩ => ?_⟩
    · exact Bool.or_eq_true_iff.2 (.inr (above (·.pvp) t h))
    · exact Bool.or_eq_true_iff.2 (.inr (above (fun x => -x.pvn) t (by omega)))

theorem supplySample_parts (was : List RailSample) (d : Dev) :
    let u := supplySample was d
    u.chs = d.chs ∧ u.power = d.power ∧ u.tb = d.tb ∧ u.groupRel = d.groupRel ∧ u.groupRamp = d.groupRamp ∧ u.shank = d.shank ∧
      u.cob = d.cob ∧ u.growth = d.growth ∧ u.rails.clampP = d.rails.clampP ∧ u.rails.clampN = d.rails.clampN := by
  unfold supplySample
  dsimp only
  split <;> simp only [and_self]

theorem carrierRails_parts (d : Dev) (samples : List RailSample) :
    let u := carrierRails d samples
    u.chs = d.chs ∧ (∀ t : PTile, u.power[t].rail = samples.getD t.val ⟨0, 0⟩) ∧ u.tb = d.tb ∧ u.groupRel = d.groupRel ∧
      u.groupRamp = d.groupRamp ∧ u.shank = d.shank ∧ u.cob = d.cob ∧ u.growth = d.growth ∧
      ((∃ t : PTile, (d.rails.riseThr : Int) < 10 * (samples.getD t.val ⟨0, 0⟩).pvp) → u.rails.clampP = true) ∧
      ((∃ t : PTile, (d.rails.riseThr : Int) < -10 * (samples.getD t.val ⟨0, 0⟩).pvn) → u.rails.clampN = true) := by
  obtain ⟨e, he⟩ : ∃ e : Dev, e = { d with power := tab d.power fun k p => railSampleTile d p (samples.getD k.val ⟨0, 0⟩) } := ⟨_, rfl⟩
  have rail (t : PTile) : e.power[t].rail = samples.getD t.val ⟨0, 0⟩ := by rw [he, tab_get]; rfl
  have same : e.chs = d.chs ∧ e.tb = d.tb ∧ e.groupRel = d.groupRel ∧ e.groupRamp = d.groupRamp ∧ e.shank = d.shank ∧ e.cob = d.cob ∧
      e.growth = d.growth ∧ e.rails = d.rails := by rw [he]; simp only [and_self]
  obtain ⟨chs0, tb0, rel0, ramp0, shank0, cob0, growth0, rails0⟩ := same
  unfold carrierRails
  rw [← he]
  obtain ⟨chs, power, tb, rel, ramp, shank, cob, growth, clampP, clampN⟩ := railWide_parts e
  obtain ⟨chs', power', tb', rel', ramp', shank', cob', growth', clampP', clampN'⟩ := supplySample_parts (d.power.toList.map (·.rail)) (railWide e)
  rw [rails0] at clampP clampN
  generalize supplySample (d.power.toList.map (·.rail)) (railWide e) = u at *
  exact ⟨(chs'.trans chs).trans chs0, fun t => by rw [power', power]; exact rail t, (tb'.trans tb).trans tb0, (rel'.trans rel).trans rel0,
    (ramp'.trans ramp).trans ramp0, (shank'.trans shank).trans shank0, (cob'.trans cob).trans cob0, (growth'.trans growth).trans growth0,
    fun ⟨t, h⟩ => clampP'.trans (clampP ⟨t, by rw [rail]; exact h⟩), fun ⟨t, h⟩ => clampN'.trans (clampN ⟨t, by rw [rail]; exact h⟩)⟩

theorem checkSample_calm (d : Dev) (c : Ch) : Calm d (checkSample d c) := by
  have check (e : Dev) (f : Check → Check) : Calm e (match d.chs[c].prot.check with
      | none => e
      | some k => e.ch c fun y => { y with prot := { y.prot with check := some (f k) } }) := by
    split
    · exact .refl e
    · exact calm_ch _ _ _ fun _ => rfl
  unfold checkSample
  dsimp only
  split
  · exact check d _
  · exact calm_if _ (fun _ => (check d _).trans (calm_ch _ _ _ fun _ => rfl)) fun _ => check d _

theorem carrierSamples_calm (d : Dev) (samples : List Sample) (m : Nat) : Calm d (carrierSamples d samples m) := by
  have sample (e : Dev) (c : Ch) : Calm e (takeSample e c (samples.getD c.val ⟨0, 0⟩)) := calm_ch e c _ fun _ => rfl
  have points (e : Dev) (c : Ch) : Calm e (captureSample e c) := (capPoint_calm _ _ _ _ _ _ _).trans (capPoint_calm _ _ _ _ _ _ _)
  have inj (e : Dev) : Calm e { e with awl := { e.awl with inj := tab e.awl.inj fun c _ => injNow e c } } :=
    calm_of_parts (by simp only [Dev.calm]) rfl
  have count (e : Dev) : Calm e (eviCount e 5 0) := calm_of_parts (by simp only [Dev.calm, eviCount]) (eviCount_chs e 5 0)
  unfold carrierSamples
  dsimp only
  exact (calm_foldl _ sample _ d).trans ((calm_foldl _ checkSample_calm _ _).trans ((inj _).trans ((calm_foldl _ points _ _).trans
    ((count _).trans (engAll_calm _ m)))))

/-! ### The commands -/

/-- A channel in its loop outside manual modulation reloads at a carrier boundary. -/
theorem boundaryMod_loop (x : Chan) (man : Mod) (rails : RailSample) (take : Bool) (free : x.mod.halted = false) (auto : x.mod.manual = false)
    (noEnable : x.mod.manPend = none) (noStop : x.prot.ssPend = false) :
    boundaryMod x man rails take = reloadStep { x with mod := { x.mod with counting := true } } rails take := by
  simp [boundaryMod, openStop, enableStep, free, auto, noEnable, noStop]

/-- Settles O11: the parts of a carrier boundary one after the other, each by what it leaves of the locks and of the parts outside. -/
theorem carrierBoundaries : Obligations.CarrierBoundaries := by
  refine ⟨fun q d samples rails => ?_, fun x man rails take free auto noEnable noStop loop => ?_, fun q d means sapBits h => next_congr (if_pos ?_)⟩
  · intro e
    refine ⟨fun out runs more => ?_, fun stops => next_congr (if_pos ?_)⟩
    · obtain ⟨open_, openChs⟩ := carrierOpen_calm e
      have reload := (reloadAll_calm (carrierOpen e)).trans open_
      obtain ⟨chs, power, tb, rel, ramp, shank, cob, growth, clampP, clampN⟩ := carrierRails_parts (reloadAll (carrierOpen e)) rails
      obtain ⟨parts, sampleChs⟩ := carrierSamples_calm (carrierRails (reloadAll (carrierOpen e)) rails) samples e.tb.m
      simp only [Dev.calm, Prod.mk.injEq] at reload parts
      obtain ⟨-, rails1, -, tb1, rel1, ramp1, shank1, cob1, growth1⟩ := reload
      obtain ⟨power2, rails2, -, tb2, rel2, ramp2, shank2, cob2, growth2⟩ := parts
      rw [rails1] at clampP clampN
      have run := carrierDev_runs e samples rails out runs more
      have reloadChs := reloadAll_chs (carrierOpen e)
      generalize carrierSamples (carrierRails (reloadAll (carrierOpen e)) rails) samples e.tb.m = u at *
      generalize reloadAll (carrierOpen e) = e1 at *
      refine ⟨u, next_congr run, (tb2.trans tb).trans tb1, fun t => by rw [power2]; exact power t,
        fun c => ?_, fun h => by rw [rails2]; exact clampP h, fun h => by rw [rails2]; exact clampN h, (rel2.trans rel).trans rel1,
        (ramp2.trans ramp).trans ramp1, (shank2.trans shank).trans shank1, (cob2.trans cob).trans cob1, (growth2.trans growth).trans growth1⟩
      have sample := sampleChs c
      have opened := openChs c
      rw [chs] at sample
      obtain ⟨man, rs, take, h⟩ := reloadChs c
      rw [h] at sample
      obtain ⟨counting, latched, released, pend, opens⟩ := boundaryMod_locks (carrierOpen e).chs[c] man rs take
      simp only [Chan.calm, Prod.mk.injEq] at sample opened
      obtain ⟨latched2, released2, pend2, drive2, counting2⟩ := sample
      obtain ⟨latched0, released0, pend0, -, -⟩ := opened
      exact ⟨counting2.trans counting, (latched2.trans latched).trans latched0, (released2.trans released).trans released0, pend2.trans pend,
        fun stop => drive2.trans (opens (pend0.trans stop))⟩
    · show (e.guard.audioReset || !e.tb.running || decide (e.tb.n ≤ e.tb.m)) = true
      rcases stops with h | h | h
      · rw [h]; rfl
      · rw [h, Bool.not_false, Bool.or_true, Bool.true_or]
      · rw [decide_eq_true h, Bool.or_true]
  · intro y
    have hy : y = reloadStep { x with mod := { x.mod with counting := true } } rails take := boundaryMod_loop x man rails take free auto noEnable noStop
    refine ⟨fun none_ new => ?_, fun none_ old use => ?_, fun none_ old out => ?_, fun prev some_ use => ?_, fun none_ h => ?_, fun some_ use few => ?_, ?_⟩
    · simp [hy, reloadStep, accepts, loopReload, none_, new]
    · cases w : x.mod.wordIn with
      | true => simp [hy, reloadStep, accepts, loopReload, none_, old, use, ownWord, loop, w]
      | false => simp [hy, reloadStep, accepts, loopReload, none_, old, use, ownWord, loop, w]
    · simp [hy, reloadStep, accepts, loopReload, none_, old, out, ownWord, loop]
    · cases take with
      | true => simp [hy, reloadStep, accepts, loopReload, some_, use]
      | false => simp [hy, reloadStep, accepts, loopReload, some_, use]
    · rcases h with h | h <;> simp [hy, reloadStep, reloadLate, closedLoop, none_, h]
    · simp [hy, reloadStep, reloadLate, closedLoop, some_, use, loop, auto, free, satN]
      omega
    · rw [hy]
      exact ⟨rfl, rfl, (loopReload_keeps { x.mod with counting := true } take).2⟩
  · rcases h with h | h | ⟨h, h'⟩ | ⟨h, h'⟩
    · simp [h]
    · simp [h]
    · simp [h, h']
    · simp [h, h']

end Sys2Proof.Machine
end

section
/-!
PROOFS. Gain trajectories (R339 to R342).
-/

namespace Sys2Proof.Machine

/-! ### The line of a LIN trajectory -/

/-- Rounding a quotient goes at most half a divisor away. -/
theorem roundAway_near (n : Int) (s : Nat) (h : 0 < s) : 2 * ((s : Int) * roundAway n s - n).natAbs ≤ s := by
  have floor (a : Int) : 2 * ((s : Int) * Int.fdiv (2 * a + s) (2 * s) - a).natAbs ≤ s := by
    rw [Int.fdiv_eq_ediv_of_nonneg _ (by omega : (0 : Int) ≤ 2 * s)]
    have e := Int.mul_ediv_add_emod (2 * a + s) (2 * s)
    have lt := Int.emod_lt_of_pos (2 * a + s) (by omega : (0 : Int) < 2 * s)
    have ge := Int.emod_nonneg (2 * a + s) (by omega : (2 * s : Int) ≠ 0)
    rw [Int.mul_assoc] at e
    generalize (s : Int) * ((2 * a + s) / (2 * s)) = p at *
    omega
  unfold roundAway
  split
  · exact floor n
  · have e : (s : Int) * -Int.fdiv (2 * -n + s) (2 * s) - n = -((s : Int) * Int.fdiv (2 * -n + s) (2 * s) - -n) := by grind
    rw [e, Int.natAbs_neg]
    exact floor (-n)

/-- What lies within half a step of a point between two integers lies between them. -/
theorem between_of_near (r n s lo hi : Int) (hs : 0 < s) (near : 2 * (s * r - n).natAbs ≤ s) (low : s * lo ≤ n) (high : n ≤ s * hi) : lo ≤ r ∧ r ≤ hi := by
  constructor
  · refine Int.not_lt.1 fun h => ?_
    have : s * r ≤ s * (lo - 1) := Int.mul_le_mul_of_nonneg_left (by omega) (Int.le_of_lt hs)
    have e : s * (lo - 1) = s * lo - s := by grind
    omega
  · refine Int.not_lt.1 fun h => ?_
    have : s * (hi + 1) ≤ s * r := Int.mul_le_mul_of_nonneg_left (by omega) (Int.le_of_lt hs)
    have e : s * (hi + 1) = s * hi + s := by grind
    omega

theorem trajValue_lin (t : Traj) (k : Nat) (up : Bool) (lin : t.log = false) (lo0 : -(2 ^ 23) ≤ t.g0) (hi0 : t.g0 < 2 ^ 23)
    (lo1 : -(2 ^ 23) ≤ t.g1) (hi1 : t.g1 < 2 ^ 23) (inside : k < t.steps) :
    2 * ((t.steps : Int) * trajValue t k up - (t.g0 * t.steps + (t.g1 - t.g0) * k)).natAbs ≤ t.steps := by
  have near := roundAway_near (t.g0 * t.steps + (t.g1 - t.g0) * k) t.steps (by omega)
  have line : t.g0 * t.steps + (t.g1 - t.g0) * k = t.g0 * ((t.steps : Int) - k) + t.g1 * k := by grind
  have part : 0 ≤ (t.steps : Int) - k := by omega
  have low : (t.steps : Int) * (-(2 ^ 23)) ≤ t.g0 * t.steps + (t.g1 - t.g0) * k := by
    have a := Int.mul_le_mul_of_nonneg_right lo0 part
    have b := Int.mul_le_mul_of_nonneg_right lo1 (Int.natCast_nonneg k)
    rw [line]
    grind
  have high : t.g0 * t.steps + (t.g1 - t.g0) * k ≤ (t.steps : Int) * (2 ^ 23 - 1) := by
    have a := Int.mul_le_mul_of_nonneg_right (Int.le_sub_one_of_lt hi0) part
    have b := Int.mul_le_mul_of_nonneg_right (Int.le_sub_one_of_lt hi1) (Int.natCast_nonneg k)
    rw [line]
    grind
  obtain ⟨lo, hi⟩ := between_of_near _ _ t.steps (-(2 ^ 23)) (2 ^ 23 - 1) (by omega) (by exact_mod_cast near) low high
  have value : trajValue t k up = roundAway (t.g0 * t.steps + (t.g1 - t.g0) * k) t.steps := by
    unfold trajValue
    rw [if_neg (Nat.not_le.2 inside), lin, if_pos (Bool.not_false)]
    unfold q420 clampI
    omega
  rw [value]
  exact near

/-! ### The commands -/

theorem gainPut_mix (d : Dev) (o : GainObj) (v : Int) : (gainPut d o v).mix.trajs = d.mix.trajs := by
  cases o <;> rfl

/-- A newer change ends the trajectory of its object: its command completes, and nothing but that trajectory goes. -/
theorem endTraj_eq (d : Dev) (o : GainObj) :
    let u := endTraj d o
    u = { d with mix := { d.mix with trajs := d.mix.trajs.filter fun t => !decide (t.obj = o ∧ t.k < t.steps) }, qif := u.qif, admin := u.admin } ∧
      ((∀ t ∈ d.mix.trajs, t.obj ≠ o) → u.qif = d.qif ∧ u.admin = d.admin) := by
  intro u
  have h : u = (d.mix.trajs.filter fun t => decide (t.obj = o ∧ t.k < t.steps)).foldl (fun e t => completeAt e t.ref opTraj stAborted t.start)
      { d with mix := { d.mix with trajs := d.mix.trajs.filter fun t => !decide (t.obj = o ∧ t.k < t.steps) } } := by
    simp only [u, endTraj, List.partition_eq_filter_filter]
    rfl
  refine ⟨?_, fun none_ => ?_⟩
  · rw [h]
    apply dev_ext <;> simp
  · have empty : (d.mix.trajs.filter fun t => decide (t.obj = o ∧ t.k < t.steps)) = [] :=
      List.filter_eq_nil_iff.2 fun t ht => by simp [none_ t ht]
    rw [h, empty]
    exact ⟨rfl, rfl⟩

/-- Settles O44: the trajectory's start and refusals by their conditions, its end by the running trajectory, its steps by `trajValue_lin`. -/
theorem gainTrajectories : Obligations.GainTrajectories := by
  refine ⟨fun q d r o log g1 steps => ?_, fun t k up lin lo0 hi0 lo1 hi1 _ => ⟨fun past => if_pos past, trajValue_lin t k up lin lo0 hi0 lo1 hi1⟩⟩
  dsimp only
  have sized (h : 1 ≤ steps ∧ steps ≤ 1048576) : ¬(steps < 1 ∨ 1048576 < steps) := by omega
  have opened (h : hostClosed d = false ∧ imageOn d = true) : ¬((hostClosed d || !imageOn d) = true) := by rw [h.1, h.2]; decide
  have differs : signsDiffer (gainBefore d o) g1.toInt = true ↔
      ((gainBefore d o < 0 ∧ 0 < g1.toInt) ∨ (g1.toInt < 0 ∧ 0 < gainBefore d o)) := by
    simp only [signsDiffer, Bool.or_eq_true, Bool.and_eq_true, decide_eq_true_eq]
  have crosses : (log && signsDiffer (gainBefore d o) g1.toInt) = true ↔
      log = true ∧ ((gainBefore d o < 0 ∧ 0 < g1.toInt) ∨ (g1.toInt < 0 ∧ 0 < gainBefore d o)) := by rw [Bool.and_eq_true, differs]
  have start (size : 1 ≤ steps ∧ steps ≤ 1048576) (open_ : hostClosed d = false ∧ imageOn d = true) :
      doTraj d r o log g1.toInt steps = if !gainExists d o then completeAt d r opTraj stField d.tb.stc
        else if log && signsDiffer (gainBefore d o) g1.toInt then completeAt d r opTraj stField d.tb.stc
        else if 512 ≤ trajCount d o then completeAt d r opTraj stNotReady d.tb.stc
        else { endTraj d o with mix := { (endTraj d o).mix with
          trajs := (endTraj d o).mix.trajs ++ [⟨r, d.tb.stc, o, gainBefore d o, g1.toInt, steps, 0, log⟩]
          gBefore := (o, gainBefore d o) :: (endTraj d o).mix.gBefore.filter fun p => decide (p.1 ≠ o) } } :=
    (if_neg (sized size)).trans (if_neg (opened open_))
  have there' (h : gainExists d o = true) : ¬((!gainExists d o) = true) := by rw [h]; decide
  refine ⟨fun size open_ there same few => ?_, fun size open_ there same many => next_congr ?_, fun size open_ bad => next_congr ?_,
    fun size => next_congr (if_pos (by omega)), fun size closed => next_congr ?_, fun id cid => ?_⟩
  · obtain ⟨ended, quiet⟩ := endTraj_eq d o
    refine ⟨_, next_congr ((start size open_).trans ((if_neg (there' there)).trans ((if_neg fun h => same (crosses.1 h)).trans
      (if_neg (Nat.not_le.2 few))))), ?_, ?_, quiet⟩
    · rw [ended]
    · rw [ended]
  · exact (start size open_).trans ((if_neg (there' there)).trans ((if_neg fun h => same (crosses.1 h)).trans (if_pos many)))
  · refine (start size open_).trans ?_
    by_cases there : gainExists d o = true
    · exact (if_neg (there' there)).trans (if_pos (crosses.2 (bad.resolve_left (by rw [there]; decide))))
    · exact if_pos (by rw [Bool.eq_false_iff.2 there]; rfl)
  · refine (if_neg (sized size)).trans (if_pos ?_)
    cases host : hostClosed d with
    | true => rfl
    | false => rw [Bool.eq_false_iff.2 fun image => closed ⟨host, image⟩]; rfl
  · refine ⟨fun t found last => next_congr ?_, fun t found past => next_congr ?_, fun early => next_congr ?_⟩
    · show trajEndDev d id cid = _
      unfold trajEndDev
      rw [Option.mem_def.1 found]
      dsimp only
      rw [if_neg (by omega), if_pos (by omega), gainPut_mix]
      rfl
    · show trajEndDev d id cid = _
      unfold trajEndDev
      rw [Option.mem_def.1 found]
      dsimp only
      rw [if_neg (by omega), if_neg (by omega)]
      rfl
    · show trajEndDev d id cid = _
      unfold trajEndDev
      split
      · rfl
      next t found => exact if_pos (early t found)

end Sys2Proof.Machine
end

section
/-!
PROOFS. References, sources and marks of the timebase (R44 to R54, R59 to R64, R568 to R570).
-/

namespace Sys2Proof.Machine

/-! ### Sources by list and qualification -/

theorem entrySrc_congr {t u : Timebase} (src : t.src = u.src) (e : Nat) : entrySrc t e = entrySrc u e := by
  unfold entrySrc
  rw [src]

theorem entryQual_congr {t u : Timebase} (src : t.src = u.src) (qual : t.qual = u.qual) (e : Nat) : entryQual t e = entryQual u e := by
  unfold entryQual
  rw [entrySrc_congr src, qual]

theorem srcQual_congr {t u : Timebase} (src : t.src = u.src) (qual : t.qual = u.qual) (x : BitVec 2) : srcQual t x = srcQual u x := by
  simp only [srcQual, entryQual_congr src qual, entrySrc_congr src]

theorem bestSrc_congr {t u : Timebase} (src : t.src = u.src) (qual : t.qual = u.qual) : bestSrc t = bestSrc u := by
  simp only [bestSrc, entryQual_congr src qual, entrySrc_congr src]

/-- The port that source 0b11 names gives no reference exactly as a master or where it is not enabled. -/
theorem sapRefOk_false (d : Dev) : sapRefOk d = false ↔
    (look d.ports.sap d.tb.sapSel Sap.reset).fmt.master = true ∨ (look d.ports.sap d.tb.sapSel Sap.reset).fmt.en = false := by
  simp only [sapRefOk, Bool.and_eq_false_iff, Bool.not_eq_false', or_comm]

/-! ### The loss of a source -/

/-- The fields of the timebase that the loss of a source speaks of. -/
def Timebase.refs (t : Timebase) : BitVec 3 × List (BitVec 2) × Nat × Nat × TbState × BitVec 2 × Bool :=
  (t.qual, t.src, t.stc, t.n, t.state, t.active, t.autoFallback)

theorem setTb_refs (d : Dev) (i : Nat) : (setTb d i).tb = { d.tb with event := (setTb d i).tb.event } := by
  rw [setTb_tb]
  split <;> rfl

theorem marksAbsent_parts (d : Dev) : marksAbsent d = { d with tb := (marksAbsent d).tb, qif := (marksAbsent d).qif } ∧
    (marksAbsent d).tb.refs = d.tb.refs ∧ (marksAbsent d).tb.marksPresent = false ∧ (marksAbsent d).tb.refinRate = d.tb.refinRate := by
  unfold marksAbsent
  split
  · refine ⟨?_, ?_, ?_, ?_⟩
    · apply dev_ext <;> simp
    · rw [setTb_refs]; rfl
    · rw [setTb_refs]
    · rw [setTb_refs]
  next h => exact ⟨rfl, rfl, Bool.eq_false_iff.2 h, rfl⟩

/-- The loss of the source that Fi follows leads to HOLDOVER exactly where no other one is there to follow (Table 2-2). -/
theorem settleLoss_parts (t : Timebase) :
    let held := t.state = .locked ∧ srcQual t t.active = false ∧ (t.autoFallback = false ∨ bestSrc t = 0)
    let u := settleLoss t
    u.qual = t.qual ∧ u.src = t.src ∧ u.stc = t.stc ∧ u.n = t.n ∧ u.refinRate = t.refinRate ∧ u.marksPresent = t.marksPresent ∧
      u.event = t.event ∧ (held → u.state = .holdover ∧ u.active = 0 ∧ u.slewing = false ∧ u.lost = t.active) ∧
      (¬held → u.state = t.state ∧ u.active = t.active ∧ u.lost = t.lost) := by
  intro held u
  simp only [u, settleLoss]
  by_cases h : held
  · rw [if_pos h]
    split <;> exact ⟨rfl, rfl, rfl, rfl, rfl, rfl, rfl, fun _ => ⟨rfl, rfl, rfl, rfl⟩, fun no => absurd h no⟩
  · rw [if_neg h]
    split <;> exact ⟨rfl, rfl, rfl, rfl, rfl, rfl, rfl, fun yes => absurd yes h, fun _ => ⟨rfl, rfl, rfl⟩⟩

/-- An entry's loss, with the rate or the marks that came over its source. -/
def lossFirst (d : Dev) (e : Fin 3) : Dev :=
  let x := entrySrc d.tb e.val
  let t1 := setQual d.tb e.val false
  let d1 := { d with tb := if x = 2 then { t1 with refinRate := 0 } else t1 }
  if x = 1 then marksAbsent d1 else d1

/-- The timebase after an entry's loss, before the state settles. -/
def lossOf (d : Dev) (e : Fin 3) : Dev :=
  let d2 := lossFirst d e
  if d.tb.state = .locked ∧ d.tb.active = entrySrc d.tb e.val then setTb { d2 with tb := { d2.tb with lost := entrySrc d.tb e.val } } evRefLoss
  else d2

theorem refLostDev_qualified (d : Dev) (e : Fin 3) (h : entryQual d.tb e.val = true) :
    refLostDev d e = { lossOf d e with tb := settleLoss (lossOf d e).tb } := if_pos h

theorem lossFirst_parts (d : Dev) (e : Fin 3) :
    let x := entrySrc d.tb e.val
    let t := { d.tb with qual := d.tb.qual &&& ~~~(1#3 <<< e.val) }
    let u := lossFirst d e
    u = { d with tb := u.tb, qif := u.qif } ∧ u.tb.refs = t.refs ∧ (x = 2 → u.tb.refinRate = 0) ∧ (x = 1 → u.tb.marksPresent = false) := by
  intro x t u
  let d1 : Dev := { d with tb := if x = 2 then { setQual d.tb e.val false with refinRate := 0 } else setQual d.tb e.val false }
  have one : d1.tb.refs = t.refs ∧ (x = 2 → d1.tb.refinRate = 0) := by
    simp only [d1]
    split
    next two => exact ⟨rfl, fun _ => rfl⟩
    next no => exact ⟨rfl, fun two => absurd two no⟩
  have out : u = if x = 1 then marksAbsent d1 else d1 := rfl
  by_cases frame : x = 1
  · rw [out, if_pos frame]
    obtain ⟨same, refs, absent, rate⟩ := marksAbsent_parts d1
    exact ⟨same, refs.trans one.1, fun two => rate.trans (one.2 two), fun _ => absent⟩
  · rw [out, if_neg frame]
    exact ⟨rfl, one.1, one.2, fun yes => absurd yes frame⟩

theorem lossOf_parts (d : Dev) (e : Fin 3) :
    let x := entrySrc d.tb e.val
    let t := { d.tb with qual := d.tb.qual &&& ~~~(1#3 <<< e.val) }
    let u := lossOf d e
    u = { d with tb := u.tb, qif := u.qif } ∧ u.tb.refs = t.refs ∧ (x = 2 → u.tb.refinRate = 0) ∧ (x = 1 → u.tb.marksPresent = false) ∧
      (d.tb.state = .locked ∧ d.tb.active = x → u.tb.event.getLsbD 0 = true ∧ u.tb.lost = x) := by
  intro x t u
  obtain ⟨same, refs, refin, marks⟩ := lossFirst_parts d e
  by_cases follows : d.tb.state = .locked ∧ d.tb.active = x
  · have out : u = setTb { lossFirst d e with tb := { (lossFirst d e).tb with lost := x } } evRefLoss := if_pos follows
    rw [out]
    refine ⟨?_, ?_, fun h => ?_, fun h => ?_, fun _ => ⟨setTb_bit _ 0 (by decide), ?_⟩⟩
    · rw [same]
      apply dev_ext <;> simp
    · rw [setTb_refs]; exact refs
    · rw [setTb_refs]; exact refin h
    · rw [setTb_refs]; exact marks h
    · rw [setTb_refs]
  · have out : u = lossFirst d e := if_neg follows
    rw [out]
    exact ⟨same, refs, refin, marks, fun yes => absurd yes follows⟩

/-- Settles O6: qualification by what `refQualDev` writes, a loss by the loss of the entry (`lossOf_parts`) and the state that follows
(`settleLoss_parts`). -/
theorem sourcesQualifyAndAreLost : Obligations.SourcesQualifyAndAreLost := by
  refine ⟨fun q d e rate => ⟨fun out named port => next_congr ?_, fun no => next_congr (if_pos ?_)⟩, fun q d e => ?_⟩
  · have go : ¬(d.guard.audioReset = true ∨ entrySrc d.tb e.val = 0 ∨ (entrySrc d.tb e.val = 3 ∧ sapRefOk d = false)) := by
      rw [out, sapRefOk_false]
      rintro (h | h | ⟨three, h⟩)
      · cases h
      · exact named h
      · obtain ⟨slave, enabled⟩ := port three
        rw [slave, enabled] at h
        exact h.elim Bool.false_ne_true Bool.noConfusion
    refine (if_neg go).trans ?_
    split
    next two => simp only [two]; rfl
    next two => rfl
  · rw [sapRefOk_false]; exact no
  · intro x t held
    refine ⟨fun unq => next_congr (if_neg (by rw [unq]; exact Bool.false_ne_true)), fun qual => ?_⟩
    obtain ⟨same, refs, refin, marks, loss⟩ := lossOf_parts d e
    obtain ⟨qual', src', stc', n', refin', marks', event', enter, stay⟩ := settleLoss_parts (lossOf d e).tb
    simp only [Timebase.refs, Prod.mk.injEq] at refs
    obtain ⟨rq, rsrc, rstc, rn, rstate, ractive, rauto⟩ := refs
    have held' : ((lossOf d e).tb.state = .locked ∧ srcQual (lossOf d e).tb (lossOf d e).tb.active = false ∧
        ((lossOf d e).tb.autoFallback = false ∨ bestSrc (lossOf d e).tb = 0)) ↔ held := by
      rw [rstate, ractive, rauto, srcQual_congr (u := t) rsrc rq, bestSrc_congr (u := t) rsrc rq]
    rw [held'] at enter stay
    refine ⟨_, next_congr (refLostDev_qualified d e qual), ?_, qual'.trans rq, src'.trans rsrc, stc'.trans rstc, n'.trans rn,
      fun two => refin'.trans (refin two), fun one => marks'.trans (marks one), fun follows => ⟨?_, ?_⟩, fun h => ?_, fun h => ?_⟩
    · rw [same]
    · rw [event']; exact (loss follows).1
    · by_cases h : held
      · rw [(enter h).2.2.2, ractive]; exact follows.2
      · rw [(stay h).2.2]; exact (loss follows).2
    · obtain ⟨state, active, slewing, lost⟩ := enter h
      exact ⟨state, active, slewing, lost.trans ractive⟩
    · obtain ⟨state, active, -⟩ := stay h
      exact ⟨state.trans rstate, active.trans ractive⟩

/-! ### Selection -/

theorem selectSrc_group (d : Dev) (x : BitVec 2) (h : anyGroup d = true) :
    let s := if x = d.tb.active then d else setTb d 1
    selectSrc d x = { s with tb := { s.tb with state := .locked, active := x, slewing := true, stepping := false, target := 0 } } := if_pos h

theorem selectSrc_step (d : Dev) (x : BitVec 2) (h : anyGroup d = false) :
    let s := if x = d.tb.active then d else setTb d 1
    selectSrc d x = { s with tb := { s.tb with stepping := true, target := x } } := if_neg (by rw [h]; exact Bool.false_ne_true)

theorem stayed_iff (t : Timebase) (e : Nat) : stayed t e = true ↔ entryQual t e = true ∧ srcRank t (entrySrc t e) < srcRank t t.active ∧
    t.qualAt.getD (entrySrc t e).toNat 0 + 960000 ≤ t.stc := by
  simp only [stayed, Bool.and_eq_true, decide_eq_true_eq]

/-- The first entry of the list that meets `p`. -/
theorem find_entry (p : Nat → Bool) (e : Fin 3) (h : p e.val = true) (before : ∀ k : Fin 3, k < e → p k.val = false) :
    [0, 1, 2].find? p = some e.val := by
  match e, h, before with
  | 0, h, _ => simp [show p 0 = true from h]
  | 1, h, before => simp [show p 1 = true from h, show p 0 = false from before 0 (by decide)]
  | 2, h, before =>
    simp [show p 2 = true from h, show p 0 = false from before 0 (by decide), show p 1 = false from before 1 (by decide)]

/-- Settles O7: what REF_SELECT and REF_REVERT select (`selectSrc_group`, `selectSrc_step`), and the other events by their conditions. -/
theorem sourceSelection : Obligations.SourceSelection := by
  refine ⟨fun q d e => ?_, fun q d => ⟨fun present => next_congr ?_, fun absent => next_congr ?_, fun state => next_congr (if_neg state),
    fun none_ => next_congr ?_⟩⟩
  · intro x b free stays back switched slewed stepped
    have select : refSelectDev d = if d.guard.audioReset ∨ d.tb.stepping = true ∨ x = 0 then d else selectSrc d x := rfl
    have go (h : free) : ¬(d.guard.audioReset = true ∨ d.tb.stepping = true ∨ x = 0) := by
      obtain ⟨out, still, named⟩ := h
      rintro (h | h | h)
      · exact Bool.false_ne_true (out.symm.trans h)
      · exact Bool.false_ne_true (still.symm.trans h)
      · exact named h
    have stay (k : Fin 3) : stayed d.tb k.val = true ↔ stays k := stayed_iff d.tb k.val
    refine ⟨fun h group => next_congr ?_, fun h group => next_congr ?_, fun h => next_congr ?_, fun h => next_congr ?_, fun h => next_congr ?_,
      fun h => next_congr (if_pos h), fun h => next_congr (if_neg (by rw [h]; exact Bool.false_ne_true)), fun h => next_congr (if_pos h),
      fun h => next_congr (if_neg (by rw [h]; exact Bool.false_ne_true))⟩
    · exact congrArg (boundaryDone .select) (select.trans ((if_neg (go h)).trans (selectSrc_group d x group)))
    · exact congrArg (boundaryDone .select) (select.trans ((if_neg (go h)).trans (selectSrc_step d x group)))
    · refine congrArg (boundaryDone .select) (select.trans (if_pos ?_))
      refine Classical.byContradiction fun no => ?_
      obtain ⟨out, still, named⟩ := not_or.1 no |>.imp_right not_or.1
      exact h ⟨Bool.eq_false_iff.2 out, Bool.eq_false_iff.2 still, named⟩
    · obtain ⟨revert, locked, here, before⟩ := h
      have find : [0, 1, 2].find? (stayed d.tb) = some e.val :=
        find_entry _ e ((stay e).2 here) fun k hk => Bool.eq_false_iff.2 fun yes => before k hk ((stay k).1 yes)
      show refRevertDev d = _
      unfold refRevertDev
      rw [if_pos ⟨revert, locked⟩, find]
      dsimp only
      cases group : anyGroup d with
      | true => exact selectSrc_group d b group
      | false => exact selectSrc_step d b group
    · show refRevertDev d = d
      unfold refRevertDev
      by_cases both : d.tb.revert = true ∧ d.tb.state = .locked
      · have none_ : ∀ k : Fin 3, ¬stays k := by
          rcases h with h | h | h
          · rw [h] at both; exact absurd both.1 Bool.false_ne_true
          · exact absurd both.2 h
          · exact h
        have find : [0, 1, 2].find? (stayed d.tb) = none := by
          refine List.find?_eq_none.2 fun k hk yes => ?_
          have lt : k < 3 := by simp at hk; omega
          exact none_ ⟨k, lt⟩ ((stay ⟨k, lt⟩).1 yes)
        rw [if_pos both, find]
      · rw [if_neg both]
  · exact if_pos present
  · exact if_neg (by rw [absent]; exact Bool.false_ne_true)
  · exact congrArg (boundaryDone .snap) (if_neg (by rw [none_]; exact Bool.false_ne_true))

/-! ### Words of the Zaith link -/

/-- What the cues that a mark resolves leave alone. -/
def Dev.besides (d : Dev) : Timebase × Bank Bool 32 × Rails × Guard := (d.tb, d.groupRel, d.rails, d.guard)

theorem streamAt_besides (d : Dev) (r : CmdRef) (b : Nat) : (streamAt d r b).besides = d.besides := by
  simp [Dev.besides, streamAt, Dev.streamAll]

theorem streamUnstart_besides (d : Dev) (r : CmdRef) : (streamUnstart d r).besides = d.besides := by
  simp [Dev.besides, streamUnstart, Dev.streamAll]

theorem setFlight_besides (d : Dev) (o : Nat) (u : Flight → Flight) : (setFlight d o u).besides = d.besides := by
  simp [Dev.besides, setFlight]

theorem lateFlight_besides (d : Dev) (f : Flight) : (lateFlight d f).besides = d.besides := by
  have drop (r : CmdRef) : (dropAct d r).besides = d.besides := by
    unfold dropAct
    (repeat' split) <;> rfl
  unfold lateFlight
  split
  · split
    · exact setFlight_besides _ _ _
    · exact (streamAt_besides _ _ _).trans (setFlight_besides _ _ _)
  · refine Eq.trans ?_ ((streamUnstart_besides _ f.ref).trans (drop f.ref))
    simp only [Dev.besides, refuse_frame]

theorem skipFrames_besides (d : Dev) (lo hi : Nat) : (skipFrames d lo hi).besides = d.besides :=
  foldl_keeps Dev.besides _ lateFlight_besides _ _

theorem resolveFrame_besides (d : Dev) (n mark : Nat) : (resolveFrame d n mark).besides = d.besides := by
  refine foldl_keeps Dev.besides _ (fun e f => ?_) _ _
  dsimp only
  split
  · exact lateFlight_besides e f
  · split
    · exact setFlight_besides _ _ _
    · exact (streamAt_besides _ _ _).trans (setFlight_besides _ _ _)

/-- What a word of the link leaves alone of all but the timebase's marks. -/
def Dev.linked (d : Dev) : Nat × Bank Bool 32 × Rails × Guard := (d.tb.ztxIdx, d.groupRel, d.rails, d.guard)

theorem linked_of_besides {d e : Dev} (h : d.besides = e.besides) : d.linked = e.linked := by
  simp only [Dev.besides, Prod.mk.injEq] at h
  obtain ⟨tb, rel, rails, guard⟩ := h
  simp only [Dev.linked, tb, rel, rails, guard]

theorem setTb_linked (d : Dev) (i : Nat) : (setTb d i).linked = d.linked := by
  simp only [Dev.linked, setTb_frame]
  rw [setTb_refs]

theorem frameDelivered_linked (d : Dev) (n : Nat) : (frameDelivered d n).linked = d.linked := by
  unfold frameDelivered
  dsimp only
  split
  · exact (linked_of_besides (skipFrames_besides _ _ _)).trans (setTb_linked _ _)
  · rfl

theorem markReceived_linked (d : Dev) (n stc phase : Nat) : (markReceived d n stc phase).linked = d.linked := by
  unfold markReceived
  exact (linked_of_besides (resolveFrame_besides _ _ _)).trans rfl

/-- The mark that a word with its MARK bit sets waits for its frame count (R569). -/
def zaithMarked (d : Dev) (n phase : Nat) : Dev :=
  if bit n 4 then { d with tb := { d.tb with markWait := some (markPlace d phase), markCycle := false } } else d

/-- The second half of a frame count, whose first half is there, completes the count and the mark that waits for it. -/
def zaithCount (e : Dev) (pay : Nat) : Dev :=
  let f := e.tb.frameLow + 2 ^ 32 * (pay % 2 ^ 16)
  let e2 := frameDelivered { e with tb := { e.tb with zaithRate := bit pay 16, lowSeen := false } } f
  match e2.tb.markWait, e2.tb.markCycle with
  | some (stc, ph), true => markReceived e2 f stc ph
  | _, _ => e2

/-- A word with a right CRC stores what its index names (R569). -/
def zaithStored (e : Dev) (idx pay : Nat) : Dev :=
  match idx with
  | 0 => { e with tb := { e.tb with frameLow := pay, lowSeen := true, markCycle := e.tb.markWait.isSome } }
  | 1 => if e.tb.lowSeen then zaithCount e pay else { e with tb := { e.tb with zaithRate := bit pay 16, lowSeen := false } }
  | 2 => { e with tb := { e.tb with partner := pay } }
  | _ => e

/-- The timebase with the answering word and its index. -/
def Timebase.answered (t : Timebase) (z : W64) (k : Nat) : Timebase := { t with ztx := z, ztxIdx := k }

theorem answered_keeps (t : Timebase) (z : W64) (k : Nat) : (t.answered z k).frameCount = t.frameCount ∧ (t.answered z k).frameSeen = t.frameSeen ∧
    (t.answered z k).zaithRate = t.zaithRate ∧ (t.answered z k).stc = t.stc ∧ (t.answered z k).event = t.event := ⟨rfl, rfl, rfl, rfl, rfl⟩

/-- The answering word (R570). -/
def zaithAnswered (d : Dev) : Dev := { d with tb := d.tb.answered (ztxWord d.tb) ((d.tb.ztxIdx + 1) % 8) }

theorem zaithAnswered_tb (d : Dev) : (zaithAnswered d).tb = d.tb.answered (ztxWord d.tb) ((d.tb.ztxIdx + 1) % 8) := rfl

theorem qif_of_tb (d : Dev) (t : Timebase) : ({ d with tb := t } : Dev).qif = d.qif := rfl

theorem zaithAnswered_qif (d : Dev) : (zaithAnswered d).qif = d.qif := qif_of_tb d _

/-- Only the timebase and the queue interface's message come from `u`. -/
theorem setTb_of_same {u d : Dev} (h : u = { d with tb := u.tb, qif := u.qif }) (t : Timebase) :
    { u with tb := t } = { d with tb := t, qif := u.qif } := by
  rw [h]

theorem zaithDev_up (d : Dev) (w : W64) (phase : Nat) (up : d.guard.audioReset = false) : zaithDev d w phase = zaithAnswered
    (if zaithCrc w.toNat ≠ bits w.toNat 56 8 then d else zaithStored (zaithMarked d w.toNat phase) (bits w.toNat 5 3) (bits w.toNat 8 32)) :=
  if_neg (by rw [up]; exact Bool.false_ne_true)

theorem zaithStored_linked (e : Dev) (idx pay : Nat) : (zaithStored e idx pay).linked = e.linked := by
  unfold zaithStored
  split
  · rfl
  · split
    · unfold zaithCount
      dsimp only
      split
      · exact (markReceived_linked _ _ _ _).trans (frameDelivered_linked _ _)
      · exact frameDelivered_linked _ _
    · rfl
  · rfl
  · rfl

theorem zaithStored_low (e : Dev) (pay : Nat) : zaithStored e 0 pay =
    { e with tb := { e.tb with frameLow := pay, lowSeen := true, markCycle := e.tb.markWait.isSome } } := rfl

theorem zaithStored_high (e : Dev) (pay : Nat) (seen : e.tb.lowSeen = true) : zaithStored e 1 pay = zaithCount e pay := if_pos seen

theorem zaithStored_lone (e : Dev) (pay : Nat) (first : e.tb.lowSeen = false) : zaithStored e 1 pay =
    { e with tb := { e.tb with zaithRate := bit pay 16, lowSeen := false } } := if_neg (by rw [first]; exact Bool.false_ne_true)

theorem zaithStored_partner (e : Dev) (pay : Nat) : zaithStored e 2 pay = { e with tb := { e.tb with partner := pay } } := rfl

theorem zaithStored_other (e : Dev) (idx pay : Nat) (h : 3 ≤ idx) : zaithStored e idx pay = e := by
  unfold zaithStored
  split
  · exact absurd h (by decide)
  · exact absurd h (by decide)
  · exact absurd h (by decide)
  · rfl

theorem zaithMarked_linked (d : Dev) (n phase : Nat) : (zaithMarked d n phase).linked = d.linked := by
  unfold zaithMarked
  split <;> rfl

/-- With no command in flight a complete frame count only stands in the timebase, its jump among the events (R63). -/
theorem frameDelivered_idle (d : Dev) (n : Nat) (idle : d.qif.flights = []) :
    frameDelivered d n = if d.tb.frameSeen = true ∧ d.tb.frameCount + 1 < n
      then setTb { d with tb := { d.tb with frameCount := n, frameSeen := true } } 3
      else { d with tb := { d.tb with frameCount := n, frameSeen := true } } := by
  unfold frameDelivered
  dsimp only
  split
  · have flights : (setTb { d with tb := { d.tb with frameCount := n, frameSeen := true } } evFrameJump).qif.flights = [] := by
      rw [← idle]
      unfold setTb
      split
      · rfl
      · exact (raiseEvt_en _ _).2.2.2.1
    unfold skipFrames
    rw [flights]
    rfl
  · rfl

theorem resolveFrame_idle (d : Dev) (n mark : Nat) (idle : d.qif.flights = []) : resolveFrame d n mark = d := by
  unfold resolveFrame
  rw [idle]
  rfl

/-- What a complete frame count leaves in the timebase and, with no command in flight, of the part. -/
theorem frameDelivered_parts (d : Dev) (n : Nat) (idle : d.qif.flights = []) :
    let u := frameDelivered d n
    u = { d with tb := u.tb, qif := u.qif } ∧ u.qif.flights = [] ∧
      (∃ ev, u.tb = { d.tb with frameCount := n, frameSeen := true, event := ev }) ∧
      (d.tb.frameSeen = true → d.tb.frameCount + 1 < n → u.tb.event.getLsbD 3 = true) := by
  intro u
  have out : u = _ := frameDelivered_idle d n idle
  rw [out]
  split
  · refine ⟨?_, ?_, ⟨_, setTb_refs _ 3⟩, fun _ _ => setTb_bit _ 3 (by decide)⟩
    · apply dev_ext <;> simp
    · unfold setTb
      split
      · exact idle
      · exact (raiseEvt_en _ _).2.2.2.1.trans idle
  next no => exact ⟨rfl, idle, ⟨d.tb.event, rfl⟩, fun seen jump => absurd ⟨seen, jump⟩ no⟩

/-- The part as it waits for the frame count of a mark. -/
def Dev.waiting (d : Dev) (wait : Option (Nat × Nat)) (cycle : Bool) : Dev := { d with tb := { d.tb with markWait := wait, markCycle := cycle } }

theorem zaithMarked_on (d : Dev) (n phase : Nat) (h : bit n 4 = true) : zaithMarked d n phase = d.waiting (some (markPlace d phase)) false := if_pos h

theorem zaithMarked_off (d : Dev) (n phase : Nat) (h : ¬bit n 4 = true) : zaithMarked d n phase = d.waiting d.tb.markWait d.tb.markCycle := if_neg h

/-- The timebase as a completed count leaves it before its jump is seen. -/
def Dev.counting (e : Dev) (pay : Nat) : Dev := { e with tb := { e.tb with zaithRate := bit pay 16, lowSeen := false } }

/-- The frame count of which `pay` is the second half. -/
def Timebase.count (t : Timebase) (pay : Nat) : Nat := t.frameLow + 2 ^ 32 * (pay % 2 ^ 16)

theorem waiting_count (d : Dev) (wait : Option (Nat × Nat)) (cycle : Bool) (pay : Nat) :
    (d.waiting wait cycle).tb.count pay = d.tb.frameLow + 2 ^ 32 * (pay % 2 ^ 16) := by
  simp only [Timebase.count, Dev.waiting]

theorem zaithCount_plain (e : Dev) (pay : Nat) (idle : e.qif.flights = []) (plain : e.tb.markCycle = false) :
    zaithCount e pay = frameDelivered (e.counting pay) (e.tb.count pay) := by
  obtain ⟨-, -, ⟨ev, tb⟩, -⟩ := frameDelivered_parts (e.counting pay) (e.tb.count pay) idle
  have cycle : (frameDelivered (e.counting pay) (e.tb.count pay)).tb.markCycle = false := by rw [tb]; exact plain
  show (match (frameDelivered (e.counting pay) (e.tb.count pay)).tb.markWait, (frameDelivered (e.counting pay) (e.tb.count pay)).tb.markCycle with
    | some (stc, ph), true => markReceived (frameDelivered (e.counting pay) (e.tb.count pay)) (e.tb.count pay) stc ph
    | _, _ => frameDelivered (e.counting pay) (e.tb.count pay)) = _
  rw [cycle]
  split <;> simp_all

theorem zaithCount_mark (e : Dev) (pay stc ph : Nat) (idle : e.qif.flights = []) (waits : e.tb.markWait = some (stc, ph))
    (cycle : e.tb.markCycle = true) :
    zaithCount e pay = markReceived (frameDelivered (e.counting pay) (e.tb.count pay)) (e.tb.count pay) stc ph := by
  obtain ⟨-, -, ⟨ev, tb⟩, -⟩ := frameDelivered_parts (e.counting pay) (e.tb.count pay) idle
  have wait : (frameDelivered (e.counting pay) (e.tb.count pay)).tb.markWait = some (stc, ph) := by rw [tb]; exact waits
  have cyc : (frameDelivered (e.counting pay) (e.tb.count pay)).tb.markCycle = true := by rw [tb]; exact cycle
  show (match (frameDelivered (e.counting pay) (e.tb.count pay)).tb.markWait, (frameDelivered (e.counting pay) (e.tb.count pay)).tb.markCycle with
    | some (stc, ph), true => markReceived (frameDelivered (e.counting pay) (e.tb.count pay)) (e.tb.count pay) stc ph
    | _, _ => frameDelivered (e.counting pay) (e.tb.count pay)) = _
  rw [wait, cyc]

theorem zaithDev_wrong (d : Dev) (w : W64) (phase : Nat) (up : d.guard.audioReset = false) (wrong : ¬zaithCrc w.toNat = bits w.toNat 56 8) :
    zaithDev d w phase = zaithAnswered d := by
  rw [zaithDev_up d w phase up, if_pos wrong]

theorem zaithDev_right (d : Dev) (w : W64) (phase : Nat) (up : d.guard.audioReset = false) (right : zaithCrc w.toNat = bits w.toNat 56 8) :
    zaithDev d w phase = zaithAnswered (zaithStored (zaithMarked d w.toNat phase) (bits w.toNat 5 3) (bits w.toNat 8 32)) := by
  rw [zaithDev_up d w phase up, if_neg (Classical.not_not.2 right)]

theorem zaithAnswered_linked (d e : Dev) (h : d.linked = e.linked) : let u := zaithAnswered d
    u.tb.ztxIdx = (e.tb.ztxIdx + 1) % 8 ∧ u.groupRel = e.groupRel ∧ u.rails = e.rails ∧ u.guard = e.guard := by
  simp only [Dev.linked, Prod.mk.injEq] at h
  obtain ⟨index, rel, rails, guard⟩ := h
  simp only [zaithAnswered, Timebase.answered, index, rel, rails, guard, and_self]

theorem zaithDev_linked (d : Dev) (w : W64) (phase : Nat) (up : d.guard.audioReset = false) : let u := zaithDev d w phase
    u.tb.ztxIdx = (d.tb.ztxIdx + 1) % 8 ∧ u.groupRel = d.groupRel ∧ u.rails = d.rails ∧ u.guard = d.guard := by
  by_cases right : zaithCrc w.toNat = bits w.toNat 56 8
  · rw [zaithDev_right d w phase up right]
    exact zaithAnswered_linked _ _ ((zaithStored_linked _ _ _).trans (zaithMarked_linked _ _ _))
  · rw [zaithDev_wrong d w phase up right]
    exact zaithAnswered_linked _ _ rfl

/-- A complete frame count with no mark waiting for it. -/
theorem zaithCount_idle (e : Dev) (pay : Nat) (idle : e.qif.flights = []) (plain : e.tb.markCycle = false) :
    let u := zaithAnswered (zaithCount e pay)
    u = { e with tb := u.tb, qif := u.qif } ∧ u.tb.frameCount = e.tb.count pay ∧ u.tb.frameSeen = true ∧ u.tb.zaithRate = bit pay 16 ∧
      u.tb.stc = e.tb.stc ∧ (e.tb.frameSeen = true → e.tb.frameCount + 1 < u.tb.frameCount → u.tb.event.getLsbD 3 = true) := by
  rw [zaithCount_plain e pay idle plain]
  obtain ⟨same, -, ⟨ev, tb⟩, jump⟩ := frameDelivered_parts (e.counting pay) (e.tb.count pay) idle
  generalize frameDelivered (e.counting pay) (e.tb.count pay) = u at same tb jump ⊢
  obtain ⟨kcount, kseen, krate, kstc, kevent⟩ := answered_keeps u.tb (ztxWord u.tb) ((u.tb.ztxIdx + 1) % 8)
  dsimp only
  rw [zaithAnswered_tb, zaithAnswered_qif, kcount, kseen, krate, kstc, kevent]
  have count : u.tb.frameCount = e.tb.count pay := by rw [tb]
  refine ⟨setTb_of_same same _, count, ?_, ?_, ?_, fun seen more => jump seen ?_⟩
  · rw [tb]
  · rw [tb]
    rfl
  · rw [tb]
    rfl
  · rw [← count]
    exact more

/-- Settles O9: a word by its CRC and its index (`zaithDev_up`), a complete frame count by `frameDelivered_parts`. -/
theorem zaithWordTakenIn : Obligations.ZaithWordTakenIn := by
  intro q d w phase
  refine ⟨fun out => next_congr (if_pos out), fun up => ?_⟩
  intro answer right idx marked
  have parts : ∃ wait cycle, zaithMarked d w.toNat phase = d.waiting wait cycle ∧
      marked = { d.tb with markWait := wait, markCycle := cycle } ∧ (w.getLsbD 4 = false → wait = d.tb.markWait ∧ cycle = d.tb.markCycle) := by
    by_cases h : w.getLsbD 4 = true
    · exact ⟨_, _, zaithMarked_on d w.toNat phase h, if_pos h, fun no => absurd (no.symm.trans h) Bool.false_ne_true⟩
    · exact ⟨_, _, zaithMarked_off d w.toNat phase h, if_neg h, fun _ => ⟨rfl, rfl⟩⟩
  obtain ⟨wait, cycle, hmark, hm, unset⟩ := parts
  have taken (h : right) : zaithDev d w phase = zaithAnswered (zaithStored (d.waiting wait cycle) idx (bits w.toNat 8 32)) :=
    (zaithDev_right d w phase up h).trans (by rw [hmark])
  have later (h : right) (one : idx = 1) (second : d.tb.lowSeen = true) :
      zaithDev d w phase = zaithAnswered (zaithCount (d.waiting wait cycle) (bits w.toNat 8 32)) := by
    refine (taken h).trans (congrArg zaithAnswered ?_)
    rw [one]
    exact zaithStored_high _ _ second
  rw [hm]
  refine ⟨⟨_, rfl, ?_⟩, fun wrong => next_congr ?_, fun h two => next_congr ?_, fun h three => next_congr ?_, fun h zero => next_congr ?_,
    fun h one first => next_congr ?_, fun h one second unmarked idle => ?_, fun stc ph h one second plain waits marks idle => ?_⟩
  · obtain ⟨index, others⟩ := zaithDev_linked d w phase up
    exact ⟨index, zaithDev_chs d w phase, others⟩
  · exact zaithDev_wrong d w phase up wrong
  · refine (taken h).trans ?_
    rw [two, zaithStored_partner]
    rfl
  · refine (taken h).trans ?_
    rw [zaithStored_other _ _ _ three]
    rfl
  · refine (taken h).trans ?_
    rw [zero, zaithStored_low]
    rfl
  · refine (taken h).trans ?_
    rw [one]
    exact congrArg zaithAnswered (zaithStored_lone (d.waiting wait cycle) _ first)
  · refine ⟨_, next_congr (later h one second), ?_⟩
    obtain ⟨same, count, seen, rate, stc, jump⟩ := zaithCount_idle (d.waiting wait cycle) (bits w.toNat 8 32) idle unmarked
    exact ⟨same, count.trans (waiting_count d wait cycle _), seen, rate, stc, jump⟩
  · obtain ⟨hw, hc⟩ := unset plain
    refine ⟨_, next_congr (later h one second), ?_⟩
    rw [zaithCount_mark (d.waiting wait cycle) _ stc ph idle (hw.trans waits) (hc.trans marks)]
    obtain ⟨-, still, -, -⟩ := frameDelivered_parts ((d.waiting wait cycle).counting (bits w.toNat 8 32))
      ((d.waiting wait cycle).tb.count (bits w.toNat 8 32)) idle
    generalize frameDelivered ((d.waiting wait cycle).counting (bits w.toNat 8 32)) ((d.waiting wait cycle).tb.count (bits w.toNat 8 32)) = u
      at still ⊢
    have out : markReceived u ((d.waiting wait cycle).tb.count (bits w.toNat 8 32)) stc ph = _ := resolveFrame_idle _ _ _ still
    rw [out]
    exact ⟨rfl, rfl, rfl, rfl, rfl, rfl⟩

end Sys2Proof.Machine
end

section
/-!
PROOFS. The work of the tiles: slack and late periods (R87 to R91), the Re windows (R269, R270).
-/

namespace Sys2Proof.Machine

theorem updN_get {α : Type} {n : Nat} (v : Vector α n) (i : Nat) (j : Fin n) (f : α → α) :
    (updN v i f)[j] = if j.val = i then f v[j] else v[j] := by
  unfold updN
  by_cases bound : i < n
  · rw [dif_pos bound]
    exact (upd_get v ⟨i, bound⟩ j f).trans (ite_of_iff (by rw [Fin.ext_iff]) _ _)
  · rw [dif_neg bound, if_neg (by omega)]

theorem tile_get (d : Dev) (t k : LTile) (f : TileState → TileState) :
    (d.tile t f).core.tiles[k] = if k = t then f d.core.tiles[k] else d.core.tiles[k] :=
  upd_get d.core.tiles t k f

theorem tile_same (d : Dev) (t : LTile) (f : TileState → TileState) : (d.tile t f).core.tiles[t] = f d.core.tiles[t] :=
  (tile_get d t t f).trans (if_pos rfl)

theorem tile_other (d : Dev) (t k : LTile) (f : TileState → TileState) (h : k ≠ t) : (d.tile t f).core.tiles[k] = d.core.tiles[k] :=
  (tile_get d t k f).trans (if_neg h)

/-! ### Completion of a period's work -/

theorem lateAll_late (d : Dev) (own : Ch → Bool) (c : Ch) : (lateAll d own).chs[c].late =
    if own c = true ∧ countsLate d.chs[c] = true then min 0xFFFFFFFF (d.chs[c].late + 1) else d.chs[c].late := by
  simp only [lateAll, chAll_get, Bool.and_eq_true, satN_eq_min]
  split <;> rfl

theorem lateAll_frame (d : Dev) (own : Ch → Bool) : lateAll d own = { d with chs := (lateAll d own).chs } := by
  unfold lateAll
  apply dev_ext <;> simp

theorem lateAll_core (d : Dev) (own : Ch → Bool) : (lateAll d own).core = d.core := by
  rw [lateAll_frame]

/-- The slack record of an Fc sequence that took `count` ticks (R91). -/
def slackFc (count : Nat) (r : SlackRec) : SlackRec :=
  { r with fcMin := min r.fcMin (256 - count), fcMinInt := min r.fcMinInt (256 - count), fcLast := satN 0xFFFF count
           skipped := if decide (512 < count) then satN 0xFFFFFFFF (r.skipped + 1) else r.skipped }

/-- The slack record of Fi work that took `count` of the `per` ticks of the period. -/
def slackFi (per count : Nat) (skip : Bool) (r : SlackRec) : SlackRec :=
  { r with fiMin := min r.fiMin (per - count), fiMinInt := min r.fiMinInt (per - count)
           lateFi := if decide (per < count) then satN 0xFFFFFFFF (r.lateFi + 1) else r.lateFi
           skipped := if skip then satN 0xFFFFFFFF (r.skipped + 1) else r.skipped }

/-- A tile's slack record after one completion. -/
def Dev.slacked (d : Dev) (t : LTile) (f : SlackRec → SlackRec) : Dev :=
  { d with core := { d.core with slack := updN d.core.slack d.core.tiles[t].phys f } }

theorem slacked_get (d : Dev) (t : LTile) (f : SlackRec → SlackRec) (k : Phys) : (d.slacked t f).core.slack[k] =
    if k.val = d.core.tiles[t].phys then f d.core.slack[k] else d.core.slack[k] :=
  updN_get _ _ _ _

theorem slacked_tile_frame (d : Dev) (t : LTile) (f : SlackRec → SlackRec) (g : TileState → TileState) :
    let u := (d.slacked t f).tile t g
    u = { d with core := u.core } ∧ u.core.slack = (d.slacked t f).core.slack := ⟨rfl, rfl⟩

section
variable (d : Dev) (t : LTile) (count : Nat) (runs : imageOn d = true ∧ tileRuns d.core.tiles[t] = true)
include runs

theorem tileDone_fc (eng : t.val < 16) : tileDoneDev d t false count =
    if 512 < count then lateAll ((d.slacked t (slackFc count)).tile t fun x => { x with skipFc := true }) fun c => decide (c.val / 8 = t.val)
    else d.slacked t (slackFc count) := by
  obtain ⟨on, up⟩ := runs
  have go : (!imageOn d || !tileRuns d.core.tiles[t] || (!false && !decide (t.val < 16))) = false := by rw [on, up, decide_eq_true eng]; rfl
  refine (if_neg (by rw [go]; exact Bool.false_ne_true)).trans ((if_pos rfl).trans ?_)
  exact ite_of_iff decide_eq_true_iff _ _

theorem tileDone_fi : tileDoneDev d t true count =
    let skip := !decide (t.val < 16) && decide (2 * (256 * d.tb.n) < count)
    let u := (d.slacked t (slackFi (256 * d.tb.n) count skip)).tile t fun x =>
      { x with lateNext := x.lateNext || decide (256 * d.tb.n < count), skipNext := x.skipNext || skip }
    if skip then lateAll u fun c => decide (16 + c.val / 32 = t.val) else u := by
  obtain ⟨on, up⟩ := runs
  have go : (!imageOn d || !tileRuns d.core.tiles[t] || (!true && !decide (t.val < 16))) = false := by rw [on, up]; rfl
  exact (if_neg (by rw [go]; exact Bool.false_ne_true)).trans (if_neg Bool.false_ne_true)

end

/-- Settles O18: the two kinds of completion by `tileDone_fc` and `tileDone_fi`. -/
theorem tilePeriodComplete : Obligations.TilePeriodComplete := by
  intro q d t fi count p runs later
  refine ⟨fun run eng => ?_, fun run => ?_, fun no => next_congr (if_pos ?_)⟩
  · refine ⟨_, next_congr (tileDone_fc d t count run eng), ?_⟩
    have least (k : Phys) (own : k.val = p) : (d.slacked t (slackFc count)).core.slack[k].fcMin = min d.core.slack[k].fcMin (256 - count) ∧
        (d.slacked t (slackFc count)).core.slack[k].fcLast = min 0xFFFF count := by
      rw [slacked_get, if_pos own]
      exact ⟨rfl, satN_eq_min _ _⟩
    have others (k : Phys) (other : k.val ≠ p) := (slacked_get d t (slackFc count) k).trans (if_neg other)
    by_cases skip : 512 < count
    · rw [if_pos skip]
      obtain ⟨same, slack⟩ := slacked_tile_frame d t (slackFc count) fun x => { x with skipFc := true }
      have state : ((d.slacked t (slackFc count)).tile t fun x => { x with skipFc := true }).core.tiles[t].skipFc = true := by rw [tile_same]
      generalize ((d.slacked t (slackFc count)).tile t fun x => { x with skipFc := true }) = v at same slack state ⊢
      rw [lateAll_core, slack]
      have chs : v.chs = d.chs := by rw [same]
      refine ⟨?_, least, others, fun few => absurd skip (by omega), fun _ => ⟨state, fun c => ?_⟩⟩
      · rw [lateAll_frame, same]
      · rw [lateAll_late, chs]
        exact ite_of_iff (and_congr decide_eq_true_iff Iff.rfl) _ _
    · rw [if_neg skip]
      exact ⟨rfl, least, others, fun _ => ⟨rfl, rfl⟩, fun many => absurd many skip⟩
  · refine ⟨_, next_congr (tileDone_fi d t count run), ?_⟩
    dsimp only
    generalize hskip : (!decide (t.val < 16) && decide (2 * (256 * d.tb.n) < count)) = skip
    have skips : skip = true ↔ 16 ≤ t.val ∧ 512 * d.tb.n < count := by
      rw [← hskip]
      simp only [Bool.and_eq_true, Bool.not_eq_true', decide_eq_false_iff_not, decide_eq_true_eq]
      omega
    have least (k : Phys) (own : k.val = p) : (d.slacked t (slackFi (256 * d.tb.n) count skip)).core.slack[k].fiMin =
        min d.core.slack[k].fiMin (256 * d.tb.n - count) := by
      rw [slacked_get, if_pos own]
      rfl
    obtain ⟨same, slack⟩ := slacked_tile_frame d t (slackFi (256 * d.tb.n) count skip) fun x =>
      { x with lateNext := x.lateNext || decide (256 * d.tb.n < count), skipNext := x.skipNext || skip }
    have state := tile_same (d.slacked t (slackFi (256 * d.tb.n) count skip)) t fun x =>
      { x with lateNext := x.lateNext || decide (256 * d.tb.n < count), skipNext := x.skipNext || skip }
    generalize ((d.slacked t (slackFi (256 * d.tb.n) count skip)).tile t fun x =>
      { x with lateNext := x.lateNext || decide (256 * d.tb.n < count), skipNext := x.skipNext || skip }) = v at same slack state ⊢
    have chs : v.chs = d.chs := by rw [same]
    have late : (256 * d.tb.n < count → v.core.tiles[t].lateNext = true) ∧
        (count ≤ 256 * d.tb.n → v.core.tiles[t].lateNext = d.core.tiles[t].lateNext) := by
      rw [state]
      exact ⟨fun h => by rw [decide_eq_true h, Bool.or_true], fun h => (congrArg _ (decide_eq_false (by omega))).trans (Bool.or_false _)⟩
    by_cases hs : skip = true
    · rw [if_pos hs, lateAll_core, slack]
      refine ⟨?_, least, late.1, late.2, fun no => absurd (skips.1 hs) (by omega), fun _ _ => ⟨?_, fun c => ?_⟩⟩
      · rw [lateAll_frame, same]
      · rw [state, hs, Bool.or_true]
      · rw [lateAll_late, chs]
        exact ite_of_iff (and_congr decide_eq_true_iff Iff.rfl) _ _
    · rw [if_neg hs, slack]
      refine ⟨?_, least, late.1, late.2, fun _ => ⟨chs, ?_⟩, fun mix many => absurd (skips.2 ⟨mix, many⟩) hs⟩
      · rw [same]
      · rw [state, Bool.eq_false_iff.2 hs]
        exact Bool.or_false _
  · simp only [Bool.or_eq_true, Bool.not_eq_true', Bool.and_eq_true, decide_eq_false_iff_not]
    rcases no with no | ⟨fc, mix⟩
    · refine .inl ?_
      refine Classical.byContradiction fun both => ?_
      rw [not_or, Bool.not_eq_false, Bool.not_eq_false] at both
      exact no both
    · exact .inr ⟨fc, by omega⟩

/-! ### Re windows -/

/-- The status word of the lane that serves a channel. -/
def laneStatus (d : Dev) (c : Ch) (s : Stitch) : Nat := (d.core.tiles[etOf c].rd (s.dst + 23) (c.val % 4)).num

/-- What opens a window (R269, R272). -/
def windowOpened (d : Dev) (c : Ch) (s : Stitch) : Dev :=
  let st := laneStatus d c s
  let on := d.chs[c].cfg.pilotEn && (decide (st / 65536 < 14400) || bit (d.core.tiles[etOf c].rd (s.srcA + 6) (c.val % 4)).num 5)
  (d.tile (etOf c) fun u => u.wr (s.dst + 23) (c.val % 4) (.i (st - bits st 1 2 * 2 + 2 * b2n on + 4))).stat c fun y => { y with pilot := on }

/-- The words of a tile as a window closes (R270). -/
def tileClosed (d : Dev) (c : Ch) (s : Stitch) (v : TileState) : TileState :=
  let l := c.val % 4
  let u := d.core.tiles[etOf c]
  let st := (u.rd (s.dst + 23) l).num
  let sig : Rat := (d.chs[c].cfg.reSigMin : Rat) / 1000
  let low := decide ((u.rd (s.dst + 18) l).rat < 12000 * sig * sig)
  let w6 := (u.rd (s.srcA + 6) l).num
  ((((v.wrs (s.dst + 14) l [v.rd (s.dst + 17) l, v.rd (s.dst + 18) l]).wrs (s.dst + 17) l [.a 0 31 false, .a 0 31 false]).restage
    s.dst 23 l).wr (s.dst + 23) l (.i (st - bits st 1 2 * 2))).wr (s.srcA + 6) l (.i (w6 - 32 * b2n (bit w6 5) + 32 * b2n low))

section
variable (d : Dev) (c : Ch) (s : Stitch) (n : Nat) (stitch : excurOf d c = some s) (count : d.chs[c].sense.winCnt = some n)
include stitch count

theorem windowOpen_eq : windowOpen d c = if n = 2400 ∧ bit (laneStatus d c s) 2 = false then windowOpened d c s else d := by
  unfold windowOpen
  rw [stitch, count]
  rfl

theorem windowClose_eq : windowClose d c = if n = 2400 ∧ bit (laneStatus d c s) 2 = true
    then ((d.tile (etOf c) (tileClosed d c s)).sns c fun y => { y with winClosed := true }).stat c fun y => { y with pilot := false } else d := by
  unfold windowClose
  rw [stitch, count]
  rfl

end

theorem window_none (d : Dev) (c : Ch) (h : excurOf d c = none ∨ d.chs[c].sense.winCnt = none) : windowOpen d c = d ∧ windowClose d c = d := by
  unfold windowOpen windowClose
  rcases h with h | h
  · rw [h]
    exact ⟨rfl, rfl⟩
  · rw [h]
    cases excurOf d c <;> exact ⟨rfl, rfl⟩

/-- Settles O20: the two windows' equations (`windowOpen_eq`, `windowClose_eq`). -/
theorem reWindows : Obligations.ReWindows := by
  intro q d c opened closed
  have opens {u : Dev} (h : windowOpen d c = u) : exec (.reWindowOpen c) ⟨q, d⟩ = opened u :=
    next_congr (congrArg (boundaryDone (.windowOpen c.val)) h)
  have closes {u : Dev} (h : windowClose d c = u) : exec (.reWindowClose c) ⟨q, d⟩ = closed u :=
    next_congr (congrArg (boundaryDone (.windowClose c.val)) h)
  refine ⟨fun none_ => ⟨opens (window_none d c none_).1, closes (window_none d c none_).2⟩, ?_⟩
  intro s n stitch count t l st ask pilot
  have open_ := windowOpen_eq d c s n stitch count
  have close := windowClose_eq d c s n stitch count
  refine ⟨fun due off => opens ?_, fun due on => ⟨_, closes (close.trans (if_pos ⟨due, on⟩)), ?_⟩, fun no => opens (open_.trans (if_neg ?_)),
    fun no => closes (close.trans (if_neg ?_))⟩
  · refine (open_.trans (if_pos ⟨due, off⟩)).trans ?_
    have bits' : bits st 1 2 = st / 2 % 4 := rfl
    have bit' : 2 * b2n pilot = if pilot then 2 else 0 := by
      cases pilot <;> rfl
    rw [← bit', ← bits']
    rfl
  · have tiles (k : LTile) := tile_other d t k (tileClosed d c s)
    generalize hv : d.tile (etOf c) (tileClosed d c s) = v at tiles ⊢
    have same : v = { d with core := { d.core with tiles := v.core.tiles } } := by rw [← hv]; rfl
    have here : ((v.sns c fun y => { y with winClosed := true }).stat c fun y => { y with pilot := false }) =
        v.ch c fun x => { x with sense := { x.sense with winClosed := true }, stat := { x.stat with pilot := false } } := ch_ch v c _ _
    rw [here]
    refine ⟨?_, ?_, ?_, fun k other => ?_, fun k other => ?_⟩
    · rw [same]
      rfl
    · rw [ch_same]
    · rw [ch_same]
    · rw [ch_other v c k _ other, same]
    · exact tiles k other
  · rintro ⟨due, off⟩
    exact no.elim (fun h => h due) fun on => Bool.false_ne_true (off.symm.trans on)
  · rintro ⟨due, on⟩
    exact no.elim (fun h => h due) fun off => Bool.false_ne_true (off.symm.trans on)

/-! ### The clear of a latch -/

theorem latchedPair_iff (d : Dev) (c : Ch) : latchedPair d c = true ↔ ∃ h ∈ halves d c, d.chs[h].prot.latched = true := by
  simp only [latchedPair, List.any_eq_true]

/-- Step 1 of a short check on a channel, with the commands that wait for it. -/
def checkBegun (d : Dev) (refs : List CmdRef) (x : Chan) : Chan := { x with prot := { x.prot with
  drive := .check, check := some ⟨1, min x.cfg.ilim 40, false, false, 0, 0, 0, 0, d.tb.stc, refs⟩ } }

/-- Step 1 of the short check on every half. -/
def checkFrom (d : Dev) (l : Ch) (refs : List CmdRef) : Dev :=
  forCh (halves d l) (fun e h => e.ch h (checkBegun d (if h = l then refs else []))) d

theorem checkFrom_parts (d : Dev) (l : Ch) (refs : List CmdRef) : let u := checkFrom d l refs
    u = { d with chs := u.chs } ∧ (∀ k : Ch, k ∉ halves d l → u.chs[k] = d.chs[k]) ∧
    ∀ h ∈ halves d l, u.chs[h] = checkBegun d (if h = l then refs else []) d.chs[h] := by
  have get := forCh_ch_get (fun h => checkBegun d (if h = l then refs else [])) (halves d l) d (halves_nodup d l)
  exact ⟨forCh_ch_only (fun h => checkBegun d (if h = l then refs else [])) _ d, fun k out => (get k).trans (if_neg out),
    fun h half => (get h).trans (if_pos half)⟩

/-- The answer to a clear that no short check follows, where a command waits for one. -/
def clearAnswer (r : Option CmdRef) (e : Dev) (st : Nat) : Dev :=
  match r with
  | some q => completeAt e q opChannel st e.tb.stc
  | none => e

@[simp] theorem clearAnswer_none (e : Dev) (st : Nat) : clearAnswer none e st = e := rfl

theorem doClear_eq (d : Dev) (r : Option CmdRef) (c : Ch) : doClear d r c =
    if !latchedPair d c then clearAnswer r d stSuccess
    else match d.chs[lead d c].prot.check with
    | some k => d.ch (lead d c) fun x => { x with prot := { x.prot with check := some { k with refs := k.refs ++ r.toList } } }
    | none => if clearRefused d (lead d c) then clearAnswer r (hist d c.val 0x0E 0 false) stNotReady else checkFrom d (lead d c) r.toList := rfl

theorem doClear_unlatched (d : Dev) (r : Option CmdRef) (c : Ch) (h : ¬∃ h ∈ halves d c, d.chs[h].prot.latched = true) :
    doClear d r c = clearAnswer r d stSuccess := by
  rw [doClear_eq, Bool.eq_false_iff.2 fun yes => h ((latchedPair_iff d c).1 yes)]
  rfl

section
variable (d : Dev) (r : Option CmdRef) (c : Ch) (latched : ∃ h ∈ halves d c, d.chs[h].prot.latched = true)
include latched

theorem doClear_joins (k : Check) (runs : d.chs[lead d c].prot.check = some k) : doClear d r c =
    d.ch (lead d c) fun x => { x with prot := { x.prot with check := some { k with refs := k.refs ++ r.toList } } } := by
  rw [doClear_eq, (latchedPair_iff d c).2 latched, runs]
  rfl

theorem doClear_refused (idle : d.chs[lead d c].prot.check = none) (no : clearRefused d (lead d c) = true) :
    doClear d r c = clearAnswer r (hist d c.val 0x0E 0 false) stNotReady := by
  rw [doClear_eq, (latchedPair_iff d c).2 latched, idle]
  exact if_pos no

theorem doClear_starts (idle : d.chs[lead d c].prot.check = none) (go : clearRefused d (lead d c) = false) :
    doClear d r c = checkFrom d (lead d c) r.toList := by
  rw [doClear_eq, (latchedPair_iff d c).2 latched, idle]
  rw [go]
  exact if_neg Bool.false_ne_true

end

/-- What a clear with no command to complete leaves of the part: everything but the running checks and the record of a refusal. -/
def ClearedFrom (d e : Dev) : Prop :=
  e = { d with chs := e.chs, guard := e.guard, admin := e.admin, free := e.free } ∧
  ∀ k : Ch, e.chs[k].prot.latched = d.chs[k].prot.latched ∧ e.chs[k].prot.released = d.chs[k].prot.released ∧ e.chs[k].mod = d.chs[k].mod

theorem doClear_clearedFrom (d : Dev) (c : Ch) : ClearedFrom d (doClear d none c) := by
  by_cases latched : ∃ h ∈ halves d c, d.chs[h].prot.latched = true
  · cases check : d.chs[lead d c].prot.check with
    | some k =>
      rw [doClear_joins d none c latched k check]
      refine ⟨rfl, fun j => ?_⟩
      rw [ch_get]
      split <;> exact ⟨rfl, rfl, rfl⟩
    | none =>
      cases refused : clearRefused d (lead d c) with
      | true =>
        rw [doClear_refused d none c latched check refused]
        exact ⟨by apply dev_ext <;> simp, fun j => by simp⟩
      | false =>
        rw [doClear_starts d none c latched check refused]
        change ClearedFrom d (checkFrom d (lead d c) [])
        obtain ⟨same, others, begun⟩ := checkFrom_parts d (lead d c) []
        refine ⟨?_, fun j => ?_⟩
        · rw [same]
        · by_cases half : j ∈ halves d (lead d c)
          · exact begun j half ▸ ⟨rfl, rfl, rfl⟩
          · exact others j half ▸ ⟨rfl, rfl, rfl⟩
  · rw [doClear_unlatched d none c latched]
    exact ⟨rfl, fun _ => ⟨rfl, rfl, rfl⟩⟩

theorem ClearedFrom.trans {d e f : Dev} (h : ClearedFrom d e) (k : ClearedFrom e f) : ClearedFrom d f := by
  refine ⟨?_, fun j => ?_⟩
  · rw [k.1, h.1]
  · obtain ⟨latched, released, mod⟩ := h.2 j
    obtain ⟨latched', released', mod'⟩ := k.2 j
    exact ⟨latched'.trans latched, released'.trans released, mod'.trans mod⟩

/-- The mask of one channel's bit names that channel. -/
theorem clearMask_single (c : Ch) (m : Fin 4) (here : c.val / 32 = m.val) :
    ((ixs 128).filter fun k => decide (k.val / 32 = m.val) && (1#32 <<< (c.val % 32)).getLsbD (k.val % 32)) = [c] := by
  have one (k : Ch) : (decide (k.val / 32 = m.val) && (1#32 <<< (c.val % 32)).getLsbD (k.val % 32)) = decide (k = c) := by
    rw [Bool.eq_iff_iff]
    simp only [Bool.and_eq_true, decide_eq_true_eq, BitVec.getLsbD_shiftLeft, BitVec.getLsbD_one, Fin.ext_iff, Bool.not_eq_true',
      decide_eq_false_iff_not]
    omega
  simp only [one]
  rw [List.filter_eq, ixs, (List.nodup_finRange 128).count, if_pos (List.mem_finRange c)]
  rfl

/-- Settles O23: a clear by its outcomes (`doClear_latched`), a write of the clear register by the channels that its mask names. -/
theorem latchClearStarts : Obligations.LatchClearStarts := by
  intro q d r c m mask l latched starts
  refine ⟨fun on => ?_, fun off => next_congr (if_neg (by rw [off]; exact Bool.false_ne_true)), fun h idle go here => ?_, fun no here => ?_, ?_, ?_⟩
  · have run {u : Dev} (h : doClear d (some r) c = u) : exec (.clearLatch r c) ⟨q, d⟩ = .next ⟨q, u⟩ := next_congr ((if_pos on).trans h)
    refine ⟨fun no => run (doClear_unlatched d (some r) c no), fun k h runs => run (doClear_joins d (some r) c h k runs),
      fun h idle no => run ?_, fun h idle go => ⟨_, run (doClear_starts d (some r) c h idle go), checkFrom_parts d l [r]⟩⟩
    rw [doClear_refused d (some r) c h idle no, clearAnswer, (hist_frame d c.val 0x0E 0 false).2.2.2.1]
    rfl
  · refine ⟨checkFrom d l [], next_congr ?_, checkFrom_parts d l []⟩
    show forCh _ _ d = _
    rw [clearMask_single c m here]
    exact doClear_starts d none c h idle go
  · refine next_congr ?_
    show forCh _ _ d = _
    rw [clearMask_single c m here]
    exact doClear_unlatched d none c no
  · obtain ⟨same, keeps⟩ := foldl_holds (ClearedFrom d) (fun e c => doClear e none c) (fun e c h => h.trans (doClear_clearedFrom e c))
      ((ixs 128).filter fun c => decide (c.val / 32 = m.val) && mask.getLsbD (c.val % 32)) d ⟨rfl, fun _ => ⟨rfl, rfl, rfl⟩⟩
    exact ⟨_, rfl, keeps, same⟩
  · have named : ((ixs 128).filter fun c => decide (c.val / 32 = m.val) && (0#32).getLsbD (c.val % 32)) = [] := by
      exact List.filter_eq_nil_iff.2 fun k _ => by rw [BitVec.getLsbD_zero, Bool.and_false]; exact Bool.false_ne_true
    exact next_congr (congrArg (fun l => forCh l (fun e c => doClear e none c) d) named)

end Sys2Proof.Machine
end

section
/-!
PROOFS. The outer boundary and the grant cycle (R159, R255, R275, R463 to R472), the guard's poll (R585), and the Awl's own events
with INJECT_ARM and INJECT_STOP (R240 to R250, R409).
-/

namespace Sys2Proof.Machine

/-! ### The outer boundary -/

/-- What the EXCUR lanes' part of an outer boundary leaves of the part and of its channels. -/
def Dev.lanesDone (d e : Dev) : Prop :=
  e = { d with chs := e.chs, core := e.core } ∧ ∀ c : Ch, e.chs[c].sense.report = d.chs[c].sense.report ∧
    e.chs[c].sense.powSum = d.chs[c].sense.powSum ∧ e.chs[c].prot = d.chs[c].prot ∧ e.chs[c].mod = d.chs[c].mod

theorem Dev.lanesDone.refl (d : Dev) : d.lanesDone d := ⟨rfl, fun _ => ⟨rfl, rfl, rfl, rfl⟩⟩

theorem Dev.lanesDone.trans {d e f : Dev} (h : d.lanesDone e) (k : e.lanesDone f) : d.lanesDone f := by
  refine ⟨?_, fun j => ?_⟩
  · rw [k.1, h.1]
  · obtain ⟨report, sum, prot, mod⟩ := h.2 j
    obtain ⟨report', sum', prot', mod'⟩ := k.2 j
    exact ⟨report'.trans report, sum'.trans sum, prot'.trans prot, mod'.trans mod⟩

theorem lanesDone_tile (d : Dev) (t : LTile) (f : TileState → TileState) : d.lanesDone (d.tile t f) :=
  ⟨rfl, fun _ => ⟨rfl, rfl, rfl, rfl⟩⟩

theorem lanesDone_ch (d : Dev) (c : Ch) (f : Chan → Chan) (report : (f d.chs[c]).sense.report = d.chs[c].sense.report)
    (sum : (f d.chs[c]).sense.powSum = d.chs[c].sense.powSum) (prot : (f d.chs[c]).prot = d.chs[c].prot)
    (mod : (f d.chs[c]).mod = d.chs[c].mod) : d.lanesDone (d.ch c f) := by
  refine ⟨rfl, fun k => ?_⟩
  by_cases here : k = c
  · rw [here, ch_same]
    exact ⟨report, sum, prot, mod⟩
  · rw [ch_other d c k f here]
    exact ⟨rfl, rfl, rfl, rfl⟩

theorem closeLane_done (d : Dev) (t : LTile) (s : Stitch) (c : Ch) : d.lanesDone (closeLane d t s c) := by
  unfold closeLane
  dsimp only
  split
  · exact .refl d
  · exact lanesDone_tile d t _

theorem setOrigin_done (d : Dev) (c : Ch) : d.lanesDone (setOrigin d c) := by
  unfold setOrigin
  dsimp only
  split
  · exact lanesDone_ch d c _ rfl rfl rfl rfl
  · exact .refl d

theorem outerStat_done (d : Dev) (t : LTile) (s : Stitch) (c : Ch) : d.lanesDone (outerStat d t s c) :=
  (lanesDone_ch d c _ rfl rfl rfl rfl).trans (lanesDone_ch _ c _ rfl rfl rfl rfl)

theorem foldl_done {α : Type} (f : Dev → α → Dev) (h : ∀ (e : Dev) (a : α), e.lanesDone (f e a)) (l : List α) (d : Dev) : d.lanesDone (l.foldl f d) :=
  foldl_holds d.lanesDone f (fun e a he => he.trans (h e a)) l d (.refl d)

/-- The part as the lanes of an outer boundary find it: sag limiters, shadows and reports done. -/
def outerStart (d : Dev) : Dev :=
  let d0 := countMisses d
  let d1 := { d0 with
    power := tab d0.power fun _ p => sagNext p (preDone d0)
    core := { d0.core with tiles := tab d0.core.tiles fun _ t => applyOuter d0.tb.stc t }
    shank := { d0.shank with fresh := false } }
  d1.chAll fun _ x => { x with sense := { x.sense with report := x.sense.powSum, powSum := 0 } }

theorem countMisses_rails (d : Dev) : (countMisses d).rails = d.rails := by
  simp only [countMisses]

theorem countMisses_power (d : Dev) : (countMisses d).power = d.power := by
  simp only [countMisses]

theorem outerStart_same (d : Dev) : outerStart d =
    { d with chs := (outerStart d).chs, power := (outerStart d).power, core := (outerStart d).core, shank := { d.shank with fresh := false } } := by
  apply dev_ext <;> simp only [outerStart, countMisses, chAll_frame]

theorem outerStart_power (d : Dev) (t : PTile) : (outerStart d).power[t] = sagNext d.power[t] (preDone d) := by
  have done : preDone (countMisses d) = preDone d := by simp only [preDone, countMisses_rails]
  simp only [outerStart, chAll_frame, tab_get, done, countMisses_power]

theorem outerStart_chs (d : Dev) (c : Ch) :
    (outerStart d).chs[c] = { d.chs[c] with sense := { d.chs[c].sense with report := d.chs[c].sense.powSum, powSum := 0 } } := by
  simp only [outerStart, countMisses, chAll_get]

/-- The lanes of an outer boundary: sums and gains, window origins, registers. -/
def outerLanes (d2 : Dev) : Dev :=
  let d3 := (excurs d2).foldl (fun e p => closeLane e p.1 p.2.1 p.2.2) d2
  let d4 := (excurs d3).foldl (fun e p => setOrigin e p.2.2) d3
  (excurs d4).foldl (fun e p => outerStat e p.1 p.2.1 p.2.2) d4

theorem outerLanes_done (d : Dev) : d.lanesDone (outerLanes d) := by
  have close (l : List (LTile × Stitch × Ch)) (e : Dev) : e.lanesDone (l.foldl (fun e p => closeLane e p.1 p.2.1 p.2.2) e) :=
    foldl_done _ (fun _ _ => closeLane_done _ _ _ _) l e
  have origin (l : List (LTile × Stitch × Ch)) (e : Dev) : e.lanesDone (l.foldl (fun e p => setOrigin e p.2.2) e) :=
    foldl_done _ (fun _ _ => setOrigin_done _ _) l e
  have stat (l : List (LTile × Stitch × Ch)) (e : Dev) : e.lanesDone (l.foldl (fun e p => outerStat e p.1 p.2.1 p.2.2) e) :=
    foldl_done _ (fun _ _ => outerStat_done _ _ _ _) l e
  unfold outerLanes
  exact (close _ _).trans ((origin _ _).trans (stat _ _))

theorem outerDev_eq (d : Dev) : outerDev d = if d.tb.stc % 32 ≠ 0 ∨ d.tb.started = false then d else outerLanes (outerStart d) := by
  unfold outerDev outerLanes outerStart
  rfl

theorem outerDev_due (d : Dev) (started : d.tb.started = true) (due : d.tb.stc % 32 = 0) : (outerStart d).lanesDone (outerDev d) := by
  have go : ¬(d.tb.stc % 32 ≠ 0 ∨ d.tb.started = false) := by
    rw [started]
    rintro (h | h)
    · exact h due
    · cases h
  rw [outerDev_eq, if_neg go]
  exact outerLanes_done _

/-! ### The grant cycle -/

theorem ratMax_left (a b : Rat) : a ≤ ratMax a b := by
  unfold ratMax
  split
  · assumption
  · exact Rat.le_refl

/-- A value of at least `n` stays at least `n` on the whole grid. -/
theorem ratGrid_least (r : Rat) (up : Bool) (n : Int) (h : (n : Rat) ≤ r) : n ≤ ratGrid r up := by
  unfold ratGrid
  split
  next whole =>
    have : (r.num : Rat) = r := Rat.ext (Rat.num_intCast _) ((Rat.den_intCast _).trans whole.symm)
    rw [← this] at h
    exact_mod_cast h
  · have : n ≤ r.floor := Rat.le_floor_iff.2 h
    split <;> omega

/-- No grant is below 1/64 (R466). -/
theorem grantOf_least (d : Dev) (y : Cycle) (c : Ch) (up : Bool) : 0x0200 ≤ grantOf d y c up := by
  unfold grantOf
  dsimp only
  have least := ratGrid_least (ratMax (1 / 64) ((if d.chs[c].cfg.shankClass = true then y.g1 else y.g0) * (1 - (levelAt d c : Rat) / 4)) * 32768) up 512
    (by
      have := ratMax_left (1 / 64) ((if d.chs[c].cfg.shankClass = true then y.g1 else y.g0) * (1 - (levelAt d c : Rat) / 4))
      rw [Rat.intCast_ofNat]
      grind)
  omega

/-- The rise factor of a cycle (R471). -/
def riseFactor (d : Dev) : Int :=
  if d.rails.reportP || d.rails.reportN then max 32 (gridDiv (3 * d.shank.fRise) 4 (Config.freeBit (d.free + 128))) else min 128 (d.shank.fRise + 1)

/-- The Shank's record after a grant cycle. -/
def grantShank (d : Dev) : Shank :=
  let s := d.shank
  let y := cycleOf d (riseFactor d)
  let irail := if railSpan d = 0 then 0 else (y.sum * 1000 / s.eta + (s.pIdle : Rat) / 1000 * releasedCount d) / railSpan d * 10
  let cap (o : Option Nat) : Nat := match o with | some x => x | none => 0xFFFF
  { s with
    e := y.e
    fRise := riseFactor d
    bind := bindBudget y (riseFactor d)
    allow := fieldSat 12 (ratGrid y.a (Config.freeBit (d.free + 129)))
    out := fieldSat 12 (ratGrid y.sum (Config.freeBit (d.free + 130)))
    irail := fieldSat 16 (ratGrid irail (Config.freeBit (d.free + 131)))
    icapP := cap (railCap s.capP d.rails.icapP)
    icapN := cap (railCap s.capN d.rails.icapN)
    cycles := if d.rails.reportP || d.rails.reportN then satN 0xFFFF (s.cycles + 1) else s.cycles
    govern := s.grants
    grants := Vector.ofFn fun c => grantOf d y c (Config.freeBit (d.free + c.val))
    demand := Vector.ofFn fun c => fieldSat 10 (ratGrid (demandW d c * 10) (Config.freeBit (d.free + 132)))
    level := Vector.ofFn fun c => levelAt d c
    fresh := true }

theorem grantShank_grants (d : Dev) (c : Ch) : 0x0200 ≤ (grantShank d).grants[c] := by
  simp only [grantShank, Fin.getElem_fin, Vector.getElem_ofFn]
  exact grantOf_least _ _ _ _

theorem grantShank_calm (d : Dev) (noP : d.rails.reportP = false) (noN : d.rails.reportN = false) :
    (grantShank d).fRise = min 128 (d.shank.fRise + 1) ∧ (grantShank d).cycles = d.shank.cycles := by
  simp only [grantShank, riseFactor, noP, noN, Bool.or_false, if_neg Bool.false_ne_true, and_self]

theorem grantShank_rise (d : Dev) (rise : d.rails.reportP = true ∨ d.rails.reportN = true) : 32 ≤ (grantShank d).fRise := by
  have some_ : (d.rails.reportP || d.rails.reportN) = true := by rwa [Bool.or_eq_true]
  simp only [grantShank, riseFactor, some_, if_true]
  exact Int.le_max_left _ _

/-- The current sums of a rail start anew (R463). -/
def grantPower (d : Dev) : Bank Power 16 := tab d.power fun _ p => { p with sumP := 0, sumN := 0, cnt := 0 }

/-- Wear after a cycle (R472). -/
def grantWear (d : Dev) : Bank Chan 128 := tab d.chs fun c x => { x with wear := (x.wear + wearStep d c) % 2 ^ 96 }

theorem grantDev_eq (d : Dev) : grantDev d = if d.guard.audioReset || !d.tb.started || decide (d.tb.stc % 32 ≠ 0) then d else
    { d with free := d.free + 133, rails := { d.rails with reportP := false, reportN := false }, power := grantPower d, chs := grantWear d,
             shank := grantShank d } := rfl

/-- Settles O19: the outer boundary by its start (`outerStart`) and its lanes (`outerDev_due`), the grant cycle by `grantDev`'s record. -/
theorem outerBoundaryAndGrants : Obligations.OuterBoundaryAndGrants := by
  refine ⟨fun q d => ⟨fun started due => ?_, fun no => next_congr (congrArg (boundaryDone .outer) (if_pos no.symm))⟩,
    fun q d => ⟨fun up started due => ?_, fun no => next_congr (congrArg (boundaryDone .grant) ((grantDev_eq d).trans (if_pos ?_)))⟩⟩
  · obtain ⟨same, chs⟩ := outerDev_due d started due
    refine ⟨outerDev d, rfl, ?_, fun t => ?_, fun c => ?_⟩
    · have start := outerStart_same d
      generalize outerStart d = v at same start
      rw [same, start]
    · rw [same]
      exact outerStart_power d t
    · obtain ⟨report, sum, prot, mod⟩ := chs c
      have start := outerStart_chs d c
      exact ⟨report.trans (by rw [start]), sum.trans (by rw [start]), prot.trans (by rw [start]), mod.trans (by rw [start])⟩
  · have go : (d.guard.audioReset || !d.tb.started || decide (d.tb.stc % 32 ≠ 0)) = false := by
      rw [up, started, due]
      rfl
    refine ⟨_, next_congr (congrArg (boundaryDone .grant) ((grantDev_eq d).trans (if_neg (by rw [go]; exact Bool.false_ne_true)))), rfl, rfl,
      grantShank_grants d, rfl, grantShank_calm d, grantShank_rise d, fun t => ?_, fun c => ?_⟩
    · simp only [grantPower, tab_get, and_self]
    · simp only [grantWear, tab_get]
  · simp only [Bool.or_eq_true, Bool.not_eq_true', decide_eq_true_eq]
    exact or_assoc.2 no

/-! ### The guard's poll -/

theorem copyHist_same (d : Dev) :
    copyHist d = { d with guard := (copyHist d).guard, admin := { d.admin with trips := (copyHist d).admin.trips } } := by
  unfold copyHist
  split <;> rfl

/-- The part as a poll leaves it, before the stewards copy the guard's records. -/
def polled (d : Dev) (answered : Bool) (hsvP hsvN : Nat) (levels : PollLevels) : Dev :=
  { d with
    guard := { railLevels d [levels.rail] with
      missedPolls := if answered then 0 else d.guard.missedPolls + 1
      timeUs := d.guard.timeUs + 1000
      powerOnMs := d.guard.powerOnMs + 1
      gpioIn := levels.gpio }
    rails := { d.rails with
      hsvP := hsvP
      hsvN := hsvN
      prsntMs := if d.guard.prsnt then min 100 (d.rails.prsntMs + 1) else 0
      supplyMs := if decide (1000 ≤ hsvP ∧ hsvP ≤ 2000 ∧ 1000 ≤ hsvN ∧ hsvN ≤ 2000) then min 100 (d.rails.supplyMs + 1) else 0 } }

theorem pollDev_ready (d : Dev) (answered : Bool) (hsvP hsvN : Nat) (levels : PollLevels) (ready : d.guard.ready = true) :
    pollDev d answered hsvP hsvN levels = copyHist (polled d answered hsvP hsvN levels) :=
  if_neg (by rw [ready]; exact Bool.false_ne_true)

/-- The levels of one sample of the rails (Table 6-10). -/
theorem railLevels_one (d : Dev) (r : RailSample) : railLevels d [r] = { d.guard with
    ovP := decide (2200 < r.pvp)
    ovN := decide (r.pvn < -2200)
    uvP := decide (d.rails.preState = 4 ∧ r.pvp < 850)
    uvN := decide (d.rails.preState = 4 ∧ -850 < r.pvn) } := by
  simp only [railLevels, preDone, List.any_cons, List.any_nil, Bool.or_false, Bool.decide_and]

/-- Settles O28: the poll's record (`polled`), which the stewards' copy of the history leaves but for its own counts. -/
theorem stewardPoll : Obligations.StewardPoll := by
  intro q d answered hsvP hsvN gpio rail
  refine ⟨fun ready => ⟨_, next_congr (pollDev_ready d answered hsvP hsvN ⟨gpio, rail⟩ ready), ?_, ?_⟩,
    fun off => next_congr (if_pos (by rw [off]; rfl))⟩
  · refine (copyHist_same _).trans ?_
    simp only [polled, decide_eq_true_eq]
  · rw [copyHist_guard]
    simp only [polled, railLevels_one]

/-! ### The Awl's own events -/

/-- A finished sweep stops (R248). -/
theorem genStop_done (d : Dev) (g : Fin 8) (r : GenRec) (cfg : d.awl.gens[g].cfg = some r)
    (done : d.awl.gens[g].running = true ∧ r.kind = .sweep ∧ r.rept = false ∧ r.len ≤ d.awl.gens[g].n) :
    genStopDev d g = { d with awl := { d.awl with gens := upd d.awl.gens g fun y => { y with running := false, value := 0 } } } := by
  unfold genStopDev
  dsimp only
  rw [cfg]
  exact if_pos done

theorem genStop_still (d : Dev) (g : Fin 8) (still : ∀ r : GenRec, d.awl.gens[g].cfg = some r →
    ¬(d.awl.gens[g].running = true ∧ r.kind = .sweep ∧ r.rept = false ∧ r.len ≤ d.awl.gens[g].n)) : genStopDev d g = d := by
  unfold genStopDev
  dsimp only
  split
  next r cfg => exact if_neg (still r cfg)
  · rfl

theorem capWrite_due (u : Cap) (due : u.due = true) : (capWrite u).due = false ∧ (capWrite u).written = u.written + 1 ∧
    (u.entries.length < u.ring → (capWrite u).entries = u.entries ++ [u.latch]) ∧
    (u.ring ≤ u.entries.length → (capWrite u).entries = u.entries.drop 1 ++ [u.latch] ∧ (capWrite u).first = u.first + 1) := by
  have out : capWrite u = _ := if_pos due
  rw [out]
  refine ⟨rfl, rfl, fun room => ?_, fun full => ?_⟩
  · dsimp only
    rw [decide_eq_false (by omega), if_neg Bool.false_ne_true]
  · dsimp only
    rw [decide_eq_true full, if_pos rfl, if_pos rfl]
    exact ⟨rfl, rfl⟩

theorem capWrite_idle (u : Cap) (idle : u.due = false) : capWrite u = u := if_neg (by rw [idle]; exact Bool.false_ne_true)

theorem upd_same {α : Type} {n : Nat} (v : Vector α n) (i : Fin n) (f : α → α) : (upd v i f)[i] = f v[i] := (upd_get v i i f).trans (if_pos rfl)

theorem upd_id {α : Type} {n : Nat} (v : Vector α n) (i : Fin n) (f : α → α) (h : f v[i] = v[i]) : upd v i f = v := by
  unfold upd
  rw [h]
  exact Vector.set_getElem_self _

/-- Whether some unit that INJECT_STOP names is held by a measurement. -/
theorem stopHeld_iff (d : Dev) (gens : Byte) (taps units : BitVec 16) :
    ((List.range 8).any (fun g => gens.getLsbD g && genHeld d g) || (List.range 16).any fun k =>
      (taps.getLsbD k && tapHeld d k) || (units.getLsbD k && capHeld d k)) = false ↔
    (∀ g : Fin 8, gens.getLsbD g.val = true → genHeld d g.val = false) ∧ ∀ k : Fin 16,
      (taps.getLsbD k.val = true → tapHeld d k.val = false) ∧ (units.getLsbD k.val = true → capHeld d k.val = false) := by
  have imp (a b : Bool) : (a && b) = false ↔ (a = true → b = false) := by
    cases a <;> simp
  simp only [Bool.or_eq_false_iff, List.any_eq_false, List.mem_range, Bool.not_eq_true, imp, Fin.forall_iff]

/-- The units of the Awl that a stop names, stopped. -/
def injectStopped (d : Dev) (gens : Byte) (taps units : BitVec 16) : Dev :=
  { d with awl := { d.awl with
      gens := tab d.awl.gens fun i g => if gens.getLsbD i.val then { g with running := false, value := 0 } else g
      taps := tab d.awl.taps fun i t => if taps.getLsbD i.val then none else t
      caps := tab d.awl.caps fun i u => if units.getLsbD i.val then { u with armed := false } else u } }

section
variable (d : Dev) (r : CmdRef) (img : Image) (open_ : hostClosed d = false) (image : d.core.image = some img)
include open_ image

theorem injectStop_open (gens : Byte) (taps units : BitVec 16) : doInjectStop d r gens taps units =
    if (List.range 8).any (fun g => gens.getLsbD g && genHeld d g) || (List.range 16).any fun k =>
      (taps.getLsbD k && tapHeld d k) || (units.getLsbD k && capHeld d k) then completeAt d r opInject stNotReady d.tb.stc
    else completeAt (injectStopped d gens taps units) r opInject stSuccess d.tb.stc := by
  have go : (hostClosed d || !imageOn d) = false := by simp only [open_, imageOn, image, Option.isSome_some, Bool.not_true, Bool.or_false]
  exact if_neg (by rw [go]; exact Bool.false_ne_true)

theorem injectArm_open (recs : List InjectRec) (ok : armFieldOk recs = true) : doInjectArm d r recs =
    if !recs.all (nodeOk d img) || ratesMixed (recs.foldl (armRec recs) d.awl) then completeAt d r opInject stField d.tb.stc
    else if recs.any (recHeld d) || decide (524288 < ringSum (recs.foldl (armRec recs) d.awl)) then completeAt d r opInject stNotReady d.tb.stc
    else completeAt { d with awl := recs.foldl (armRec recs) d.awl } r opInject stSuccess d.tb.stc := by
  unfold doInjectArm
  rw [ok, open_, image]
  rfl

end

/-- Settles O29: the events of a generator and a capture unit, and the two INJECT commands by their order of checks. -/
theorem generatorsAndCaptures : Obligations.GeneratorsAndCaptures := by
  refine ⟨fun q d g k => ⟨fun r cfg running sweep once ended => next_congr ?_, fun r cfg still => next_congr (genStop_still d g ?_),
    fun none_ => next_congr (genStop_still d g ?_), fun due room => ⟨_, rfl, rfl, ?_⟩, fun due full => ⟨_, rfl, rfl, ?_⟩, fun idle => next_congr ?_⟩,
    fun q d r img recs gens taps units => ?_⟩
  · exact genStop_done d g r cfg ⟨running, sweep, once, ended⟩
  · rintro r' cfg' ⟨-, sweep, once, ended⟩
    obtain rfl : r = r' := Option.some.inj (cfg.symm.trans cfg')
    rcases still with h | h | h
    · exact h sweep
    · exact Bool.false_ne_true (once.symm.trans h)
    · omega
  · rintro r cfg ⟨running, -⟩
    rcases none_ with h | h
    · cases h.symm.trans cfg
    · exact Bool.false_ne_true (h.symm.trans running)
  · obtain ⟨done, written, entry, -⟩ := capWrite_due d.awl.caps[k] due
    have out := upd_same d.awl.caps k capWrite
    dsimp only
    rw [out]
    exact ⟨entry room, done, written⟩
  · obtain ⟨-, -, -, entry⟩ := capWrite_due d.awl.caps[k] due
    have out := upd_same d.awl.caps k capWrite
    dsimp only
    rw [out]
    exact entry full
  · have out := upd_id d.awl.caps k capWrite (capWrite_idle _ idle)
    dsimp only
    rw [out]
  · intro arm stop done a nodes units_ idle
    have nodesIff : (!recs.all (nodeOk d img) || ratesMixed a) = false ↔ nodes := by
      simp only [nodes, Bool.or_eq_false_iff, Bool.not_eq_false']
    have unitsIff : (recs.any (recHeld d) || decide (524288 < ringSum a)) = false ↔ units_ := by
      simp only [units_, Bool.or_eq_false_iff, decide_eq_false_iff_not, Nat.not_lt]
    refine ⟨fun open_ image => ⟨fun ok node unit => next_congr ?_, fun ok node unit => next_congr ?_, fun ok node => next_congr ?_,
      fun free => ⟨injectStopped d gens taps units, next_congr ?_, rfl, fun g => tab_get _ _ g, fun k => tab_get _ _ k, fun k => tab_get _ _ k⟩,
      fun held => next_congr ?_⟩, fun bad => next_congr (if_pos (by rw [bad]; rfl)), fun closed => ⟨next_congr (if_pos ?_), fun ok => next_congr ?_⟩⟩
    · refine (injectArm_open d r img open_ image recs ok).trans ((if_neg ?_).trans (if_neg ?_))
      · rw [nodesIff.2 node]; exact Bool.false_ne_true
      · rw [unitsIff.2 unit]; exact Bool.false_ne_true
    · refine (injectArm_open d r img open_ image recs ok).trans ((if_neg ?_).trans (if_pos ?_))
      · rw [nodesIff.2 node]; exact Bool.false_ne_true
      · rw [← Bool.not_eq_false, unitsIff]; exact unit
    · refine (injectArm_open d r img open_ image recs ok).trans (if_pos ?_)
      rw [← Bool.not_eq_false, nodesIff]; exact node
    · refine (injectStop_open d r img open_ image gens taps units).trans (if_neg ?_)
      rw [(stopHeld_iff d gens taps units).2 free]; exact Bool.false_ne_true
    · refine (injectStop_open d r img open_ image gens taps units).trans (if_pos ?_)
      rw [← Bool.not_eq_false, stopHeld_iff]; exact held
    · rcases closed with h | h
      · rw [h]; rfl
      · rw [imageOn, h, Option.isSome_none, Bool.not_false, Bool.or_true]
    · show doInjectArm d r recs = _
      unfold doInjectArm
      rw [ok]
      rcases closed with h | h
      · rw [h]; rfl
      · rw [h]
        cases hostClosed d <;> rfl

end Sys2Proof.Machine
end

section
/-!
PROOFS. The Shank's sensors (R474 to R482) and the non-volatile write window (R483, R484).
-/

namespace Sys2Proof.Machine

/-! ### The sensors' evaluation -/

/-- What an evaluation of the sensors may change: the Shank but its sensors and grants, the messages, and the hold of the hot-swap gates; no
event bit is lost. -/
def Dev.warmed (d e : Dev) : Prop :=
  e = { d with shank := e.shank, qif := e.qif, guard := { d.guard with hold := e.guard.hold } } ∧
  e.shank.sensors = d.shank.sensors ∧ e.shank.grants = d.shank.grants ∧
  ∀ i : Nat, d.shank.event.getLsbD i = true → e.shank.event.getLsbD i = true

theorem Dev.warmed.refl (d : Dev) : d.warmed d := ⟨rfl, rfl, rfl, fun _ h => h⟩

theorem Dev.warmed.trans {d e f : Dev} (h : d.warmed e) (k : e.warmed f) : d.warmed f := by
  obtain ⟨same, sensors, grants, event⟩ := h
  obtain ⟨same', sensors', grants', event'⟩ := k
  refine ⟨?_, sensors'.trans sensors, grants'.trans grants, fun i hi => event' i (event i hi)⟩
  rw [same', same]

theorem setThm_warmed (d : Dev) (i : Nat) : d.warmed (setThm d i) := by
  refine ⟨by apply dev_ext <;> simp, ?_, ?_, fun j h => ?_⟩
  · rw [setThm_shank]; split <;> rfl
  · rw [setThm_shank]; split <;> rfl
  · rw [setThm_shank]
    split
    · exact h
    · show (d.shank.event ||| 1#7 <<< i).getLsbD j = true
      rw [BitVec.getLsbD_or, h, Bool.true_or]

theorem setThm_throttle (d : Dev) (i : Nat) : (setThm d i).shank.throttle = d.shank.throttle := by
  rw [setThm_shank]; split <;> rfl

/-- Set an event bit where `b` says so. -/
def thermNote (b : Bool) (i : Nat) (d : Dev) : Dev := if b then setThm d i else d

theorem thermNote_warmed (b : Bool) (i : Nat) (d : Dev) : d.warmed (thermNote b i d) := by
  cases b
  · exact .refl d
  · exact setThm_warmed d i

theorem thermNote_throttle (b : Bool) (i : Nat) (d : Dev) : (thermNote b i d).shank.throttle = d.shank.throttle := by
  cases b
  · rfl
  · exact setThm_throttle d i

/-- The levels of the power tiles and of the core by the present readings (R479). -/
def tileLevels (d : Dev) : Bank (List Bool) 16 :=
  tab d.shank.tileL fun k l => levelsOf d.shank.thrSet d.shank.thrHyst l (readings d (tileSensors k.val))

def coreLevels (d : Dev) : List Bool := levelsOf d.shank.thrSet d.shank.thrHyst d.shank.coreL (readings d coreSensors)

/-- Whether the part throttles by its readings (R480). -/
def throttles (d : Dev) : Bool := decide (0 < levelOf (coreLevels d)) || (ixs 16).any fun k => decide (0 < levelOf (tileLevels d)[k])

/-- Whether the warning stands by its readings (R478). -/
def warms (d : Dev) : Bool :=
  let all := readings d (List.range 54)
  all.any (fun r => decide (d.shank.warnSet ≤ r)) || (d.shank.warn && !(all.all fun r => decide (r < d.shank.warnSet - d.shank.warnHyst)))

/-- Whether a level rises. -/
def rises (d : Dev) : Bool := decide (levelOf d.shank.coreL < levelOf (coreLevels d)) ||
  (ixs 16).any fun k => decide (levelOf d.shank.tileL[k] < levelOf (tileLevels d)[k])

/-- The Shank with its levels read, before its event bits. -/
def thermRead (d : Dev) : Dev :=
  { d with
    guard := { d.guard with hold := guardHot d && preIdle d }
    shank := { d.shank with tileL := tileLevels d, coreL := coreLevels d, warn := warms d, throttle := throttles d
                            tjRun := (readings d (List.range 54)).foldl max d.shank.tjRun } }

theorem thermEval_eq (d : Dev) : thermEval d =
    thermNote (rises d) 2 (thermNote (throttles d && !d.shank.throttle) 1 (thermNote (warms d && !d.shank.warn) 0 (thermRead d))) := by
  unfold thermEval rises throttles warms
  rfl

theorem thermRead_warmed (d : Dev) : d.warmed (thermRead d) := ⟨rfl, rfl, rfl, fun _ h => h⟩

theorem thermEval_warmed (d : Dev) : d.warmed (thermEval d) := by
  rw [thermEval_eq]
  exact (thermRead_warmed d).trans ((thermNote_warmed _ 0 _).trans ((thermNote_warmed _ 1 _).trans (thermNote_warmed _ 2 _)))

theorem thermEval_throttle (d : Dev) (hot : throttles d = true) : (thermEval d).shank.throttle = true ∧
    (d.shank.throttle = false → (thermEval d).shank.event.getLsbD 1 = true) := by
  rw [thermEval_eq]
  refine ⟨?_, fun cool => ?_⟩
  · rw [thermNote_throttle, thermNote_throttle, thermNote_throttle]
    exact hot
  · refine (thermNote_warmed _ 2 _).2.2.2 1 ?_
    rw [hot, cool]
    exact setThm_bit _ 1 (by decide)

/-! ### Readings at the throttle threshold -/

theorem levelOf_levelsOf (thr hyst : Int) (old : List Bool) (rs : List Int) (x : Int) (mem : x ∈ rs) (hot : thr ≤ x) :
    0 < levelOf (levelsOf thr hyst old rs) := by
  have first : rs.any (fun r => decide (thr + 50 * ((0 : Nat) : Int) ≤ r)) = true :=
    List.any_eq_true.2 ⟨x, mem, decide_eq_true (by omega)⟩
  have low : (levelsOf thr hyst old rs).getD 0 false = true := by
    simp only [levelsOf, List.map_cons, List.getD_cons_zero, first, Bool.true_or]
  unfold levelOf
  rw [low, if_pos rfl]
  (repeat' split) <;> decide

theorem mem_readings (d : Dev) (l : List Nat) (i : Nat) (mem : i ∈ l) (on : counts (sensorAt d i) = true) :
    effective d (sensorAt d i) ∈ readings d l := by
  unfold readings
  refine List.mem_filterMap.2 ⟨sensorAt d i, List.mem_map_of_mem mem, ?_⟩
  rw [if_pos on]

/-- A sensor that counts and reads at or above the threshold throttles the part, a core sensor or one of a power tile. -/
theorem throttles_of (d : Dev) (i : Sensor) (on : counts (sensorAt d i.val) = true) (hot : d.shank.thrSet ≤ effective d (sensorAt d i.val)) :
    throttles d = true := by
  unfold throttles
  rw [Bool.or_eq_true]
  by_cases tile : i.val < 48
  · refine .inr (List.any_eq_true.2 ⟨⟨i.val / 3, by omega⟩, mem_ixs _, ?_⟩)
    rw [tileLevels, tab_get]
    refine decide_eq_true (levelOf_levelsOf _ _ _ _ _ (mem_readings d _ i.val ?_ on) hot)
    simp only [tileSensors, List.mem_cons, List.not_mem_nil, or_false]
    omega
  · refine .inl (decide_eq_true (levelOf_levelsOf _ _ _ _ _ (mem_readings d _ i.val ?_ on) hot))
    simp only [coreSensors, List.mem_cons, List.not_mem_nil, or_false]
    omega

theorem sensorAt_val (d : Dev) (i : Sensor) : sensorAt d i.val = d.shank.sensors[i] := dif_pos i.isLt

/-! ### A sample -/

/-- A sensor with a new reading. -/
def sensed (d : Dev) (i : Sensor) (reading : Int) (fault : Bool) : Dev :=
  { d with shank := { d.shank with sensors := d.shank.sensors.set i { d.shank.sensors[i] with
      reading := reading, read := true, fault := fault
      fast := decide (d.shank.thrSet - 100 ≤ reading) || decide (d.shank.warnSet ≤ reading) } } }

theorem sensed_here (d : Dev) (i : Sensor) (reading : Int) (fault : Bool) : (sensed d i reading fault).shank.sensors[i] =
    { d.shank.sensors[i] with reading := reading, read := true, fault := fault
                              fast := decide (d.shank.thrSet - 100 ≤ reading) || decide (d.shank.warnSet ≤ reading) } := by
  simp only [sensed, Fin.getElem_fin, Vector.getElem_set_self]

theorem sensed_other (d : Dev) (i k : Sensor) (reading : Int) (fault : Bool) (h : k ≠ i) :
    (sensed d i reading fault).shank.sensors[k] = d.shank.sensors[k] := by
  have ne : i.val ≠ k.val := fun e => h (Fin.ext e.symm)
  simp only [sensed, Fin.getElem_fin, Vector.getElem_set_ne _ _ ne]

theorem thermalDev_sampled (d : Dev) (i : Sensor) (reading : Int) (fault : Bool) (up : d.guard.audioReset = false)
    (on : sampled i.val d.shank.sensors[i] = true) : thermalDev d i reading fault = thermEval (sensed d i reading fault) := by
  have go : (d.guard.audioReset || !sampled i.val d.shank.sensors[i]) = false := by rw [up, on]; rfl
  exact if_neg (by rw [go]; exact Bool.false_ne_true)

theorem sampled_unretired (i : Nat) (x : Therm) (h : sampled i x = true) : x.retired = false := by
  rw [sampled, Bool.and_eq_true, Bool.not_eq_true'] at h
  exact h.1

theorem sensed_throttles (d : Dev) (i : Sensor) (reading : Int) (fault : Bool) (on : sampled i.val d.shank.sensors[i] = true)
    (used : d.shank.sensors[i].inUse = true) (sound : d.shank.sensors[i].broken = false) (hot : d.shank.thrSet ≤ reading) :
    throttles (sensed d i reading fault) = true := by
  have kept := sampled_unretired _ _ on
  apply throttles_of _ i
  · rw [sensorAt_val, sensed_here, counts]
    dsimp only
    rw [used, kept]
    rfl
  · rw [sensorAt_val, sensed_here, effective]
    dsimp only
    rw [sound]
    exact hot

/-! ### Broken sensors and their spares -/

theorem setSensor_get (d : Dev) (i : Nat) (f : Therm → Therm) (k : Sensor) :
    (setSensor d i f).shank.sensors[k] = if k.val = i then f d.shank.sensors[k] else d.shank.sensors[k] := updN_get _ _ _ _

/-- The spare comes in. -/
def swapped (d : Dev) (i : Nat) : Dev :=
  let e := setThm (setSensor d (spareOf i) fun y => { y with inUse := true }) 4
  { e with cob := { e.cob with tsenseSpares := e.cob.tsenseSpares - 1 } }

theorem swapSensor_eq (d : Dev) (i : Nat) : swapSensor d i = if spareFree d i && cobWorks d then swapped d i else d := rfl

theorem swapped_parts (d : Dev) (i : Nat) : let u := swapped d i
    u = { d with shank := u.shank, qif := u.qif, cob := { d.cob with tsenseSpares := d.cob.tsenseSpares - 1 } } ∧
    u.shank.sensors = (setSensor d (spareOf i) fun y => { y with inUse := true }).shank.sensors ∧ u.shank.event.getLsbD 4 = true ∧
    ∀ j : Nat, d.shank.event.getLsbD j = true → u.shank.event.getLsbD j = true := by
  obtain ⟨same, sensors, -, event⟩ := setThm_warmed (setSensor d (spareOf i) fun y => { y with inUse := true }) 4
  refine ⟨?_, sensors, setThm_bit _ 4 (by decide), event⟩
  unfold swapped
  apply dev_ext <;> simp [setSensor]

/-- A sensor declared broken (R475). -/
def declared (d : Dev) (i : Nat) : Dev := setThm (setSensor d i fun y => { y with broken := true }) 3

theorem declared_parts (d : Dev) (i : Nat) : let u := declared d i
    u = { d with shank := u.shank, qif := u.qif } ∧ u.shank.sensors = (setSensor d i fun y => { y with broken := true }).shank.sensors ∧
    u.shank.event.getLsbD 3 = true := by
  obtain ⟨-, sensors, -⟩ := setThm_warmed (setSensor d i fun y => { y with broken := true }) 3
  refine ⟨?_, sensors, setThm_bit _ 3 (by decide)⟩
  unfold declared
  apply dev_ext <;> simp [setSensor]

/-- Declaring a sensor broken leaves whether its spare is free and whether the Cobbler works. -/
theorem declared_spareFree (d : Dev) (i : Nat) : spareFree (declared d i) i = spareFree d i := by
  by_cases spare : spareOf i = i
  · have off : isSpare i = true := decide_eq_true spare
    simp only [spareFree, off, Bool.not_true, Bool.false_and]
  · have same : sensorAt (declared d i) (spareOf i) = sensorAt d (spareOf i) := by
      unfold sensorAt look
      split
      next bound =>
        obtain ⟨-, sensors, -⟩ := declared_parts d i
        rw [sensors]
        exact (setSensor_get d i _ ⟨spareOf i, bound⟩).trans (if_neg spare)
      · rfl
    simp only [spareFree, same]

theorem declared_cobWorks (d : Dev) (i : Nat) : cobWorks (declared d i) = cobWorks d := by
  rw [(declared_parts d i).1]
  rfl

section
variable (d : Dev) (i : Sensor) (up : d.guard.audioReset = false) (used : d.shank.sensors[i].inUse = true)
    (kept : d.shank.sensors[i].retired = false)
include up used kept

theorem brokenDev_again (broken : d.shank.sensors[i].broken = true) : brokenDev d i = thermEval (swapSensor d i.val) := by
  have go : (d.guard.audioReset || !d.shank.sensors[i].inUse || d.shank.sensors[i].retired ||
      (!d.shank.sensors[i].broken && !isBroken d i.val)) = false := by rw [up, used, kept, broken]; rfl
  exact (if_neg (by rw [go]; exact Bool.false_ne_true)).trans (if_pos broken)

theorem brokenDev_first (sound : d.shank.sensors[i].broken = false) (now : isBroken d i.val = true) : brokenDev d i =
    thermEval (if spareFree d i.val then swapSensor (declared d i.val) i.val else setThm (declared d i.val) 5) := by
  have go : (d.guard.audioReset || !d.shank.sensors[i].inUse || d.shank.sensors[i].retired ||
      (!d.shank.sensors[i].broken && !isBroken d i.val)) = false := by rw [up, used, kept, sound, now]; rfl
  exact (if_neg (by rw [go]; exact Bool.false_ne_true)).trans (if_neg (by rw [sound]; exact Bool.false_ne_true))

end

/-- What the swap of a sensor's spare and the evaluation after it leave, as far as it is done. -/
theorem swapEval_parts (d : Dev) (i : Nat) : let u := thermEval (swapSensor d i)
    u = { d with shank := u.shank, qif := u.qif, cob := u.cob, guard := { d.guard with hold := u.guard.hold } } ∧
    (spareFree d i = true → cobWorks d = true → u.shank.event.getLsbD 4 = true ∧
      u.cob = { d.cob with tsenseSpares := d.cob.tsenseSpares - 1 } ∧
      u.shank.sensors = (setSensor d (spareOf i) fun y => { y with inUse := true }).shank.sensors) ∧
    (spareFree d i = false ∨ cobWorks d = false → u.cob = d.cob ∧ u.shank.sensors = d.shank.sensors) ∧
    ∀ j : Nat, d.shank.event.getLsbD j = true → u.shank.event.getLsbD j = true := by
  intro u
  by_cases go : (spareFree d i && cobWorks d) = true
  · have out : u = thermEval (swapped d i) := congrArg thermEval ((swapSensor_eq d i).trans (if_pos go))
    obtain ⟨same, sensors, -, event⟩ := thermEval_warmed (swapped d i)
    obtain ⟨same', sensors', four, event'⟩ := swapped_parts d i
    rw [out]
    have cob : (thermEval (swapped d i)).cob = { d.cob with tsenseSpares := d.cob.tsenseSpares - 1 } := by rw [same, same']
    refine ⟨?_, fun _ _ => ⟨event 4 four, cob, sensors.trans sensors'⟩, fun no => ?_, fun j h => event j (event' j h)⟩
    · rw [same, same']
    · rw [Bool.and_eq_true] at go
      rw [go.1, go.2] at no
      exact no.elim Bool.noConfusion Bool.noConfusion
  · have out : u = thermEval d := congrArg thermEval ((swapSensor_eq d i).trans (if_neg go))
    obtain ⟨same, sensors, -, event⟩ := thermEval_warmed d
    rw [out]
    refine ⟨?_, fun free works => absurd (by rw [free, works]; rfl) go, fun _ => ⟨?_, sensors⟩, event⟩
    · rw [same]
    · rw [same]

/-! ### Retirement -/

/-- Whether a spare reads near the other sensor of its place (R476). -/
def spareNear (d : Dev) (i : Nat) : Bool :=
  match (placeOf i).find? fun k => decide (k ≠ i ∧ k ≠ spareOf i) with
  | some k => decide (((sensorAt d (spareOf i)).reading - effective d (sensorAt d k)).natAbs ≤ 80)
  | none => false

/-- Whether a broken sensor can be retired now. -/
def retires (d : Dev) (i : Sensor) : Bool :=
  let sp := sensorAt d (spareOf i.val)
  cobWorks d && d.shank.sensors[i].broken && !d.shank.sensors[i].retired && !isSpare i.val && sp.inUse && !sp.broken && plausible sp && spareNear d i.val

theorem retireDev_eq (d : Dev) (i : Sensor) : retireDev d i =
    if retires d i then thermEval (setSensor d i.val fun y => { y with retired := true, inUse := false }) else d := rfl

theorem retires_blocked (d : Dev) (i : Sensor) (no : d.shank.sensors[i].broken = false ∨ d.shank.sensors[i].retired = true ∨ cobWorks d = false) :
    retires d i = false := by
  simp only [retires]
  rcases no with h | h | h <;> rw [h] <;> simp

/-- Settles O30: a sample by `sensed` and its evaluation, a broken sensor by its declaration and its spare's swap (`swapEval_parts`), and the
retirement by its conditions. -/
theorem thermalSensors : Obligations.ThermalSensors := by
  refine ⟨fun q d i reading fault => ?_, fun q d i => ?_⟩
  · intro x
    refine ⟨fun up on => ?_, fun no => next_congr (if_pos ?_)⟩
    · refine ⟨_, next_congr (thermalDev_sampled d i reading fault up on), ?_⟩
      obtain ⟨same, sensors, grants, -⟩ := thermEval_warmed (sensed d i reading fault)
      rw [sensors, grants, sensed_here]
      refine ⟨?_, rfl, rfl, rfl, fun k h => sensed_other d i k reading fault h, fun used sound hot => ?_, rfl⟩
      · rw [same]
        rfl
      · exact thermEval_throttle _ (sensed_throttles d i reading fault on used sound hot)
    · rw [Bool.or_eq_true, Bool.not_eq_true']
      exact no
  · intro x
    refine ⟨fun up used sound kept now => ?_, fun up used broken kept => ?_, fun no => next_congr (if_pos ?_), fun j hj works spare broken kept used sound plain near => ?_,
      fun no => next_congr ((retireDev_eq d i).trans (if_neg ?_))⟩
    · refine ⟨_, next_congr (brokenDev_first d i up used kept sound now), ?_⟩
      obtain ⟨dsame, dsensors, three⟩ := declared_parts d i.val
      have here : (declared d i.val).shank.sensors[i] = { x with broken := true } := by
        rw [dsensors]
        exact (setSensor_get d i.val _ i).trans (if_pos rfl)
      cases free : spareFree d i.val with
      | true =>
        rw [if_pos rfl]
        obtain ⟨same, swap, stay, event⟩ := swapEval_parts (declared d i.val) i.val
        rw [declared_spareFree, declared_cobWorks] at swap stay
        generalize thermEval (swapSensor (declared d i.val) i.val) = u at same swap stay event ⊢
        have cob : (declared d i.val).cob = d.cob := by rw [dsame]
        refine ⟨?_, event 3 three, fun _ works => ?_, fun _ idle => ?_, fun h => Bool.noConfusion h, fun other => ?_⟩
        · rw [same, dsame]
        · obtain ⟨four, spares, sensors⟩ := swap free works
          refine ⟨four, ?_, fun j hj => ?_⟩
          · rw [spares, cob]
          · rw [sensors]
            exact congrArg Therm.inUse ((setSensor_get _ _ _ j).trans (if_pos hj))
        · rw [(stay (.inr idle)).1, cob]
        · cases works : cobWorks d with
          | true =>
            rw [(swap free works).2.2]
            exact ((setSensor_get _ _ _ i).trans (if_neg fun h => other h.symm)).trans here
          | false => rw [(stay (.inr works)).2, here]
      | false =>
        rw [if_neg Bool.false_ne_true]
        obtain ⟨same, sensors, -, event⟩ := (setThm_warmed (declared d i.val) 5).trans (thermEval_warmed _)
        have five := (thermEval_warmed (setThm (declared d i.val) 5)).2.2.2 5 (setThm_bit _ 5 (by decide))
        generalize thermEval (setThm (declared d i.val) 5) = u at same sensors event five ⊢
        refine ⟨?_, event 3 three, fun h => Bool.noConfusion h, fun h => Bool.noConfusion h, fun _ => ⟨five, ?_⟩, fun _ => ?_⟩
        · rw [same, dsame]
        · rw [same, dsame]
        · rw [sensors, here]
    · refine ⟨_, next_congr (brokenDev_again d i up used kept broken), ?_⟩
      obtain ⟨same, swap, stay, -⟩ := swapEval_parts d i.val
      refine ⟨same, fun free works => ?_, stay⟩
      obtain ⟨four, spares, sensors⟩ := swap free works
      refine ⟨four, spares, fun j hj => ?_⟩
      rw [sensors]
      exact congrArg Therm.inUse ((setSensor_get _ _ _ j).trans (if_pos hj))
    · simp only [Bool.or_eq_true, Bool.not_eq_true', Bool.and_eq_true]
      exact (or_assoc.trans or_assoc).2 no
    · have at_ : sensorAt d (spareOf i.val) = d.shank.sensors[j] := (congrArg (sensorAt d) hj.symm).trans (sensorAt_val d j)
      have close : spareNear d i.val = true := by
        obtain ⟨k, found, le⟩ := near
        rw [spareNear, found, at_]
        dsimp only
        rw [sensorAt_val]
        exact decide_eq_true le
      have go : retires d i = true := by
        rw [retires, close, at_, works, spare, used, sound, plain, show d.shank.sensors[i].broken = true from broken, show d.shank.sensors[i].retired = false from kept]
        rfl
      refine ⟨_, next_congr ((retireDev_eq d i).trans (if_pos go)), ?_⟩
      obtain ⟨same, sensors, -⟩ := thermEval_warmed (setSensor d i.val fun y => { y with retired := true, inUse := false })
      refine ⟨?_, sensors.trans (dif_pos i.isLt)⟩
      rw [same]
      rfl
    · rw [retires_blocked d i no]
      exact Bool.false_ne_true

/-! ### The write window -/

theorem nvOwn_open (d : Dev) (j : NvJob) (h : nvOpen d = true) : nvOwn d j = { d with admin := { d.admin with nv := d.admin.nv ++ [j] } } := if_pos h

/-- Outside the window a write of the part's own waits, with its event (R484). -/
theorem nvOwn_closed (d : Dev) (j : NvJob) (h : nvOpen d = false) : let u := nvOwn d j
    u = { d with admin := u.admin, shank := u.shank, qif := u.qif } ∧ u.admin = { d.admin with nvDeferred := d.admin.nvDeferred ++ [j] } ∧
    u.shank.event.getLsbD 6 = true := by
  have out : nvOwn d j = setThm { d with admin := { d.admin with nvDeferred := d.admin.nvDeferred ++ [j] } } 6 :=
    if_neg (by rw [h]; exact Bool.false_ne_true)
  rw [out]
  refine ⟨?_, ?_, setThm_bit _ 6 (by decide)⟩
  · apply dev_ext <;> simp
  · simp

/-- Settles O39: a write of the part's own in the window (`nvOwn_open`) and outside it (`nvOwn_closed`). -/
theorem writeWindow : Obligations.WriteWindow := by
  intro q d
  have save (up : d.guard.audioReset = false) (cool : d.shank.throttle = false) (works : cobWorks d = true) : healthDev d = nvOwn d .health :=
    if_neg (by rw [up, cool, works]; exact Bool.false_ne_true)
  refine ⟨fun h => next_congr (if_pos h), fun h => next_congr (if_neg (by rw [h]; exact Bool.false_ne_true)),
    fun up cool works h => next_congr ((save up cool works).trans (nvOwn_open d .health h)), fun up cool works h => ?_, fun no => next_congr (if_pos ?_)⟩
  · obtain ⟨same, admin, six⟩ := nvOwn_closed d .health h
    refine ⟨_, next_congr (save up cool works), same, ?_, ?_, six⟩
    · rw [admin]
    · rw [admin]
  · rw [Bool.or_eq_true, Bool.or_eq_true, Bool.not_eq_true']
    exact or_assoc.2 no

end Sys2Proof.Machine
end

section
/-!
PROOFS. Images: automatic load (R86, R462), staging (R92) and the welt period (R94, R96).
-/

namespace Sys2Proof.Machine

/-! ### What puts an image in force keeps it there -/

/-- The image in force, its slot, and the activation under way. -/
def Dev.placed (d : Dev) : Option Image × Nat × Option Activation := (d.core.image, d.core.imageSlot, d.core.act)

theorem placed_of_core {d e : Dev} (h : e.core = d.core) : e.placed = d.placed := by
  unfold Dev.placed
  rw [h]

theorem forCh_placed (f : Dev → Ch → Dev) (h : ∀ e c, (f e c).placed = e.placed) (l : List Ch) (d : Dev) : (forCh l f d).placed = d.placed :=
  foldl_keeps Dev.placed f h l d

theorem tile_placed (d : Dev) (t : LTile) (f : TileState → TileState) : (d.tile t f).placed = d.placed := rfl

theorem loadRegions_placed (d : Dev) (c : Ch) : (loadRegions d c).placed = d.placed := by
  unfold loadRegions
  dsimp only
  exact (placed_of_core (stat_frame _ _ _).2.2.2.2.1).trans (tile_placed _ _ _)

theorem loadConds_placed (d : Dev) (c : Ch) : (loadConds d c).placed = d.placed := by
  unfold loadConds
  split <;> rfl

theorem loadStages_placed (d : Dev) (c : Ch) : (loadStages d c).placed = d.placed := by
  unfold loadStages
  split
  · rfl
  · dsimp only
    split <;> split <;> rfl

theorem zeroOuter_placed (old : Option Image) (new : Image) (d : Dev) (c : Ch) : (zeroOuter old new d c).placed = d.placed := by
  unfold zeroOuter
  dsimp only
  (repeat' split) <;> rfl

theorem weltRamp_placed (old : Option Image) (new : Image) (d : Dev) (c : Ch) : (weltRamp old new d c).placed = d.placed := by
  have ramp : (rampAgain d c).placed = d.placed := by
    unfold rampAgain
    (repeat' split) <;> rfl
  unfold weltRamp
  dsimp only
  split
  · exact ramp
  · rfl

theorem refLostDev_core (d : Dev) (e : Fin 3) : (refLostDev d e).core = d.core := by
  by_cases qual : entryQual d.tb e.val = true
  · rw [refLostDev_qualified d e qual]
    show (lossOf d e).core = d.core
    rw [(lossOf_parts d e).1]
  · exact congrArg Dev.core (if_neg qual)

theorem dropSapRef_placed (d : Dev) : (dropSapRef d).placed = d.placed := by
  unfold dropSapRef
  split
  · split
    · rfl
    · exact placed_of_core (refLostDev_core d _)
  · rfl

theorem endForeign_core (d : Dev) : (endForeign d).core = d.core := by
  unfold endForeign
  dsimp only
  have refusals (l : List StreamWait) (e : Dev) : (l.foldl (fun e w => refuse e w.ref opStream stField) e).core = e.core :=
    foldl_core _ l e fun e w => (refuse_frame e w.ref opStream stField).2.2.2.2.2.1
  have ends (l : List Traj) (e : Dev) : (l.foldl (fun e t => completeAt e t.ref opTraj stAborted t.start) e).core = e.core :=
    foldl_core _ l e fun e t => (completeAt_frame e t.ref opTraj stAborted t.start).2.2.2.2.2.1
  rw [refusals]
  exact ends _ _

theorem installSound_placed (old : Option Image) (new : Image) (d : Dev) : (installSound old new d).placed = d.placed := by
  unfold installSound
  exact placed_of_core (endForeign_core _)

theorem installGroups_placed (d : Dev) : (installGroups d).placed = d.placed := by
  unfold installGroups
  refine placed_of_core ((settleStops_frame _).2.2.2.2.2.1.trans ?_)
  exact forCh_core _ _ _ fun e c => (triggerStop_frame e c).2.2.2.2.1

theorem installRest_placed (new : Image) (d : Dev) : (installRest new d).placed = d.placed := rfl

theorem installCore_placed (new : Image) (slot : Nat) (d : Dev) : (installCore new slot d).placed = (some new, slot, none) := rfl

theorem installImage_placed (d : Dev) (new : Image) (slot : Nat) : (installImage d new slot).placed = (some new, slot, none) := by
  unfold installImage
  dsimp only
  rw [installGroups_placed, forCh_placed _ (weltRamp_placed _ _), dropSapRef_placed, forCh_placed _ loadStages_placed,
    forCh_placed _ loadConds_placed, forCh_placed _ (zeroOuter_placed _ _), forCh_placed _ loadRegions_placed, installSound_placed, installRest_placed]
  exact installCore_placed _ _ _

/-- The answer to an activation, where a command waits for it, and its mark. -/
def actAnswer (d1 : Dev) (a : Activation) (stc : Nat) : Dev :=
  match a.ref with
  | none => { d1 with admin := { d1.admin with bringup := false } }
  | some r =>
    let d2 := completeAt d1 r opImageActivate stSuccess stc
    if a.mark then { d2 with admin := { d2.admin with nv := d2.admin.nv ++ [.mark none (some a.slot)] } } else d2

theorem activated_eq (d : Dev) (a : Activation) :
    activated d a = actAnswer (installImage d a.image a.slot) a (if imageOn d then d.tb.stc else d.tb.stc + 1) := rfl

theorem actAnswer_core (d : Dev) (a : Activation) (stc : Nat) : (actAnswer d a stc).core = d.core := by
  unfold actAnswer
  split
  · rfl
  · dsimp only
    split <;> exact (completeAt_frame _ _ _ _ _).2.2.2.2.2.1

theorem activated_placed (d : Dev) (a : Activation) : (activated d a).placed = (some a.image, a.slot, none) := by
  rw [activated_eq, placed_of_core (actAnswer_core _ a _)]
  exact installImage_placed d a.image a.slot

/-! ### The welt period -/

/-- The start of a welt period: the activation's entry stands as started and the measurements end. -/
def weltOpened (d : Dev) (a : Activation) : Dev :=
  let d1 := match a.ref with | some r => d.flight r fun f => { f with prog := .started } | none => d
  forCh (ixs 128) (fun e c => measAbort e c stAborted)
    { d1 with core := { d1.core with act := some { a with phase := .welt, at_ := d.tb.stc } } }

theorem weltOpen_due (d : Dev) (a : Activation) (act : d.core.act = some a) (due : actDue d a = true) :
    weltOpenDev d = if imageOn d then weltOpened d a else activated d a := by
  unfold weltOpenDev
  rw [act]
  exact if_neg (by rw [due]; exact Bool.false_ne_true)

theorem weltOpened_parts (d : Dev) (a : Activation) : let u := weltOpened d a
    u.core = { d.core with act := some { a with phase := .welt, at_ := d.tb.stc } } ∧ u.tb = d.tb ∧ u.guard = d.guard ∧ u.power = d.power ∧
    u.rails = d.rails ∧ u.groupRel = d.groupRel := by
  have entry : ∀ d1 : Dev, d1 = (match a.ref with | some r => d.flight r fun f => { f with prog := .started } | none => d) →
      d1 = { d with qif := d1.qif } := by
    rintro _ rfl
    split <;> rfl
  unfold weltOpened
  dsimp only
  generalize hd1 : (match a.ref with | some r => d.flight r fun f => { f with prog := .started } | none => d) = d1
  have same := entry d1 hd1.symm
  simp only [forCh_core _ _ _ fun e c => (measAbort_frame e c stAborted).2.2.2.2.1, forCh_tb _ _ _ fun e c => (measAbort_frame e c stAborted).2.2.2.1,
    forCh_guard _ _ _ fun e c => (measAbort_frame e c stAborted).2.2.1, forCh_power _ _ _ fun e c => (measAbort_frame e c stAborted).1,
    forCh_rails _ _ _ fun e c => (measAbort_frame e c stAborted).2.1, forCh_groupRel _ _ _ fun e c => (measAbort_frame e c stAborted).2.2.2.2.2.1]
  rw [same]
  exact ⟨rfl, rfl, rfl, rfl, rfl, rfl⟩

/-! ### Automatic load -/

/-- What a slot's check makes of an automatic load (R86, R462). -/
def autoLoaded (d : Dev) (k : Nat) (x : Except FailInfo Image) : Dev :=
  let d1 := { d with admin := { d.admin with autoTried := true } }
  match x with
  | .error i => { autoLoadFail d1 i with admin := { (autoLoadFail d1 i).admin with bringup := false } }
  | .ok img => { d1 with core := { d1.core with act := some ⟨none, nextStc d, k, img, .staging, 0, false⟩ } }

section
variable (d : Dev) (free : d.growth.growth ≠ 0 ∧ d.growth.step ≠ 0 ∧ d.admin.autoTried = false ∧ imageOn d = false)
include free

theorem autoLoad_free : autoLoadDev d = match if d.growth.growth = 1 then d.admin.autoSlot else none with
    | none => { d with admin := { d.admin with autoTried := true, bringup := false } }
    | some k => autoLoaded d k (checkSlot d (look d.admin.img k ⟨false, [], 0, 0⟩)) := by
  obtain ⟨grown, step, untried, off⟩ := free
  have go : ¬(d.growth.growth = 0 ∨ d.growth.step = 0 ∨ d.admin.autoTried = true ∨ imageOn d = true) := by
    rw [untried, off]
    rintro (h | h | h | h)
    · exact grown h
    · exact step h
    · cases h
    · cases h
  refine (if_neg go).trans ?_
  cases if d.growth.growth = 1 then d.admin.autoSlot else none with
  | none => rfl
  | some k =>
    dsimp only
    cases checkSlot d (look d.admin.img k ⟨false, [], 0, 0⟩) <;> rfl

theorem autoLoad_slot (k : Fin 4) (whole : d.growth.growth = 1) (slot : d.admin.autoSlot = some k.val) :
    autoLoadDev d = autoLoaded d k.val (checkSlot d d.admin.img[k]) := by
  rw [autoLoad_free d free, if_pos whole, slot]
  have here : look d.admin.img k.val ⟨false, [], 0, 0⟩ = d.admin.img[k] := dif_pos k.isLt
  rw [← here]

end

/-- Settles O31: automatic load by its checks (`autoLoad_free`, `autoLoad_slot`), staging, and the two boundaries of an activation. -/
theorem imagesComeIntoForce : Obligations.ImagesComeIntoForce := by
  refine ⟨fun q d => ?_, fun q d a => ?_⟩
  · intro free
    refine ⟨fun h short => next_congr ?_, fun k img h whole slot check => next_congr ?_, fun k i h whole slot check => ?_,
      fun no => next_congr (if_pos ?_), fun a act staging => next_congr ?_, fun no => next_congr ?_⟩
    · refine (autoLoad_free d h).trans ?_
      have none_ : (if d.growth.growth = 1 then d.admin.autoSlot else none) = none := by
        rcases short with h | h
        · exact if_neg h
        · rw [h, ite_self]
      rw [none_]
    · refine (autoLoad_slot d h k whole slot).trans ?_
      rw [check]
      rfl
    · refine ⟨_, next_congr (autoLoad_slot d h k whole slot), ?_⟩
      rw [check]
      exact ⟨rfl, rfl, rfl, _, rfl, rfl, rfl, rfl⟩
    · refine Classical.byContradiction fun all => ?_
      simp only [not_or, Bool.not_eq_true] at all
      exact no all
    · show stagingEndDev d = _
      unfold stagingEndDev
      rw [act]
      exact if_pos staging
    · show stagingEndDev d = d
      unfold stagingEndDev
      split
      next a act => exact if_neg (no a act)
      · rfl
  · refine ⟨fun act due on => ⟨_, next_congr (congrArg (boundaryDone .welt) ((weltOpen_due d a act due).trans (if_pos on))), weltOpened_parts d a⟩,
      fun act due off => ?_, fun act welt later => ?_, fun no => next_congr (congrArg (boundaryDone .welt) ?_),
      fun no => next_congr (congrArg (boundaryDone .welt) ?_)⟩
    · have placed := activated_placed d a
      simp only [Dev.placed, Prod.mk.injEq] at placed
      exact ⟨_, next_congr (congrArg (boundaryDone .welt) ((weltOpen_due d a act due).trans (if_neg (by rw [off]; exact Bool.false_ne_true)))), placed⟩
    · have placed := activated_placed d a
      simp only [Dev.placed, Prod.mk.injEq] at placed
      refine ⟨_, next_congr (congrArg (boundaryDone .welt) ?_), placed⟩
      show weltSwitchDev d = _
      unfold weltSwitchDev
      rw [act]
      exact if_pos ⟨welt, later⟩
    · show weltOpenDev d = d
      unfold weltOpenDev
      split
      · rfl
      next b act => exact if_pos (by rw [no b act]; rfl)
    · show weltSwitchDev d = d
      unfold weltSwitchDev
      split
      · rfl
      next b act => exact if_neg fun ⟨welt, later⟩ => (no b act).elim (fun h => h welt) fun h => absurd later (by omega)

end Sys2Proof.Machine
end

section
/-!
PROOFS. Admin commands on Q0 (R430 to R435, R441): IDENTIFY, the log pages and the features.
-/

namespace Sys2Proof.Machine

/-! ### Commands of Q0 -/

theorem onQ0_here (d : Dev) {r : CmdRef} (op : Nat) (f : Dev) (h : r.q.val = 0) : onQ0 d r op f = f := if_pos h

theorem adminOpen_here (d : Dev) {r : CmdRef} (op : Nat) (f : Dev) (h : r.q.val = 0) (open_ : hostClosed d = false) : adminOpen d r op f = f :=
  (onQ0_here d op _ h).trans (if_neg (by rw [open_]; exact Bool.false_ne_true))

theorem adminOpen_closed (d : Dev) {r : CmdRef} (op : Nat) (f : Dev) (h : r.q.val = 0) (closed : hostClosed d = true) :
    adminOpen d r op f = refuse d r op stNotReady :=
  (onQ0_here d op _ h).trans (if_pos closed)

/-! ### Log pages -/

theorem logPage_none (d : Dev) (p : Nat) : logPage d p = none ↔ p = 0 ∨ 9 < p := by
  by_cases out : p = 0 ∨ 9 < p
  · refine iff_of_true ?_ out
    unfold logPage
    split
    iterate 9
      next => omega
    next => rfl
  · refine iff_of_false ?_ out
    match p, out with
    | 0, out => exact absurd (.inl rfl) out
    | 1, _ | 2, _ | 3, _ | 4, _ | 5, _ | 6, _ | 7, _ | 8, _ | 9, _ => exact Option.some_ne_none _
    | n + 10, out => exact absurd (.inr (by omega)) out

/-! ### Features -/

theorem bits_low (n k : Nat) : bits n 0 k = n % 2 ^ k := by
  rw [bits, Nat.pow_zero, Nat.div_one]

theorem featureOk_none (fid v : Nat) (b : List Byte) (h : fid = 0 ∨ 7 < fid) : featureOk fid v b = false := by
  unfold featureOk
  split
  iterate 7
    next => omega
  next => rfl

theorem featureOf_none (d : Dev) (fid : Nat) (h : fid = 0 ∨ 7 < fid) : featureOf d fid = none := by
  unfold featureOf
  split
  iterate 7
    next => omega
  next => rfl

theorem doSetFeature_ok (d : Dev) (r : CmdRef) (fid v : Nat) (b : List Byte) (ok : featureOk fid v b = true) :
    doSetFeature d r fid v b = complete (putFeature d fid v b) r opSetFeature stSuccess 0 0 := if_pos ok

theorem doSetFeature_bad (d : Dev) (r : CmdRef) (fid v : Nat) (b : List Byte) (bad : featureOk fid v b = false) :
    doSetFeature d r fid v b = refuse d r opSetFeature stField := if_neg (by rw [bad]; exact Bool.false_ne_true)

theorem doGetFeature_none (d : Dev) (r : CmdRef) (fid : Nat) (h : featureOf d fid = none) : doGetFeature d r fid = refuse d r opGetFeature stField := by
  unfold doGetFeature
  rw [h]

theorem doGetFeature_buffer (d : Dev) (r : CmdRef) (fid w : Nat) (bs : List Byte) (h : featureOf d fid = some (w, bs)) (buf : fid = 3 ∨ fid = 4) :
    doGetFeature d r fid =
      complete (hostWrite (d.ticks 2) r bs) r opGetFeature stSuccess (Config.freeNat d.free) (Config.freeNat (d.free + 1)) := by
  unfold doGetFeature
  rw [h]
  exact if_pos buf

/-! ### The values in range (Table 14-10) -/

theorem featureOk_policy (n : Nat) (b : List Byte) (h : n < 4) : featureOk 2 n b = true := by
  have reserved : bits n 2 6 = 0 := by
    rw [bits]
    omega
  exact decide_eq_true ⟨reserved, by omega⟩

theorem putFeature_policy (d : Dev) (n : Nat) (b : List Byte) (h : n < 4) : putFeature d 2 n b = { d with
    admin := { d.admin with policyMute := decide (n % 2 = 1) }
    mix := { d.mix with muted := d.mix.muted && decide (n < 2) } } := by
  match n, h with
  | 0, _ => rfl
  | 1, _ => rfl
  | 2, _ => rfl
  | 3, _ => rfl

theorem featureOk_coalesce (n : Nat) (b : List Byte) (reserved : n / 2 ^ 8 % 2 ^ 8 = 0) (lt : n < 2 ^ 32) (time : n % 2 ^ 8 = 0 ∨ n / 2 ^ 16 ≠ 0) :
    featureOk 5 n b = true := by
  have timed : bits n 0 8 = 0 ∨ bits n 16 16 ≠ 0 := by
    rw [bits_low, bits]
    omega
  exact decide_eq_true ⟨reserved, lt, timed⟩

theorem putFeature_coalesce (d : Dev) (n : Nat) (b : List Byte) (lt : n < 2 ^ 32) : putFeature d 5 n b =
    { d with qif := { d.qif with coalThresh := n % 2 ^ 8, coalTime := n / 2 ^ 16 } } := by
  have time : bits n 16 16 = n / 2 ^ 16 := Nat.mod_eq_of_lt (by omega)
  simp only [putFeature, bits_low, time]

/-- Settles O33: Q0's commands by `onQ0_here` and `adminOpen_here`, a feature by its range and its value (`featureOk`, `putFeature`). -/
theorem identifyLogsAndFeatures : Obligations.IdentifyLogsAndFeatures := by
  refine ⟨fun q d r page o admin => ?_, fun q d r v fid buf admin => ?_⟩
  · refine ⟨next_congr ?_, next_congr ?_, fun bs found grid inside => next_congr ?_, fun bs found bad => next_congr ?_, fun none_ => next_congr ?_,
      logPage_none d page.toNat⟩
    · refine (onQ0_here d _ _ admin).trans ?_
      simp only [doIdentify, List.length_take]
      rfl
    · refine (onQ0_here d _ _ admin).trans ?_
      simp only [doIdentify, List.length_take]
      rfl
    · refine (onQ0_here d _ _ admin).trans ?_
      unfold doGetLog
      rw [found]
      refine (if_neg (by omega)).trans ?_
      simp only [List.length_take, List.length_drop]
      rfl
    · refine (onQ0_here d _ _ admin).trans ?_
      unfold doGetLog
      rw [found]
      exact if_pos bad
    · refine (onQ0_here d _ _ admin).trans ?_
      unfold doGetLog
      rw [none_]
      rfl
  · intro set get done reads n
    refine ⟨fun closed => ⟨next_congr (adminOpen_closed d _ _ admin closed), next_congr (adminOpen_closed d _ _ admin closed)⟩, fun open_ => ?_⟩
    have gets {k : Byte} {u : Dev} (h : doGetFeature d r k.toNat = u) : get k = .next ⟨q, u⟩ := next_congr ((adminOpen_here d _ _ admin open_).trans h)
    have sets {k : Byte} {u : Dev} (h : doSetFeature d r k.toNat n buf = u) : set k = .next ⟨q, u⟩ :=
      next_congr ((adminOpen_here d _ _ admin open_).trans h)
    have puts {k : Byte} {u : Dev} (ok : featureOk k.toNat n buf = true) (h : putFeature d k.toNat n buf = u) : set k = done u :=
      sets ((doSetFeature_ok d r k.toNat n buf ok).trans (by rw [h]; rfl))
    refine ⟨gets rfl, gets rfl, gets rfl, gets rfl, gets rfl, fun k w bs buffer found => ⟨_, _, gets (doGetFeature_buffer d r _ w bs found ?_)⟩,
      fun ok => puts ok rfl, fun bad => sets (doSetFeature_bad d r _ n buf bad), fun lt => puts (decide_eq_true lt) ?_,
      fun lt => puts (featureOk_policy n buf lt) (putFeature_policy d n buf lt),
      fun reserved lt time => puts (featureOk_coalesce n buf reserved lt time) (putFeature_coalesce d n buf lt), fun lt => puts (decide_eq_true lt) rfl,
      fun low high => puts (decide_eq_true ⟨low, high⟩) rfl, fun out => sets (doSetFeature_bad d r _ n buf (decide_eq_false ?_)), fun none_ => ?_⟩
    · rcases buffer with h | h
      · exact .inl (congrArg BitVec.toNat h)
      · exact .inr (congrArg BitVec.toNat h)
    · show putFeature d 1 n buf = _
      simp only [putFeature, bits_low]
      rfl
    · omega
    · exact ⟨sets (doSetFeature_bad d r _ n buf (featureOk_none _ n buf none_)), gets (doGetFeature_none d r _ (featureOf_none d _ none_))⟩

end Sys2Proof.Machine
end

section
/-!
PROOFS. Queue pairs (R433, R457, R458), FLUSH (R455) and ABORT (R420 to R422).
-/

namespace Sys2Proof.Machine

/-! ### CREATE_QUEUE -/

/-- The pair that a CREATE_QUEUE with the CID `cid` makes. -/
def pairOf (c : QueueCfg) (cid : BitVec 16) : Queue :=
  newQueue c.cls.val c.ien c.vector c.sqDepth c.cqDepth c.sqBase.toNat c.cqBase.toNat (some cid)

theorem doCreate_good (d : Dev) (r : CmdRef) (c : QueueCfg) (named : c.qid.val ≠ 0) (free : Mem.find d.qif.queues c.qid.val = none)
    (vector : c.vector < 2048) (sq : 2 ≤ c.sqDepth ∧ c.sqDepth ≤ 4096 ∧ c.sqBase.toNat % 64 = 0)
    (cq : 2 ≤ c.cqDepth ∧ c.cqDepth ≤ 4096 ∧ c.cqBase.toNat % 64 = 0) : doCreate d r c =
    complete { d with qif := { d.qif with queues := Mem.put d.qif.queues c.qid.val (pairOf c r.cid) } } r opCreateQueue stSuccess 0 0 := by
  refine if_pos ?_
  rw [free, decide_eq_true ⟨named, vector⟩, ringOk, decide_eq_true sq, ringOk, decide_eq_true cq]
  rfl

theorem doCreate_bad (d : Dev) (r : CmdRef) (c : QueueCfg)
    (bad : ¬((c.qid.val ≠ 0 ∧ Mem.find d.qif.queues c.qid.val = none) ∧ c.vector < 2048 ∧
      (2 ≤ c.sqDepth ∧ c.sqDepth ≤ 4096 ∧ c.sqBase.toNat % 64 = 0) ∧ 2 ≤ c.cqDepth ∧ c.cqDepth ≤ 4096 ∧ c.cqBase.toNat % 64 = 0)) :
    doCreate d r c = refuse d r opCreateQueue stField := by
  refine if_neg fun good => bad ?_
  simp only [ringOk, Bool.and_eq_true, decide_eq_true_eq, Option.isNone_iff_eq_none] at good
  obtain ⟨⟨⟨⟨named, vector⟩, free⟩, sq⟩, cq⟩ := good
  exact ⟨⟨named, free⟩, vector, sq, cq⟩

/-! ### What waits for earlier commands -/

theorem waiterFinish_flush (d : Dev) (w : Waiter) (kind : w.kind = 0) : waiterFinish d w =
    complete { d with qif := { d.qif with waiters := d.qif.waiters.filter fun x => !sameRef x.ref w.ref } } w.ref opFlush stSuccess
      ((inScope d w).filter fun f => f.inStore).length (((inScope d w).filter fun f => f.inStore).filter fun f => decide (f.prog = .framed)).length := by
  unfold waiterFinish
  rw [kind]
  rfl

theorem waiterFinish_reset (d : Dev) (w : Waiter) (kind : w.kind = 1) : waiterFinish d w =
    complete { d with qif := { d.qif with waiters := d.qif.waiters.filter fun x => !sameRef x.ref w.ref } } w.ref opQueueReset stSuccess w.r0 w.r1 := by
  unfold waiterFinish
  rw [kind]
  rfl

theorem waiterFinish_delete (d : Dev) (w : Waiter) (kind : w.kind = 2) : waiterFinish d w =
    complete { d with qif := { d.qif with waiters := d.qif.waiters.filter fun x => !sameRef x.ref w.ref, queues := Mem.erase d.qif.queues w.scope } }
      w.ref opDeleteQueue stSuccess w.r0 w.r1 := by
  unfold waiterFinish
  rw [kind]
  rfl

theorem waiterCheck_found (d : Dev) (kinds : List Nat) (id : QId) (cid : BitVec 16) (w : Waiter) (run : stewardsDown d = false)
    (found : (d.qif.waiters.find? fun w => decide (w.ref.q = id ∧ w.ref.cid = cid) && kinds.contains w.kind) = some w) (done : waiterDone d w = true) :
    waiterCheck d kinds id cid = waiterFinish d w := by
  unfold waiterCheck
  rw [if_neg (by rw [run]; exact Bool.false_ne_true), found]
  exact if_pos done

theorem waiterCheck_still (d : Dev) (kinds : List Nat) (id : QId) (cid : BitVec 16)
    (no : stewardsDown d = true ∨ ∀ w ∈ d.qif.waiters.find? fun w => decide (w.ref.q = id ∧ w.ref.cid = cid) && kinds.contains w.kind,
      waiterDone d w = false) : waiterCheck d kinds id cid = d := by
  unfold waiterCheck
  by_cases run : stewardsDown d = true
  · exact if_pos run
  · rw [if_neg run]
    split
    next w found => exact if_neg (by rw [no.resolve_left run w found]; exact Bool.false_ne_true)
    · rfl

/-! ### QUEUE_RESET and DELETE_QUEUE -/

/-- The commands of a queue that its reset ends. -/
def queueFlights (d : Dev) (r : CmdRef) (id : QId) : List Flight := (liveFlights d).filter fun f => decide (f.ref.q = id) && !sameRef f.ref r

/-- The part with the queue's commands ended and its entries discarded (R457, R458). -/
def queueEnded (z : Dev) (id : QId) (x : Queue) (del : Bool) : Dev :=
  { z with qif := { z.qif with queues := Mem.put z.qif.queues id.val { x with sqHead := x.sqTail, deleting := del } } }

theorem doReset_found (d : Dev) (r : CmdRef) (id : QId) (x : Queue) (del : Bool) (named : id.val ≠ 0) (keeps : x.deleting = false)
    (found : Mem.find d.qif.queues id.val = some x) :
    let z := (queueFlights d r id).foldl resetFlight (d, 0, 0)
    doReset d r id del = waiterPut (queueEnded z.1 id x del)
      ⟨r, if del then 2 else 1, id.val, d.qif.order, x.sqHead + 2 ^ 16 * x.sqTail, z.2.1 + 2 ^ 16 * z.2.2⟩ := by
  have go : ¬(id.val = 0 ∨ x.deleting = true) := by
    rw [keeps]
    exact fun h => h.elim named Bool.noConfusion
  unfold doReset
  rw [found]
  exact if_neg go

theorem doReset_none (d : Dev) (r : CmdRef) (id : QId) (x : Queue) (del : Bool)
    (no : Mem.find d.qif.queues id.val = none ∨ id.val = 0 ∨ (Mem.find d.qif.queues id.val = some x ∧ x.deleting = true)) :
    doReset d r id del = refuse d r (if del then opDeleteQueue else opQueueReset) stField := by
  unfold doReset
  cases found : Mem.find d.qif.queues id.val with
  | none => rfl
  | some y =>
    refine if_pos ?_
    rw [found] at no
    rcases no with h | h | ⟨h, gone⟩
    · cases h
    · exact .inl h
    · exact .inr (Option.some.inj h ▸ gone)

/-- With nothing in flight and nothing to post for a queue its reset is done at once. -/
theorem queueEnded_done (d : Dev) (r : CmdRef) (id : QId) (x : Queue) (del : Bool) (kind r0 r1 : Nat) (which : kind = 1 ∨ kind = 2)
    (none_ : queueFlights d r id = []) (posted : ∀ c ∈ d.qif.outbox, c.q ≠ id) :
    waiterDone (queueEnded d id x del) ⟨r, kind, id.val, d.qif.order, r0, r1⟩ = true := by
  have scope : inScope (queueEnded d id x del) ⟨r, kind, id.val, d.qif.order, r0, r1⟩ = [] := by
    refine List.filter_eq_nil_iff.2 fun f live hf => ?_
    have mine := List.filter_eq_nil_iff.1 none_ f live
    simp only [Bool.and_eq_true, Bool.or_eq_true, decide_eq_true_eq] at hf mine
    obtain ⟨⟨-, ours⟩, other⟩ := hf
    exact mine ⟨Fin.ext (ours.resolve_left (by omega)), other⟩
  have owed : ((queueEnded d id x del).qif.outbox.any fun c => decide (c.q.val = id.val ∧ c.order < d.qif.order)) = false := by
    refine List.any_eq_false.2 fun c hc => ?_
    rw [decide_eq_true_eq]
    exact fun h => posted c hc (Fin.ext h.1)
  rcases which with rfl | rfl
  · show (decide (inScope _ _ = []) && !_) = true
    rw [decide_eq_true scope]
    exact congrArg (!·) owed
  · show (decide (inScope _ _ = []) && !_) = true
    rw [decide_eq_true scope]
    exact congrArg (!·) owed

/-- Settles O34: a new pair by its checks, a reset by the waiter it puts (`doReset_found`, `queueEnded_done`), and the waiters' ends by
`waiterCheck_found`. -/
theorem queuesCreatedResetDeleted : Obligations.QueuesCreatedResetDeleted := by
  refine ⟨fun q d r c admin open_ => ⟨?_, fun bad => next_congr ((adminOpen_here d _ _ admin open_).trans (doCreate_bad d r c bad))⟩,
    fun q d r id x admin open_ => ?_, fun q d id cid => ?_⟩
  · rintro ⟨⟨named, free⟩, vector, sq, cq⟩
    exact next_congr ((adminOpen_here d _ _ admin open_).trans (doCreate_good d r c named free vector sq cq))
  · intro mine z ended w idle
    refine ⟨fun named keeps found => ?_, fun no => ⟨next_congr ((adminOpen_here d _ _ admin open_).trans (doReset_none d r id x false no)),
      next_congr ((adminOpen_here d _ _ admin open_).trans (doReset_none d r id x true no))⟩⟩
    have reset := (adminOpen_here d opQueueReset _ admin open_).trans (doReset_found d r id x false named keeps found)
    have delete := (adminOpen_here d opDeleteQueue _ admin open_).trans (doReset_found d r id x true named keeps found)
    refine ⟨next_congr reset, next_congr delete, ?_⟩
    rintro ⟨none_, posted, others⟩
    have none' : queueFlights d r id = [] := none_
    have keep : (d.qif.waiters.filter fun y => !sameRef y.ref r) = d.qif.waiters :=
      List.filter_eq_self.2 fun y hy => by rw [others y hy]; rfl
    rw [none'] at reset delete
    refine ⟨next_congr (reset.trans ((if_pos (queueEnded_done d r id x false 1 _ _ (.inl rfl) none' posted)).trans ?_)),
      next_congr (delete.trans ((if_pos (queueEnded_done d r id x true 2 _ _ (.inr rfl) none' posted)).trans ?_))⟩
    · refine (waiterFinish_reset _ _ rfl).trans ?_
      dsimp only [queueEnded, List.foldl_nil]
      rw [keep]
      rfl
    · refine (waiterFinish_delete _ _ rfl).trans ?_
      dsimp only [queueEnded, List.foldl_nil]
      rw [keep]
      rfl
  · intro find rest
    refine ⟨fun w run done => ⟨fun found kind => next_congr ?_, fun found kind => next_congr ?_, fun found => next_congr ?_⟩,
      fun no => next_congr (waiterCheck_still d [1, 2] id cid no), fun no => next_congr (waiterCheck_still d [0] id cid no)⟩
    · exact (waiterCheck_found d [1, 2] id cid w run found done).trans (waiterFinish_reset d w kind)
    · exact (waiterCheck_found d [1, 2] id cid w run found done).trans (waiterFinish_delete d w kind)
    · have kind : w.kind = 0 := by
        have meets := List.find?_some found
        simp only [Bool.and_eq_true, List.contains_iff_mem, List.mem_singleton] at meets
        exact meets.2
      exact (waiterCheck_found d [0] id cid w run found done).trans (waiterFinish_flush d w kind)

/-! ### FLUSH -/

theorem doFlush_known (d : Dev) (r : CmdRef) (scope : Nat) (known : scope < 16384 ∨ scope = 0xFFFF) :
    doFlush d r scope = waiterPut d ⟨r, 0, scope, orderOf d r, 0, 0⟩ :=
  if_neg (by omega)

theorem doFlush_unknown (d : Dev) (r : CmdRef) (scope : Nat) (unknown : ¬(scope < 16384 ∨ scope = 0xFFFF)) :
    doFlush d r scope = refuse d r opFlush stField :=
  if_pos (by omega)

/-! ### ABORT -/

theorem sameRef_iff (a b : CmdRef) : sameRef a b = true ↔ a.q = b.q ∧ a.cid = b.cid ∧ a.session = b.session := decide_eq_true_iff

/-- References of one command are the same to every other. -/
theorem sameRef_right (a b x : CmdRef) (same : sameRef a b = true) : sameRef x a = sameRef x b := by
  obtain ⟨q, cid, session⟩ := (sameRef_iff a b).1 same
  rw [sameRef, sameRef, q, cid, session]

theorem sameRef_left (a b x : CmdRef) (same : sameRef a b = true) : sameRef a x = sameRef b x := by
  obtain ⟨q, cid, session⟩ := (sameRef_iff a b).1 same
  rw [sameRef, sameRef, q, cid, session]

theorem hostLive_same (d : Dev) (a b : CmdRef) (same : sameRef a b = true) : hostLive d a = hostLive d b := by
  have all : sameRef a = sameRef b := funext fun x => sameRef_left a b x same
  rw [hostLive, hostLive, ((sameRef_iff a b).1 same).2.2, all]

theorem refuse_free (d : Dev) (r : CmdRef) (op st : Nat) (free : refusedResults d op = none) :
    refuse d r op st = complete d.tick.tick r op st (Config.freeNat d.free) (Config.freeNat (d.free + 1)) := by
  unfold refuse
  rw [free]

/-- The part with a command's place in the activation, the streams and the lists of waiting commands given up. -/
def letGo (d : Dev) (r : CmdRef) : Dev :=
  let e := streamUnstart (dropAct d r) r
  { e with qif := { e.qif with swaits := e.qif.swaits.filter fun w => !sameRef w.ref r, waiters := e.qif.waiters.filter fun w => !sameRef w.ref r } }

theorem letGo_parts (d : Dev) (r : CmdRef) : (letGo d r).chs = d.chs ∧ (letGo d r).guard = d.guard ∧ (letGo d r).qif =
    { d.qif with swaits := d.qif.swaits.filter fun w => !sameRef w.ref r, waiters := d.qif.waiters.filter fun w => !sameRef w.ref r } := by
  have dropped : (dropAct d r).qif = d.qif ∧ (dropAct d r).guard = d.guard := by
    unfold dropAct
    split
    · split
      · exact ⟨rfl, rfl⟩
      · exact ⟨rfl, rfl⟩
    · exact ⟨rfl, rfl⟩
  simp [letGo, streamUnstart, Dev.streamAll, dropped]

theorem abortFlight_other (d : Dev) (f : Flight) (other : f.opcode ≠ opMeasure) : abortFlight d f = refuse (letGo d f.ref) f.ref f.opcode stAborted :=
  if_neg other

theorem doAbort_found (d : Dev) (r : CmdRef) (sq : QId) (cid : BitVec 16) (f : Flight) (found : flightOf d { r with q := sq, cid := cid } = some f)
    (can : abortable d f = true) : doAbort d r sq cid =
      abortFlight { d with qif := { d.qif with waiters := d.qif.waiters ++ [⟨r, 3, sq.val, cid.toNat, 0, 0⟩] } } f := by
  unfold doAbort
  dsimp only
  rw [found]
  exact if_pos can

theorem doAbort_past (d : Dev) (r : CmdRef) (sq : QId) (cid : BitVec 16)
    (past : ∀ f ∈ flightOf d { r with q := sq, cid := cid }, abortable d f = false) :
    doAbort d r sq cid = complete d r opAbort stNotFound 0 0 := by
  unfold doAbort
  dsimp only
  split
  · rfl
  next f found => exact if_neg (by rw [past f found]; exact Bool.false_ne_true)

/-- A command that fails while one ABORT waits for it, with nothing else to post. -/
theorem complete_aborted (d : Dev) (r : CmdRef) (op st r0 r1 : Nat) (w : Waiter) (fails : st ≠ stSuccess) (live : hostLive d r = true)
    (one : d.qif.waiters.filter (abortsRef r) = [w]) (clear : d.qif.outbox = []) :
    (complete d r op st r0 r1).qif.outbox = [completionOf d r op st r0 r1, { completionOf d w.ref 0x07 stSuccess 0 0 with at_ := none }] ∧
    (complete d r op st r0 r1).qif.flights = (d.qif.flights.filter fun f => !sameRef f.ref r).filter (fun f => !sameRef f.ref w.ref) ∧
    (complete d r op st r0 r1).qif.swaits = d.qif.swaits := by
  unfold complete completeWith
  rw [live, List.partition_eq_filter_filter, one, clear]
  dsimp only
  rw [if_neg (by decide), if_neg fails]
  refine ⟨rfl, List.filter_congr fun f _ => ?_, rfl⟩
  rw [List.any_cons, List.any_nil, Bool.or_false]

/-- A STREAM_WRITE that waits for room is before its decisive point. -/
theorem abortable_stream (d : Dev) (f : Flight) (y : StreamWait) (op : f.opcode = 0x20) (due : f.prog = .due) (now : f.timed = false)
    (waits : y ∈ d.qif.swaits) (own : sameRef y.ref f.ref = true) : abortable d f = true := by
  have inStore : f.inStore = false := by
    rw [Flight.inStore, now]
    rfl
  have room : (d.qif.swaits.any fun w => sameRef w.ref f.ref) = true := List.any_eq_true.2 ⟨y, waits, own⟩
  unfold abortable
  rw [room, op, due, inStore]
  rfl

/-- Settles O35: FLUSH by the waiter it puts, ABORT by what it names (`doAbort_found`, `doAbort_past`), and the aborted STREAM_WRITE by the two
completions of `complete_aborted`. -/
theorem flushAndAbort : Obligations.FlushAndAbort := by
  intro q d r scope sq cid admin open_ w left known t named
  have flush : known → exec (.flush r scope) ⟨q, d⟩ = .next ⟨q, waiterPut d w⟩ := fun h =>
    next_congr ((adminOpen_here d _ _ admin open_).trans (doFlush_known d r _ h))
  have abort : ∀ u, doAbort d r sq cid = u → exec (.abort r sq cid) ⟨q, d⟩ = .next ⟨q, u⟩ := fun u h =>
    next_congr ((adminOpen_here d _ _ admin open_).trans h)
  refine ⟨fun h done => (flush h).trans ?_, fun h held => (flush h).trans ?_, fun empty posted => ?_, fun h => ?_, fun missing => ?_,
    fun f found no => ?_, fun f found can => abort _ (doAbort_found d r sq cid f found can), ?_⟩
  · exact congrArg (fun u => Host.Outcome.next (⟨q, u⟩ : State)) ((if_pos done).trans (waiterFinish_flush d w rfl))
  · exact congrArg (fun u => Host.Outcome.next (⟨q, u⟩ : State)) (if_neg (by rw [held]; exact Bool.false_ne_true))
  · have scope_ : inScope d w = [] := by
      rw [inScope, liveFlights, empty]
      rfl
    refine ⟨?_, by rw [show left = (inScope d w).filter _ from rfl, scope_]; rfl⟩
    show (!(inScope d w).any (flushHeld d) && _) = true
    rw [scope_, posted]
    rfl
  · exact next_congr ((adminOpen_here d _ _ admin open_).trans (doFlush_unknown d r _ h))
  · exact abort _ (doAbort_past d r sq cid fun f hf => absurd (missing.symm.trans hf) nofun)
  · exact abort _ (doAbort_past d r sq cid fun g hg => Option.some.inj (found.symm.trans hg) ▸ no)
  · intro f y found op due now waits own others clear live differ
    have same : sameRef f.ref t = true :=
      List.find?_some (p := fun x : Flight => sameRef x.ref t) found
    obtain ⟨sameQ, sameCid, sameSession⟩ := (sameRef_iff _ _).1 same
    have asT : ∀ x, sameRef x f.ref = sameRef x t := fun x => sameRef_right _ _ x same
    obtain ⟨chs, guard, qif⟩ := letGo_parts named f.ref
    obtain ⟨z, ticked⟩ : ∃ z, z = (letGo named f.ref).tick.tick := ⟨_, rfl⟩
    have parts : z.qif = (letGo named f.ref).qif ∧ z.chs = d.chs ∧ z.guard = d.guard := by
      rw [ticked]
      simp only [tick_frame, chs, guard]
      exact ⟨trivial, rfl, rfl⟩
    obtain ⟨zqif, zchs, zguard⟩ := parts
    rw [qif] at zqif
    have one : z.qif.waiters.filter (abortsRef f.ref) = [⟨r, 3, sq.val, cid.toNat, 0, 0⟩] := by
      rw [zqif]
      show (List.filter _ (d.qif.waiters ++ [_])).filter _ = _
      have mine : abortsRef f.ref ⟨r, 3, sq.val, cid.toNat, 0, 0⟩ = true := by
        rw [abortsRef, sameQ, sameCid]
        exact decide_eq_true ⟨rfl, rfl, rfl⟩
      have rest : d.qif.waiters.filter (fun x => abortsRef f.ref x && !sameRef x.ref f.ref) = [] := by
        refine List.filter_eq_nil_iff.2 fun v hv h => ?_
        have three := (Bool.and_eq_true _ _ ▸ h).1
        exact others v hv (decide_eq_true_iff.1 three).1
      rw [List.filter_filter, List.filter_append, rest, List.nil_append, List.filter_cons, mine, asT, differ]
      rfl
    have live' : hostLive z f.ref = true := by
      rw [hostLive_same _ _ _ same, hostLive, zqif]
      exact live
    have clear' : z.qif.outbox = [] := by
      rw [zqif]
      exact clear
    obtain ⟨outbox, flights, swaits⟩ := complete_aborted z f.ref 0x20 stAborted (Config.freeNat (letGo named f.ref).free)
      (Config.freeNat ((letGo named f.ref).free + 1)) ⟨r, 3, sq.val, cid.toNat, 0, 0⟩ (by decide) live' one clear'
    have ended : abortFlight named f = complete z f.ref 0x20 stAborted (Config.freeNat (letGo named f.ref).free)
        (Config.freeNat ((letGo named f.ref).free + 1)) := by
      rw [abortFlight_other _ _ (by rw [op]; decide), op, ticked]
      exact refuse_free _ _ _ _ rfl
    refine ⟨_, _, _, abort _ ((doAbort_found d r sq cid f found (abortable_stream d f y op due now waits own)).trans ended), outbox, sameQ, sameCid,
      rfl, rfl, rfl, rfl, rfl, rfl, flights.trans ?_, swaits.trans ?_, (complete_chs ..).trans zchs, ?_⟩
    · rw [zqif, List.filter_filter]
      exact List.filter_congr fun g _ => by rw [asT]; exact Bool.and_comm _ _
    · rw [zqif]
      exact List.filter_congr fun g _ => by rw [asT]
    · simp only [complete_frame, zguard]

end Sys2Proof.Machine
end

section
/-!
PROOFS. Doorbells and enable of the queue interface (R388 to R391, R427, R428), the posting of completions with their vectors
(R391, R424, R426, R442) and cues (R405, R407).
-/

namespace Sys2Proof.Machine

/-! ### Ring indices -/

theorem satN_min (m n : Nat) : satN m n = min m n := by
  rw [satN, Nat.min_def]
  split <;> split <;> omega

theorem ringWrite_in (d : Dev) (k : QId) (v : W32) (depth : Queue → Nat) (f : Nat → Queue → Queue) (x : Queue)
    (found : Mem.find d.qif.queues k.val = some x) (fits : v.toNat % 4096 < depth x) :
    ringWrite d k v depth f = { d with qif := { d.qif with queues := Mem.put d.qif.queues k.val (f (v.toNat % 4096) x) } } := by
  unfold ringWrite
  rw [found, bits_low]
  exact if_neg (Nat.not_le.2 fits)

theorem ringWrite_past (d : Dev) (k : QId) (v : W32) (depth : Queue → Nat) (f : Nat → Queue → Queue) (x : Queue)
    (found : Mem.find d.qif.queues k.val = some x) (past : depth x ≤ v.toNat % 4096) : ringWrite d k v depth f = qifErr d k.val 1 := by
  unfold ringWrite
  rw [found, bits_low]
  exact if_pos past

theorem ringWrite_none (d : Dev) (k : QId) (v : W32) (depth : Queue → Nat) (f : Nat → Queue → Queue)
    (absent : Mem.find d.qif.queues k.val = none) : ringWrite d k v depth f = qifErr d k.val 2 := by
  unfold ringWrite
  rw [absent]

/-! ### Enable -/

/-- The part with its RDY bit set to `b`. -/
def withRdy (d : Dev) (b : Bool) : Dev := { d with qif := { d.qif with rdy := b } }

/-- RDY follows EN once the stewards run. -/
theorem readyQ0_rdy (d : Dev) (en : d.qif.en = true) (valid : d.qif.cfgErr = false) :
    readyQ0 d = withRdy d (d.qif.rdy || (d.admin.booted && d.admin.act.isNone)) := by
  have up : stewardsDown d = !d.admin.act.isNone := by
    rw [stewardsDown]
    cases d.admin.act <;> rfl
  have when_ : (d.qif.en && !d.qif.cfgErr && !d.qif.rdy && d.admin.booted && !stewardsDown d) =
      (!d.qif.rdy && (d.admin.booted && d.admin.act.isNone)) := by
    rw [en, valid, up, Bool.not_not, Bool.and_assoc]
    rfl
  unfold readyQ0
  dsimp only
  rw [when_]
  have same : ∀ b, d.qif.rdy = b → d = withRdy d b := fun b rdy => congrArg (withRdy d) rdy
  cases rdy : d.qif.rdy with
  | true => exact same true rdy
  | false => cases d.admin.booted && d.admin.act.isNone with
    | true => rfl
    | false => exact same false rdy

theorem enableDev_valid (d : Dev) (off : d.qif.en = false) (valid : aqOk d.qif = true) :
    enableDev d = readyQ0 { d with qif := { d.qif with en := true, cfgErr := false, queues := Mem.put d.qif.queues 0 (queue0 d.qif) } } := by
  unfold enableDev
  dsimp only
  rw [off, valid]
  rfl

theorem enableDev_invalid (d : Dev) (off : d.qif.en = false) (bad : aqOk d.qif = false) :
    enableDev d = { d with qif := { d.qif with en := true, cfgErr := true } } := by
  unfold enableDev
  dsimp only
  rw [off, bad]
  rfl

theorem enableDev_on (d : Dev) (on : d.qif.en = true) : enableDev d = d := if_pos on

/-- Settles O53: a ring index by `ringWrite_in`, `ringWrite_past` and `ringWrite_none`, EN by `enableDev_valid` with `readyQ0_rdy`. -/
theorem queueDoorbells : Obligations.QueueDoorbells := by
  intro q d k v o n i err on
  have counted : ∀ a kind, qifErr d a kind = err a kind := fun a kind => by
    rw [qifErr, satN_min]
  refine ⟨fun x found => ⟨fun h => next_congr (ringWrite_in d k v _ _ x found h),
      fun h => next_congr ((ringWrite_past d k v _ _ x found h).trans (counted _ _)),
      fun h => next_congr (ringWrite_in d k v _ _ x found h),
      fun h => next_congr ((ringWrite_past d k v _ _ x found h).trans (counted _ _))⟩,
    fun absent => ⟨next_congr ((ringWrite_none d k v _ _ absent).trans (counted _ _)),
      next_congr ((ringWrite_none d k v _ _ absent).trans (counted _ _))⟩,
    fun bad => next_congr ((if_neg fun h => bad.elim (· h.1) (· h.2)).trans (counted _ _)), fun size aligned => next_congr (if_pos ⟨size, aligned⟩),
    fun off valid => next_congr ?_, fun off bad => ⟨next_congr ?_, ?_⟩, fun h => next_congr (enableDev_on d h)⟩
  · rw [enableDev_valid d off valid, readyQ0_rdy _ rfl rfl]
    show _ = ({ d with qif := { d.qif with en := true, cfgErr := !aqOk d.qif, rdy := _, queues := _ } } : Dev)
    rw [valid]
    rfl
  · rw [enableDev_invalid d off bad]
    show _ = ({ d with qif := { d.qif with en := true, cfgErr := !aqOk d.qif } } : Dev)
    rw [bad]
    rfl
  · show (!aqOk d.qif) = true
    rw [bad]
    rfl

/-! ### Vectors -/

theorem signal_open (d : Dev) (v : Nat) (go : d.qif.msix.funcMasked = false) (clear : v ∈ d.qif.msix.unmasked) :
    signal d v = { d with qif := { d.qif with msix := { d.qif.msix with sent := v :: d.qif.msix.sent } } } := by
  unfold signal
  dsimp only
  rw [go, List.contains_iff_mem.2 clear]
  rfl

theorem signal_masked (d : Dev) (v : Nat) (held : d.qif.msix.funcMasked = true ∨ v ∉ d.qif.msix.unmasked) : signal d v =
    if v ∈ d.qif.msix.pendBits then d else { d with qif := { d.qif with msix := { d.qif.msix with pendBits := v :: d.qif.msix.pendBits } } } := by
  have masked : (d.qif.msix.funcMasked || !d.qif.msix.unmasked.contains v) = true := by
    rcases held with h | h
    · rw [h]
      rfl
    · rw [Bool.eq_false_iff.2 fun c => h (List.contains_iff_mem.1 c)]
      exact Bool.or_true _
  unfold signal
  dsimp only
  rw [if_pos masked]
  by_cases waits : v ∈ d.qif.msix.pendBits
  · rw [if_pos (List.contains_iff_mem.2 waits), if_pos waits]
  · rw [if_neg fun c => waits (List.contains_iff_mem.1 c), if_neg waits]

/-- The vectors without a mask once `v` has none. -/
theorem opened_eq (l : List Nat) (v : Nat) : (if l.contains v then l else v :: l) = if v ∈ l then l else v :: l := by
  simp only [List.contains_iff_mem]

theorem sendPending_masked (d : Dev) (h : d.qif.msix.funcMasked = true) : sendPending d = d := if_pos h

theorem sendPending_open (d : Dev) (h : d.qif.msix.funcMasked = false) : sendPending d = { d with qif := { d.qif with msix := { d.qif.msix with
    sent := (d.qif.msix.pendBits.filter fun v => d.qif.msix.unmasked.contains v) ++ d.qif.msix.sent
    pendBits := d.qif.msix.pendBits.filter fun v => !d.qif.msix.unmasked.contains v } } } :=
  if_neg (by rw [h]; exact Bool.false_ne_true)

/-! ### Posting -/

theorem cqSignal_off (d : Dev) (c : Completion) (x : Queue) (h : x.ien = false) : cqSignal d c x = d := if_pos (by rw [h]; rfl)

theorem cqSignal_now (d : Dev) (c : Completion) (x : Queue) (h : x.ien = true) (urgent : d.qif.coalThresh = 0 ∨ x.cls = 0 ∨ c.status ≠ 0) :
    cqSignal d c x = signal d x.vector := by
  unfold cqSignal
  rw [h]
  exact if_pos urgent

theorem cqSignal_later (d : Dev) (c : Completion) (x : Queue) (h : x.ien = true) (calm : ¬(d.qif.coalThresh = 0 ∨ x.cls = 0 ∨ c.status ≠ 0)) :
    cqSignal d c x = coalesce d x.vector := by
  unfold cqSignal
  rw [h]
  exact if_neg calm

theorem postDev_found (d : Dev) (c : Completion) (x : Queue) (up : d.qif.linkUp = true) (first : d.qif.outbox.find? (postable d) = some c)
    (queue : Mem.find d.qif.queues c.q.val = some x) : postDev d = postOne d c x := by
  unfold postDev
  rw [up, first]
  dsimp only
  rw [queue]
  rfl

theorem postDev_still (d : Dev) (no : d.qif.linkUp = false ∨ ∀ c ∈ d.qif.outbox, postable d c = false) : postDev d = d := by
  unfold postDev
  rcases no with down | none_
  · exact if_pos (by rw [down]; rfl)
  · have none' : d.qif.outbox.find? (postable d) = none := List.find?_eq_none.2 fun c hc h => Bool.noConfusion ((none_ c hc).symm.trans h)
    rw [none']
    exact ite_self _

/-! ### Cues -/

theorem cueDev_first (d : Dev) (f : Flight) (first : (dueList d).head? = some f) (cue : f.prog = .cue ∨ f.prog = .committed)
    (go : d.tb.cmdsDue = false) : cueDev d = runDue (runFlight d f) := by
  obtain ⟨rest, due⟩ := List.head?_eq_some_iff.1 first
  unfold cueDev
  rw [due]
  refine if_pos ?_
  rw [isCue, decide_eq_true cue, go]
  rfl

theorem cueDev_still (d : Dev) (no : ∀ f ∈ (dueList d).head?, (f.prog ≠ .cue ∧ f.prog ≠ .committed) ∨ d.tb.cmdsDue = true) : cueDev d = d := by
  unfold cueDev
  cases due : dueList d with
  | nil => rfl
  | cons f rest =>
    refine if_neg fun h => ?_
    rw [Bool.and_eq_true, isCue, decide_eq_true_eq, Bool.not_eq_true'] at h
    rcases no f (by rw [due]; rfl) with ⟨notCue, notCommitted⟩ | waits
    · exact h.1.elim notCue notCommitted
    · exact Bool.noConfusion (h.2.symm.trans waits)

/-- An entry that runs with no release waiting and the stewards up: its command runs with the entry's progress noted. -/
theorem runFlight_telemetry (d : Dev) (f : Flight) (o n : Nat) (cmd : f.cmd = .telemetryRead f.ref o n) (io : 0x20 ≤ f.opcode)
    (free : d.relWait = []) (up : d.admin.act = none) :
    runFlight d f = doTelemetry (d.flight f.ref fun x => { x with prog := .started }) f.ref o n := by
  have down : stewardsDown d = false := by rw [stewardsDown, up]; rfl
  unfold runFlight
  dsimp only
  rw [down, Bool.and_false, if_neg Bool.false_ne_true, free, cmd]
  exact if_neg (Nat.not_lt.2 io)

/-- What CUE_COMMIT does to an entry of the journal. -/
def committed (d : Dev) (k : QId) (cid : BitVec 16) (f : Flight) : Flight :=
  if f.ref.q = k ∧ f.ref.cid = cid ∧ isCommitted d f = true then { f with prog := .committed } else f

theorem isCommitted_iff (d : Dev) (f : Flight) : isCommitted d f = true ↔ f.prog = .committed ∨ (f.prog = .cue ∧ f.at_ ≤ nextStc d) := by
  simp only [isCommitted, Bool.or_eq_true, Bool.and_eq_true, decide_eq_true_eq]

/-- Settles O56: a posted completion by `postDev_found` and its signal, the vectors by `signal_open` and `sendPending_open`, the cues by
`cueDev_first` and `runFlight_telemetry`. -/
theorem completionsCuesAndVectors : Obligations.CompletionsCuesAndVectors := by
  refine ⟨fun q d c x v => ?_, fun q d k cid f => ?_⟩
  · intro m sent t open_ posted urgent go opened sends
    refine ⟨signal_open d v.val, signal_masked d v.val, fun up first queue => ?_, fun no => next_congr (postDev_still d no), fun n held => ?_,
      fun none_ => ?_, fun free => ?_, fun masked => ?_, ?_⟩
    · have one := postDev_found d c x up first queue
      exact ⟨fun h => next_congr (one.trans (cqSignal_off posted c x h)), fun h now => next_congr (one.trans (cqSignal_now posted c x h now)),
        fun h later => next_congr (one.trans (cqSignal_later posted c x h later))⟩
    · exact next_congr (if_pos (List.any_eq_true.2 ⟨_, held, decide_eq_true rfl⟩))
    · refine next_congr (if_neg fun h => ?_)
      obtain ⟨⟨w, n⟩, mem, same⟩ := List.any_eq_true.1 h
      exact none_ n (of_decide_eq_true same ▸ mem)
    · refine next_congr ?_
      show sendPending (sent { m with unmasked := if m.unmasked.contains v.val then m.unmasked else v.val :: m.unmasked }) = _
      rw [opened_eq]
      refine (sendPending_open (sent { m with unmasked := opened }) free).trans ?_
      dsimp only [sends, sent, go]
      rw [← free]
    · refine next_congr ?_
      show sendPending (sent { m with unmasked := if m.unmasked.contains v.val then m.unmasked else v.val :: m.unmasked }) = _
      rw [opened_eq]
      exact sendPending_masked (sent { m with unmasked := opened }) masked
    · exact next_congr (sendPending_open (sent { m with funcMasked := false }) rfl)
  · intro isDue
    refine ⟨⟨commitDev d k cid, rfl, rfl, List.length_map .., fun i f at_i => ?_⟩, fun first cue now => ⟨next_congr (cueDev_first d f first cue now),
      fun o n cmd io free up => next_congr (runFlight_telemetry d f o n cmd io free up).symm⟩, fun no => next_congr (cueDev_still d no), fun none_ => ?_⟩
    · have changed : (commitDev d k cid).qif.flights[i]? = some (committed d k cid f) := by
        refine (List.getElem?_map ..).trans ?_
        rw [at_i]
        rfl
      rw [changed, committed]
      refine ⟨fun h => ?_, fun h => ?_⟩
      · rw [if_pos ⟨h.1, h.2.1, (isCommitted_iff d f).2 h.2.2⟩]
      · rw [if_neg fun c => h ⟨c.1, c.2.1, (isCommitted_iff d f).1 c.2.2⟩]
    · refine next_congr (cueDev_still d fun f first => ?_)
      have due : dueList d = [] := List.filter_eq_nil_iff.2 fun f hf h => Bool.noConfusion ((none_ f hf).symm.trans h)
      rw [due] at first
      cases first

end Sys2Proof.Machine
end

section
/-!
PROOFS. COMMAND_FETCH (R392, R396 to R399, R402 to R404): whose turn it is, the checks of an entry and where it is placed.
-/

namespace Sys2Proof.Machine

/-! ### The checks of an entry -/

theorem cidBusy_iff (d : Dev) (r : CmdRef) : cidBusy d r = true ↔ flightOf d r ≠ none ∨ ∃ c ∈ d.qif.outbox, c.q = r.q ∧ c.cid = r.cid := by
  rw [cidBusy, Bool.or_eq_true, List.any_eq_true, Option.isSome_iff_ne_none]
  simp only [decide_eq_true_eq]

section
variable (d : Dev) (k : QId) (e buf : List Byte)

theorem fetchEntry_unknown (unknown : opKnown k.val (eb e 0) = false) : fetchEntry d k e buf =
    if cidBusy d (refOf k d.qif.session e) then refuseDup d (refOf k d.qif.session e) (eb e 0) stOpcode
    else refuse d (refOf k d.qif.session e) (eb e 0) stOpcode :=
  if_pos (by rw [unknown]; rfl)

theorem fetchEntry_busy (known : opKnown k.val (eb e 0) = true) (busy : cidBusy d (refOf k d.qif.session e) = true) :
    fetchEntry d k e buf = refuseDup d (refOf k d.qif.session e) (eb e 0) stField :=
  (if_neg (by rw [known]; exact Bool.false_ne_true)).trans (if_pos busy)

theorem fetchEntry_free (known : opKnown k.val (eb e 0) = true) (free : cidBusy d (refOf k d.qif.session e) = false) : fetchEntry d k e buf =
    match parseEntry (refOf k d.qif.session e) e buf with
    | none => refuse d (refOf k d.qif.session e) (eb e 0) stField
    | some y => match fetchFail d { y with time := resolveWhen d y.time } with
      | some st => refuse d (refOf k d.qif.session e) (eb e 0) st
      | none => accept d (refOf k d.qif.session e) { y with time := resolveWhen d y.time } :=
  (if_neg (by rw [known]; exact Bool.false_ne_true)).trans ((if_neg (by rw [free]; exact Bool.false_ne_true)).trans rfl)

end

/-! ### Where an entry goes -/

theorem accept_timedSet (d : Dev) (r : CmdRef) (x : Entry) (o : SetObj) (cmd : x.cmd = .timedSet r o) (io : 0x20 ≤ x.op) :
    accept d r x = placeIo d r x := by
  unfold accept
  rw [cmd]
  exact if_neg (Nat.not_lt.2 io)

theorem placeIo_untimed (d : Dev) (r : CmdRef) (x : Entry) (time : x.time = .untimed) :
    placeIo d r x = addFlight d (entryOf r x .due (nextStc d) false) := by
  unfold placeIo
  rw [time]

theorem placeIo_cue (d : Dev) (r : CmdRef) (x : Entry) (b : Nat) (time : x.time = .stc b) (ahead : nextStc d < b) :
    placeIo d r x = addFlight d (entryOf r x .cue b true) := by
  unfold placeIo
  rw [time]
  exact if_pos ahead

theorem placeIo_frame (d : Dev) (r : CmdRef) (x : Entry) (n o : Nat) (time : x.time = .frame n o) :
    placeIo d r x = addFlight d (entryOf r x .framed 0 true) := by
  unfold placeIo
  rw [time]

/-- IDENTIFY passes every check of R396: it needs neither the host nor an image, and names no channel. -/
theorem fetchFail_identify (d : Dev) (r : CmdRef) (x : Entry) (cmd : x.cmd = .identify r) (op : x.op = 1) (time : x.time = .untimed) :
    fetchFail d x = none := by
  have late : fetchLate d x = false := by
    unfold fetchLate
    rw [time]
  have inside : outside d x.cmd = false := by
    rw [cmd]
    rfl
  have timeless : decide (x.time ≠ .untimed) = false := decide_eq_false fun h => h time
  unfold fetchFail
  rw [late, inside, timeless, op]
  exact (if_neg (by rw [Bool.and_eq_true]; exact fun h => Bool.noConfusion h.2)).trans rfl

theorem accept_identify (d : Dev) (r : CmdRef) (x : Entry) (cmd : x.cmd = .identify r) (op : x.op = 1) (time : x.time = .untimed) :
    accept d r x = adminNext (addFlight d (entryOf r x .waiting 0 false)) := by
  have late : fetchLate d x = false := by
    unfold fetchLate
    rw [time]
  have entry : adminEntry d r x = entryOf r x .waiting 0 false := by
    unfold adminEntry
    rw [late, time, cmd]
    unfold entryOf
    rw [time, cmd]
    rfl
  unfold accept
  rw [cmd]
  dsimp only
  rw [op, entry]
  rfl

/-! ### Whose turn it is -/

theorem fetchDev_turn (d d1 : Dev) (k : QId) (x : Queue) (e buf : List Byte) (turn : pick d = some (k.val, d1))
    (queue : Mem.find d1.qif.queues k.val = some x) : fetchDev d e buf =
      fetchEntry { d1 with qif := { d1.qif with queues := Mem.put d1.qif.queues k.val { x with sqHead := (x.sqHead + 1) % x.sqDepth } } } k e buf := by
  unfold fetchDev
  rw [turn]
  dsimp only
  rw [finOf, dif_pos k.isLt]
  dsimp only
  rw [queue]

theorem fetchDev_none (d : Dev) (e buf : List Byte) (no : pick d = none) : fetchDev d e buf = d := by
  unfold fetchDev
  rw [no]

/-- What stops the engine. -/
def engineOff (d : Dev) : Prop :=
  d.qif.en = false ∨ d.qif.rdy = false ∨ d.qif.paused = true ∨ d.qif.linkUp = false ∨ 32768 ≤ journalUsed d

theorem pick_off (d : Dev) (off : engineOff d) : pick d = none := by
  refine if_pos ?_
  rcases off with h | h | h | h | h <;> simp [h]

theorem turnOf_single (d : Dev) (cls j : Nat) (one : ready d cls = [j]) : turnOf d cls = some j := by
  unfold turnOf
  rw [one]
  dsimp only
  rw [List.find?_cons]
  cases decide (d.qif.lastServed.getD cls 0 < j) <;> rfl

/-- An urgent queue goes before any other. -/
theorem pick_urgent (d : Dev) (j : Nat) (one : ready d 0 = [j]) (on : ¬engineOff d) : (pick d).map (·.1) = some j := by
  unfold engineOff at on
  simp only [not_or, Bool.not_eq_false, Bool.not_eq_true, Nat.not_le] at on
  obtain ⟨en, rdy, paused, up, room⟩ := on
  have go : (!d.qif.en || !d.qif.rdy || d.qif.paused || !d.qif.linkUp || decide (32768 ≤ journalUsed d)) = false := by
    simp [en, rdy, paused, up, room]
  have some_ : ready d 0 ≠ [] := by rw [one]; exact List.cons_ne_nil _ _
  unfold pick
  dsimp only
  rw [go, if_neg Bool.false_ne_true, if_pos some_, serve, turnOf_single d 0 j one]
  rfl

/-- Settles O55: the turn by `fetchDev_turn`, `pick_urgent` and `pick_off`, an entry's checks in the order of `fetchEntry`, and its place by
`placeIo`. -/
theorem commandFetch : Obligations.CommandFetch := by
  intro q d d1 k x e buf taken r op run turn busy
  have served : turn → run = .next ⟨q, fetchEntry taken k e buf⟩ := fun h => next_congr (fetchDev_turn d d1 k x e buf h.1 h.2)
  have answer : ∀ u, turn → fetchEntry taken k e buf = u → run = .next ⟨q, u⟩ := fun u h same => (served h).trans (next_congr same)
  have busy_iff : cidBusy d1 r = true ↔ busy := cidBusy_iff d1 r
  have free : ¬busy → cidBusy taken r = false := fun h => Bool.eq_false_iff.2 fun c => h (busy_iff.1 c)
  have taken_in : ∀ y : Entry, turn → opKnown k.val op = true → ¬busy → parseEntry r e buf = some y →
      fetchFail taken { y with time := resolveWhen taken y.time } = none →
      run = .next ⟨q, accept taken r { y with time := resolveWhen taken y.time }⟩ := by
    intro y h known idle parsed passes
    refine answer _ h ((fetchEntry_free taken k e buf known (free idle)).trans ?_)
    rw [show parseEntry (refOf k taken.qif.session e) e buf = some y from parsed]
    dsimp only
    rw [passes]
  refine ⟨fun h unknown => answer _ h (fetchEntry_unknown taken k e buf unknown), busy_iff,
    fun h known b => answer _ h (fetchEntry_busy taken k e buf known (busy_iff.2 b)), fun h known idle bad => ?_,
    fun y st h known idle parsed fails => ?_, fun y h known idle parsed => ?_, fun y h known idle parsed cmd op time => ?_,
    fun j one en rdy paused up room => pick_urgent d j one ?_, fun no => next_congr (fetchDev_none d e buf no), pick_off d⟩
  · refine answer _ h ((fetchEntry_free taken k e buf known (free idle)).trans ?_)
    rw [show parseEntry (refOf k taken.qif.session e) e buf = none from bad]
    rfl
  · refine answer _ h ((fetchEntry_free taken k e buf known (free idle)).trans ?_)
    rw [show parseEntry (refOf k taken.qif.session e) e buf = some y from parsed]
    dsimp only
    rw [fails]
    rfl
  · intro z passes
    have placed := taken_in y h known idle parsed passes
    refine ⟨placed, fun o cmd io => ?_⟩
    have io_ : run = .next ⟨q, placeIo taken r z⟩ := placed.trans (next_congr (accept_timedSet taken r z o cmd io))
    exact ⟨fun time => io_.trans (next_congr (placeIo_untimed taken r z time)),
      fun b time ahead => io_.trans (next_congr (placeIo_cue taken r z b time ahead)),
      fun n o time => io_.trans (next_congr (placeIo_frame taken r z n o time))⟩
  · have same : ({ y with time := resolveWhen taken y.time } : Entry) = y := by
      rw [time]
      exact congrArg (fun w => ({ y with time := w } : Entry)) time.symm
    have placed := taken_in y h known idle parsed (by rw [same]; exact fetchFail_identify taken r y cmd op time)
    rw [same] at placed
    exact placed.trans (next_congr (accept_identify taken r y cmd op time))
  · rintro (h | h | h | h | h)
    · exact Bool.noConfusion (h.symm.trans en)
    · exact Bool.noConfusion (h.symm.trans rdy)
    · exact Bool.noConfusion (h.symm.trans paused)
    · exact Bool.noConfusion (h.symm.trans up)
    · omega

end Sys2Proof.Machine
end

section
/-!
PROOFS. The losses of the host (R386, R387, R459, R460, R527, Table 14-12).
-/

namespace Sys2Proof.Machine

/-! ### What a completion changes of the queue interface -/

/-- The registers of the queue interface, the commands of the host that are not journalled among them. -/
def Qif.registers (q : Qif) : Qif := { q with flights := [], outbox := [], waiters := [], gone := [] }

/-- The queue interface `q` with completions made: registers as they were, and no journal entry nor waiter that was not there. -/
def Completing (p q : Qif) : Prop :=
  q.registers = p.registers ∧ (∀ f ∈ q.flights, f ∈ p.flights) ∧ ∀ w ∈ q.waiters, w ∈ p.waiters

theorem Completing.refl (p : Qif) : Completing p p := ⟨rfl, fun _ h => h, fun _ h => h⟩

theorem Completing.keeps {p q : Qif} (h : Completing p q) : q.queues = p.queues ∧ q.en = p.en ∧ q.rdy = p.rdy ∧ q.session = p.session ∧
    q.swaits = p.swaits ∧ q.linkUp = p.linkUp ∧ q.cfgReady = p.cfgReady ∧ q.aqSq = p.aqSq ∧ q.errCount = p.errCount := by
  have part {β : Type} (f : Qif → β) : f q.registers = f p.registers := congrArg f h.1
  exact ⟨part Qif.queues, part Qif.en, part Qif.rdy, part Qif.session, part Qif.swaits, part Qif.linkUp, part Qif.cfgReady, part Qif.aqSq,
    part Qif.errCount⟩

theorem Completing.trans {p q r : Qif} (first : Completing p q) (second : Completing q r) : Completing p r :=
  ⟨second.1.trans first.1, fun f h => first.2.1 f (second.2.1 f h), fun w h => first.2.2 w (second.2.2 w h)⟩

theorem complete_completing (d : Dev) (r : CmdRef) (op st r0 r1 : Nat) : Completing d.qif (complete d r op st r0 r1).qif := by
  unfold complete completeWith
  dsimp only
  split
  · exact ⟨rfl, fun f h => (List.mem_filter.1 h).1, fun w h => h⟩
  · have done : Completing d.qif { d.qif with
        flights := (d.qif.flights.filter fun f => !sameRef f.ref r).filter fun f =>
          !(d.qif.waiters.partition (abortsRef r)).1.any fun w => sameRef f.ref w.ref
        waiters := (d.qif.waiters.partition (abortsRef r)).2
        outbox := (insertDone (completionOf d r op st r0 r1) d.qif.outbox.reverse).reverse ++
          (d.qif.waiters.partition (abortsRef r)).1.map fun w => { completionOf d w.ref 0x07 stSuccess 0 0 with at_ := none } } := by
      refine ⟨rfl, fun f h => (List.mem_filter.1 (List.mem_filter.1 h).1).1, fun w h => ?_⟩
      rw [List.partition_eq_filter_filter] at h
      exact (List.mem_filter.1 h).1
    split
    · exact done
    · exact done

theorem measComplete_completing (d : Dev) (c : Ch) (m : Meas) (st : Nat) : Completing d.qif (measComplete d c m st).qif := by
  have freed (e : Dev) : (freeUnits e c m).qif = e.qif := by
    unfold freeUnits
    split <;> rfl
  have written : (hostWrite d m.ref (measResult d c m)).qif = d.qif := by simp only [hostWrite_frame]
  show Completing d.qif (freeUnits _ c m).qif
  rw [freed]
  exact written ▸ complete_completing ..

theorem measAbort_completing (d : Dev) (c : Ch) (st : Nat) : Completing d.qif (measAbort d c st).qif := by
  have quiet (l : List Ch) (f : Chan → Chan) (e : Dev) : (forCh l (fun e h => e.ch h f) e).qif = e.qif := forCh_qif _ l e fun _ _ => rfl
  unfold measAbort
  dsimp only
  split
  · exact .refl _
  · split
    · exact .refl _
    · split
      · show Completing d.qif (forCh _ _ d).qif
        rw [quiet]
        exact .refl _
      · unfold measStop
        dsimp only
        split
        · exact .refl _
        next m _ =>
          refine Completing.trans ?_ (measComplete_completing _ _ _ _)
          rw [quiet]
          exact .refl _

/-! ### The loss itself -/

/-- The part without its host, before the measurements end. -/
def lossBase (d : Dev) : Dev :=
  let d1 := if actStands d then d else { d with core := { d.core with act := none } }
  let d2 := (d.qif.flights.filter fun f => !stands d f).foldl (fun e f => if f.timed then streamUnstart e f.ref else e) d1
  { d2 with
    qif := { d2.qif with
      en := false, rdy := false, queues := [], flights := d.qif.flights.filter (stands d), outbox := [], waiters := [], swaits := []
      session := d2.qif.session + 1, gone := [], msix := { d2.qif.msix with deferred := [] } }
    relWait := []
    admin := { d2.admin with fwBuf := [], imgBuf := [] }
    mix := { d2.mix with muteDue := d2.mix.muteDue || d2.admin.policyMute } }

theorem hostLoss_eq (d : Dev) : hostLoss d = forCh (ixs 128) (fun e c => measAbort e c stAborted) (lossBase d) := rfl

/-- What the streams of ended writes leave alone. -/
def Dev.standing (d : Dev) := (d.chs, d.power, d.rails, d.guard, d.tb, d.core, d.groupRel, d.mix.muteDue, d.qif, d.admin, d.shank)

theorem lossBase_parts (d : Dev) : let u := lossBase d
    u.chs = d.chs ∧ u.power = d.power ∧ u.rails = d.rails ∧ u.guard = d.guard ∧ u.tb = d.tb ∧ u.groupRel = d.groupRel ∧ u.shank = d.shank ∧
      u.relWait = [] ∧ u.core = (if actStands d then d.core else { d.core with act := none }) ∧
      u.mix.muteDue = (d.mix.muteDue || d.admin.policyMute) ∧
      u.qif = { d.qif with
        en := false, rdy := false, queues := [], flights := d.qif.flights.filter (stands d), outbox := [], waiters := [], swaits := []
        session := d.qif.session + 1, gone := [], msix := { d.qif.msix with deferred := [] } } := by
  have streams (l : List Flight) (e : Dev) :
      (l.foldl (fun e f => if f.timed then streamUnstart e f.ref else e) e).standing = e.standing := by
    refine foldl_keeps Dev.standing _ (fun e f => ?_) l e
    split
    · simp [Dev.standing, streamUnstart, Dev.streamAll]
    · rfl
  have act : (if actStands d then d else { d with core := { d.core with act := none } }).standing = (d.chs, d.power, d.rails, d.guard, d.tb,
      (if actStands d then d.core else { d.core with act := none }), d.groupRel, d.mix.muteDue, d.qif, d.admin, d.shank) := by
    split <;> rfl
  have all := (streams (d.qif.flights.filter fun f => !stands d f) _).trans act
  unfold lossBase
  dsimp only
  generalize List.foldl _ _ _ = e at all ⊢
  simp only [Dev.standing, Prod.mk.injEq] at all
  obtain ⟨chs, power, rails, guard, tb, core, groupRel, muteDue, qif, admin, shank⟩ := all
  rw [chs, power, rails, guard, tb, core, groupRel, muteDue, qif, admin, shank]
  exact ⟨rfl, rfl, rfl, rfl, rfl, rfl, rfl, rfl, rfl, rfl, rfl⟩

/-- The part `u` after a loss of the host of `d` (R459). -/
def HostLost (d u : Dev) : Prop :=
  u.qif.queues = [] ∧ u.qif.en = false ∧ u.qif.rdy = false ∧ u.qif.session = d.qif.session + 1 ∧
    u.qif.waiters = [] ∧ u.qif.swaits = [] ∧ (∀ f ∈ u.qif.flights, f ∈ d.qif.flights ∧ stands d f = true) ∧ u.relWait = [] ∧
    u.tb = d.tb ∧ u.rails = d.rails ∧ u.guard = d.guard ∧ u.groupRel = d.groupRel ∧ u.shank = d.shank ∧ u.power = d.power ∧
    u.core = (if actStands d then d.core else { d.core with act := none }) ∧
    u.mix.muteDue = (d.mix.muteDue || d.admin.policyMute) ∧ ((∀ c : Ch, d.chs[c].meas = none) → u.chs = d.chs ∧ u.qif.outbox = [])

theorem hostLoss_completing (d : Dev) : Completing (lossBase d).qif (hostLoss d).qif :=
  forCh_holds (fun e => Completing (lossBase d).qif e.qif) _ (fun e c h => h.trans (measAbort_completing e c stAborted)) _ _ (.refl _)

/-- With no measurement under way the loss ends none. -/
theorem hostLoss_idle (d : Dev) (idle : ∀ c : Ch, d.chs[c].meas = none) : hostLoss d = lossBase d := by
  have chs := (lossBase_parts d).1
  refine forCh_holds (fun e => e = lossBase d) _ (fun e c same => ?_) _ _ rfl
  subst same
  unfold measAbort
  dsimp only
  rw [chs, idle]

theorem hostLoss_frame (d : Dev) : let u := hostLoss d; let e := lossBase d
    u.power = e.power ∧ u.rails = e.rails ∧ u.guard = e.guard ∧ u.tb = e.tb ∧ u.core = e.core ∧ u.groupRel = e.groupRel ∧ u.relWait = e.relWait ∧
      u.mix = e.mix ∧ u.shank = e.shank := by
  simp [hostLoss_eq]

theorem hostLoss_lost (d : Dev) : HostLost d (hostLoss d) := by
  obtain ⟨chs, power, rails, guard, tb, groupRel, shank, relWait, core, muteDue, qif⟩ := lossBase_parts d
  obtain ⟨power', rails', guard', tb', core', groupRel', relWait', mix', shank'⟩ := hostLoss_frame d
  have done := hostLoss_completing d
  obtain ⟨queues, en, rdy, session, swaits, -⟩ := done.keeps
  obtain ⟨-, flights, waiters⟩ := done
  rw [qif] at queues en rdy session swaits flights waiters
  refine ⟨queues, en, rdy, session, List.eq_nil_iff_forall_not_mem.2 fun w h => List.not_mem_nil (waiters w h), swaits, fun f h => List.mem_filter.1 (flights f h),
    relWait'.trans relWait, tb'.trans tb, rails'.trans rails, guard'.trans guard, groupRel'.trans groupRel, shank'.trans shank, power'.trans power,
    core'.trans core, (congrArg Mix.muteDue mix').trans muteDue, fun idle => ?_⟩
  rw [hostLoss_idle d idle, qif]
  exact ⟨chs, rfl⟩

theorem hostLoss_registers (d : Dev) : (hostLoss d).qif.linkUp = d.qif.linkUp ∧ (hostLoss d).qif.cfgReady = d.qif.cfgReady ∧
    (hostLoss d).qif.aqSq = d.qif.aqSq ∧ (hostLoss d).qif.errCount = d.qif.errCount := by
  have qif := (lossBase_parts d).2.2.2.2.2.2.2.2.2.2
  obtain ⟨-, -, -, -, -, linkUp, cfgReady, aqSq, errCount⟩ := (hostLoss_completing d).keeps
  rw [qif] at linkUp cfgReady aqSq errCount
  exact ⟨linkUp, cfgReady, aqSq, errCount⟩

/-- The host domain at its reset values keeps the link and the configuration space, and no other register. -/
theorem flr_registers (e : Dev) : let u := { e with qif := qifReset e.qif }
    u.qif.linkUp = e.qif.linkUp ∧ u.qif.cfgReady = e.qif.cfgReady ∧ u.qif.aqSq = 0 ∧ u.qif.errCount = 0 :=
  ⟨rfl, rfl, rfl, rfl⟩

theorem perst_registers (e : Dev) : let u := { e with qif := { qifReset e.qif with linkUp := false, cfgReady := false } }
    u.qif.linkUp = false ∧ u.qif.cfgReady = false ∧ u.qif.aqSq = 0 ∧ u.qif.errCount = 0 ∧ u.qif.evEn = false :=
  ⟨rfl, rfl, rfl, rfl, rfl⟩

theorem linkDown_registers (e : Dev) : let u := { e with qif := { e.qif with linkUp := false } }
    u.qif.linkUp = false ∧ u.qif.aqSq = e.qif.aqSq ∧ u.qif.errCount = e.qif.errCount :=
  ⟨rfl, rfl, rfl⟩

/-- What is lost stays lost as the host domain resets. -/
theorem HostLost.reset {d e : Dev} (lost : HostLost d e) : HostLost d { e with qif := qifReset e.qif } := by
  obtain ⟨-, -, -, session, -, -, flights, relWait, tb, rails, guard, groupRel, shank, power, core, muteDue, idle⟩ := lost
  exact ⟨rfl, rfl, rfl, session, rfl, rfl, flights, relWait, tb, rails, guard, groupRel, shank, power, core, muteDue, fun h => ⟨(idle h).1, rfl⟩⟩

theorem HostLost.perst {d e : Dev} (lost : HostLost d e) :
    HostLost d { e with qif := { qifReset e.qif with linkUp := false, cfgReady := false } } := by
  obtain ⟨-, -, -, session, -, -, flights, relWait, tb, rails, guard, groupRel, shank, power, core, muteDue, idle⟩ := lost
  exact ⟨rfl, rfl, rfl, session, rfl, rfl, flights, relWait, tb, rails, guard, groupRel, shank, power, core, muteDue, fun h => ⟨(idle h).1, rfl⟩⟩

/-- It stays lost as the link falls. -/
theorem HostLost.unlinked {d e : Dev} (lost : HostLost d e) : HostLost d { e with qif := { e.qif with linkUp := false } } := by
  obtain ⟨queues, en, rdy, session, waiters, swaits, flights, rest⟩ := lost
  exact ⟨queues, en, rdy, session, waiters, swaits, flights, rest⟩

theorem linkOk_iff (w : BitVec 3) (s : BitVec 4) : linkOk w s = true ↔ (w = 1 ∨ w = 2 ∨ w = 4) ∧ 1 ≤ s.toNat ∧ s.toNat ≤ 4 := decide_eq_true_iff

/-- Settles O57: `hostLoss_lost`, carried through the resets by `HostLost.with_qif`. -/
theorem lossOfHost : Obligations.LossOfHost := by
  intro q d w s lost trained
  obtain ⟨linkUp, cfgReady, aqSq, errCount⟩ := hostLoss_registers d
  obtain ⟨linkUp', cfgReady', aqSq', errCount'⟩ := flr_registers (hostLoss d)
  obtain ⟨linkUp'', aqSq'', errCount''⟩ := linkDown_registers (hostLoss d)
  have same : ∀ u, HostLost d u → lost u := fun _ h => h
  have flr : HostLost d (flrDev d) := (hostLoss_lost d).reset
  have perst : HostLost d (perstDev d) := (hostLoss_lost d).perst
  have down : HostLost d (linkDownDev d) := (hostLoss_lost d).unlinked
  refine ⟨⟨perstDev d, rfl, same _ perst, perst_registers (hostLoss d)⟩,
    ⟨flrDev d, rfl, same _ flr, linkUp'.trans linkUp, cfgReady'.trans cfgReady, aqSq', errCount'⟩,
    ⟨linkDownDev d, rfl, same _ down, linkUp'', aqSq''.trans aqSq, errCount''.trans errCount⟩,
    fun on => ⟨hostLoss d, next_congr (if_pos on), same _ (hostLoss_lost d), linkUp, aqSq⟩,
    fun off => next_congr (if_neg (by rw [off]; exact Bool.false_ne_true)), fun h => next_congr (if_pos ((linkOk_iff w s).2 h)),
    fun h => next_congr (if_neg fun c => h ((linkOk_iff w s).1 c)), rfl⟩

end Sys2Proof.Machine
end

section
/-!
PROOFS. REGISTER_WRITE (R13, R549 to R557): a write over BAR0 by the place of its offset.
-/

namespace Sys2Proof.Machine

/-! ### The parts of BAR0 -/

/-- The offset of an access as the block sees it. -/
theorem offset_toNat (o : Nat) (small : o < 2 ^ 18) : (BitVec.ofNat 18 o).toNat = o := by
  rw [BitVec.toNat_ofNat, Nat.mod_eq_of_lt small]

theorem barWrite_misaligned (d : Dev) (o : Nat) (w : W32) (h : o % 4 ≠ 0) : barWrite d o w = qifErr d 0 3 := if_pos h

section
variable {d : Dev} {o : Nat} {w : W32} (aligned : o % 4 = 0)
include aligned

theorem barWrite_register (low : o < 0x7F00) : barWrite d o w = regWrite d.tick o w (Config.freeBit d.free) :=
  (if_neg (not_not_intro aligned)).trans (if_pos low)

theorem barWrite_gap (past : 0x7F00 ≤ o) (low : o < 0x8000) : barWrite d o w = d :=
  (if_neg (not_not_intro aligned)).trans ((if_neg (by omega)).trans (if_pos low))

theorem barWrite_msix (past : 0x8000 ≤ o) (low : o < 0x10000) : barWrite d o w = msixWrite d (o % 0x8000) w.toNat :=
  (if_neg (not_not_intro aligned)).trans ((if_neg (by omega)).trans ((if_neg (by omega)).trans (if_pos low)))

theorem barWrite_doorbell (past : 0x10000 ≤ o) : barWrite d o w = doorbell d o w :=
  (if_neg (not_not_intro aligned)).trans ((if_neg (by omega)).trans ((if_neg (by omega)).trans (if_neg (by omega))))

end

/-! ### Registers -/

/-- The channel whose register of four bytes stands `4 c` past a multiple of 0x200. -/
theorem chanAt (base : Nat) (c : Ch) (h : base % 0x200 = 0) : Fin.ofNat 128 ((base + 4 * c.val) % 0x200 / 4) = c := by
  refine Fin.ext ?_
  rw [Fin.val_ofNat]
  omega

theorem audioReg_iff (o : Nat) : audioReg o = true ↔ ∃ r ∈ audioRanges, r.1 ≤ o ∧ o < r.2 := by
  rw [audioReg, List.any_eq_true]
  simp only [decide_eq_true_eq]

/-- The registers with a row of their own that every reset domain has lie outside the audio domain. -/
theorem audioReg_apart (o : Nat) (h : audioReg o = true) : 0x1000 ≤ o ∧ o < 0x7F00 ∧ o ≠ 0x5000 := by
  obtain ⟨r, mem, low, high⟩ := (audioReg_iff o).1 h
  have bounds : ∀ r ∈ audioRanges, 0x1000 ≤ r.1 ∧ r.2 ≤ 0x7F00 ∧ (r.2 ≤ 0x5000 ∨ 0x5000 < r.1) := by decide
  obtain ⟨first, last, apart⟩ := bounds r mem
  omega

theorem regWrite_audio (d : Dev) (o : Nat) (w : W32) (late : Bool) (h : audioReg o = true) : regWrite d o w late = audioWrite d o w := by
  obtain ⟨low, high, apart⟩ := audioReg_apart o h
  unfold regWrite
  rw [if_neg (by omega), if_neg (by omega), if_neg (by omega), if_neg apart, if_pos h]

/-- A write over BAR0 to a register of the audio domain. -/
theorem barWrite_audio (d : Dev) (o : Nat) (w : W32) (aligned : o % 4 = 0) (h : audioReg o = true) : barWrite d o w = audioWrite d.tick o w :=
  (barWrite_register aligned (audioReg_apart o h).2.1).trans (regWrite_audio d.tick o w _ h)

theorem audioWrite_closed (d : Dev) (o : Nat) (w : W32) (closed : hostClosed d = true) : audioWrite d o w = d := if_pos closed

section
variable {d : Dev} {w : W32} (open_ : hostClosed d = false)
include open_

theorem audioWrite_event : audioWrite d 0x1008 w = { d with tb := { d.tb with event := d.tb.event &&& ~~~(w.setWidth 5) } } := by
  rw [← BitVec.ofNat_toNat 5 w]
  exact if_neg (Bool.eq_false_iff.1 open_)

theorem audioWrite_snap (one : w.getLsbD 0 = true) :
    audioWrite d 0x1010 w = { d with tb := { d.tb with snapPend := true, snapReady := false } } :=
  (if_neg (Bool.eq_false_iff.1 open_)).trans (if_pos one)

theorem audioWrite_halt (one : w.getLsbD 0 = true) : audioWrite d 0x1100 w = haltDev d :=
  (if_neg (Bool.eq_false_iff.1 open_)).trans (if_pos one)

theorem audioWrite_unhalt (zero : w.getLsbD 0 = false) : audioWrite d 0x1100 w = { d with halt := false } :=
  (if_neg (Bool.eq_false_iff.1 open_)).trans (if_neg (Bool.eq_false_iff.1 zero))

theorem audioWrite_cntClr : audioWrite d 0x1120 w =
    if w.getLsbD 0 then d.chAll fun _ x => { x with mod := { x.mod with collisions := 0 } } else d :=
  if_neg (Bool.eq_false_iff.1 open_)

theorem audioWrite_manEnable (c : Ch) : audioWrite d (0x2400 + 4 * c.val) w = manEnableDev d c w := by
  unfold audioWrite
  dsimp only
  rw [chanAt 0x2400 c rfl, if_neg (Bool.eq_false_iff.1 open_), if_neg (by omega), if_neg (by omega), if_neg (by omega), if_pos (by omega)]

theorem audioWrite_manDuty (c : Ch) : audioWrite d (0x2600 + 4 * c.val) w = manWordDev d.tick c false w (Config.freeBit d.free) := by
  unfold audioWrite
  dsimp only
  rw [chanAt 0x2600 c rfl, if_neg (Bool.eq_false_iff.1 open_), if_neg (by omega), if_neg (by omega), if_neg (by omega),
    if_neg (by omega), if_pos (by omega)]

theorem audioWrite_manPeriod (c : Ch) : audioWrite d (0x2800 + 4 * c.val) w = manWordDev d.tick c true w (Config.freeBit d.free) := by
  unfold audioWrite
  dsimp only
  rw [chanAt 0x2800 c rfl, if_neg (Bool.eq_false_iff.1 open_), if_neg (by omega), if_neg (by omega), if_neg (by omega),
    if_neg (by omega), if_neg (by omega), if_pos (by omega)]

theorem audioWrite_cmp (c : Ch) : audioWrite d (0x2200 + 4 * c.val) w = d.ch c fun x => { x with mod := { x.mod with
    cmpA := w.toNat % 256, auxA := w.getLsbD 15, cmpB := w.toNat / 2 ^ 16 % 256, auxB := w.getLsbD 31 } } := by
  have at_ : (0x2200 + 4 * c.val) % 0x200 / 4 = c.val := by omega
  have row : (0x2200 + 4 * c.val) / 0x200 = 0x11 := by omega
  have field (x : Chan) (rwl : Bool) : writeChan (0x2200 + 4 * c.val) w.toNat rwl x = { x with mod := { x.mod with
      cmpA := w.toNat % 256, auxA := w.getLsbD 15, cmpB := w.toNat / 2 ^ 16 % 256, auxB := w.getLsbD 31 } } := by
    unfold writeChan
    rw [row]
    dsimp only
    rw [bits_low]
    rfl
  unfold audioWrite
  dsimp only
  rw [if_neg (Bool.eq_false_iff.1 open_), if_neg (by omega), if_neg (by omega), if_neg (by omega), if_neg (by omega), if_neg (by omega),
    if_neg (by omega), writeAudio]
  dsimp only
  rw [if_neg (by omega), if_neg (by omega), if_neg (by omega), if_neg (by omega), if_pos (by omega), updN, at_, dif_pos c.isLt]
  exact congrArg (fun y => { d with chs := d.chs.set c.val y }) (field d.chs[c] (rwlOpen d))

end

/-- The doorbells of queue `k` stand at eight bytes each from 0x1_0000 up. -/
theorem doorbellAt (k : QId) (j : Nat) (part : j < 8) : doorbellQueue (0x10000 + j + 8 * k.val) = k := by
  refine Fin.ext ?_
  rw [doorbellQueue, Fin.val_ofNat]
  omega

/-- Settles O54: the parts of BAR0 by `barWrite`, a register of the audio domain by `audioWrite`. -/
theorem registerWrites : Obligations.RegisterWrites := by
  intro q d v o k m c n t write same open_
  have at_ : ∀ (o : Nat) (u : Dev), o < 2 ^ 18 → barWrite d o v = u → write o = .next ⟨q, u⟩ := fun o u small h =>
    next_congr ((congrArg (barWrite d · v) (offset_toNat o small)).trans h)
  have opened : hostClosed d = false → hostClosed t = false := fun h => h
  have audio : ∀ (o : Nat) (u : Dev), o < 2 ^ 18 → o % 4 = 0 → audioReg o = true → audioWrite t o v = u → write o = .next ⟨q, u⟩ :=
    fun o u small aligned reg h => at_ o u small ((barWrite_audio d o v aligned reg).trans h)
  have ranged : ∀ (base : Nat) (c : Ch), (0x2000, 0x3E00) ∈ audioRanges → 0x2000 ≤ base → base + 512 ≤ 0x3E00 → audioReg (base + 4 * c.val) = true :=
    fun base c mem low high => (audioReg_iff _).2 ⟨_, mem, by dsimp only; omega, by dsimp only; omega⟩
  have page : (0x2000, 0x3E00) ∈ audioRanges := by decide
  have off : (0x8000 + 16 * n.val + 12) % 0x8000 = 16 * n.val + 12 := by omega
  have entry : (16 * n.val + 12) / 16 = n.val := by omega
  refine ⟨at_ 0x0104 _ (by decide) ?_, fun one => at_ 0x5000 _ (by decide) ?_, fun zero => at_ 0x5000 _ (by decide) ?_,
    at_ _ _ (by omega) ?_, at_ 0x0804 _ (by decide) rfl, ⟨Config.freeBit d.free, at_ 0x0108 _ (by decide) rfl⟩,
    fun h => audio 0x1008 _ (by decide) rfl rfl (audioWrite_event (opened h)), fun h one => audio 0x1010 _ (by decide) rfl rfl ?_,
    fun h one jtag => audio 0x1100 _ (by decide) rfl rfl (audioWrite_halt (opened h) one),
    fun h zero => audio 0x1100 _ (by decide) rfl rfl (audioWrite_unhalt (opened h) zero), fun h => audio 0x1120 _ (by decide) rfl rfl ?_,
    fun h => audio _ _ (by omega) (by omega) (ranged 0x2400 c page (by decide) (by decide)) (audioWrite_manEnable (opened h) c),
    fun h => ⟨Config.freeBit (d.free + 1),
      audio _ _ (by omega) (by omega) (ranged 0x2600 c page (by decide) (by decide)) (audioWrite_manDuty (opened h) c),
      audio _ _ (by omega) (by omega) (ranged 0x2800 c page (by decide) (by decide)) (audioWrite_manPeriod (opened h) c)⟩,
    fun h => audio _ _ (by omega) (by omega) (ranged 0x2200 c page (by decide) (by decide)) (audioWrite_cmp (opened h) c),
    fun closed reg aligned => next_congr ((barWrite_audio d _ v aligned reg).trans (audioWrite_closed _ _ v closed)),
    fun odd => next_congr ((barWrite_misaligned d _ v odd).trans (if_neg (by decide)).symm),
    fun low aligned => ⟨Config.freeBit d.free, next_congr (barWrite_register aligned low)⟩,
    fun past low aligned => next_congr (barWrite_gap aligned past low), fun zero => at_ _ _ (by omega) ?_, fun one => at_ _ _ (by omega) ?_,
    fun past aligned => next_congr ((barWrite_doorbell aligned (by omega)).trans (if_pos past)), at_ _ _ (by omega) ?_, at_ _ _ (by omega) ?_⟩
  · refine (barWrite_register rfl (by decide)).trans ?_
    rw [← BitVec.ofNat_toNat 16 v]
    rfl
  · exact (barWrite_register rfl (by decide)).trans (if_pos one)
  · exact (barWrite_register rfl (by decide)).trans (if_neg (Bool.eq_false_iff.1 zero))
  · refine (barWrite_register (by omega) (by omega)).trans ((if_pos (by omega)).trans ?_)
    have mask : Fin.ofNat 4 ((0x0120 + 4 * m.val - 0x0120) / 4) = m := by
      refine Fin.ext ?_
      rw [Fin.val_ofNat]
      omega
    rw [mask]
    rfl
  · refine (audioWrite_snap (opened h) one).trans (if_neg ?_).symm
    rw [(Bool.or_eq_false_iff.1 h).1]
    exact Bool.false_ne_true
  · refine (audioWrite_cntClr (opened h)).trans ?_
    have run : t.guard.audioReset = false := (Bool.or_eq_false_iff.1 h).1
    dsimp only
    rw [run, Bool.not_false, Bool.and_true]
  · rw [barWrite_msix (by omega) (by omega) (by omega), off]
    refine (if_pos (by omega)).trans ((if_neg (Bool.eq_false_iff.1 zero)).trans ?_)
    rw [entry]
    rfl
  · rw [barWrite_msix (by omega) (by omega) (by omega), off]
    refine (if_pos (by omega)).trans ((if_pos one).trans ?_)
    rw [entry]
  · refine (barWrite_doorbell (by omega) (by omega)).trans ((if_neg (by omega)).trans ((if_pos (by omega)).trans ?_))
    rw [doorbellAt k 0 (by decide)]
  · refine (barWrite_doorbell (by omega) (by omega)).trans ((if_neg (by omega)).trans ((if_neg (by omega)).trans ?_))
    rw [doorbellAt k 4 (by decide)]

end Sys2Proof.Machine
end

section
/-!
PROOFS. The SMBus and JTAG ports (R541 to R545).
-/

namespace Sys2Proof.Machine

/-! ### Transactions -/

/-- A transaction with a right PEC that a ready guard domain takes. -/
theorem smbTake_on (q : List Instr) (d : Dev) (f : Dev → Dev) (ready : d.guard.ready = true) : smbTake true f ⟨q, d⟩ = .next ⟨q, f d⟩ :=
  next_congr (if_pos (by rw [ready]; rfl))

section
variable {q : List Instr} {d u : Dev} (ready : d.guard.ready = true)
include ready

theorem setPtr_taken (v : BitVec 16) (h : setPtrDev d v.toNat = u) : exec (.setPtr v true) ⟨q, d⟩ = .next ⟨q, u⟩ :=
  (smbTake_on q d (setPtrDev · v.toNat) ready).trans (next_congr h)

theorem setHist_taken (b : Byte) (h : setHistDev d b.toNat = u) : exec (.setHist b true) ⟨q, d⟩ = .next ⟨q, u⟩ :=
  (smbTake_on q d (setHistDev · b.toNat) ready).trans (next_congr h)

theorem smbRead_taken (a : Bool) (h : smbReadDev d a = u) : exec (.smbRead a true) ⟨q, d⟩ = .next ⟨q, u⟩ :=
  (smbTake_on q d (smbReadDev · a) ready).trans (next_congr h)

theorem smbWrite_taken (w : W32) (late : Bool) (h : smbWriteDev d w late = u) : exec (.smbWrite w late true) ⟨q, d⟩ = .next ⟨q, u⟩ :=
  (smbTake_on q d (smbWriteDev · w late) ready).trans (next_congr h)

theorem hist_taken (h : histDev d = u) : exec (.hist true) ⟨q, d⟩ = .next ⟨q, u⟩ := (smbTake_on q d histDev ready).trans (next_congr h)

end

theorem smbTake_off (q : List Instr) (d : Dev) (pec : Bool) (f : Dev → Dev) (no : d.guard.ready = false ∨ pec = false) :
    smbTake pec f ⟨q, d⟩ = .next ⟨q, d⟩ := by
  refine next_congr (if_neg fun h => ?_)
  obtain ⟨ready, right⟩ := Bool.and_eq_true_iff.1 h
  exact no.elim (fun c => Bool.noConfusion (c.symm.trans ready)) (fun c => Bool.noConfusion (c.symm.trans right))

theorem setPtrDev_legal (d : Dev) (v : Nat) (h : v % 4 = 0 ∧ v < 0x7F00) : setPtrDev d v = { d with guard := { d.guard with smbPtr := v } } := if_pos h

theorem setPtrDev_other (d : Dev) (v : Nat) (h : ¬(v % 4 = 0 ∧ v < 0x7F00)) :
    setPtrDev d v = { d with guard := { d.guard with smbPtr := 4 * (Config.freeNat d.free % 8128) }, free := d.free + 1 } := if_neg h

theorem setHistDev_legal (d : Dev) (v : Nat) (h : v < 64) : setHistDev d v = { d with guard := { d.guard with smbHist := v } } := if_pos h

theorem setHistDev_other (d : Dev) (v : Nat) (h : ¬v < 64) :
    setHistDev d v = { d with guard := { d.guard with smbHist := Config.freeNat d.free % 64 }, free := d.free + 1 } := if_neg h

theorem smbServes_iff (d : Dev) : smbServes d = true ↔ d.guard.audioReset = false ∧ ¬(d.growth.member = 0 ∧ d.growth.growth = 2) := by
  have stopped : d.growth = ⟨0, 2, d.growth.step⟩ ↔ d.growth.member = 0 ∧ d.growth.growth = 2 := by
    refine ⟨fun h => ⟨congrArg Growth.member h, congrArg Growth.growth h⟩, fun ⟨member, growth⟩ => ?_⟩
    obtain ⟨m, g, s⟩ : ∃ m g s, d.growth = ⟨m, g, s⟩ := ⟨_, _, _, rfl⟩
    rw [show d.growth = ⟨d.growth.member, d.growth.growth, d.growth.step⟩ from rfl, member, growth]
  rw [smbServes, Bool.and_eq_true, Bool.not_eq_true', Bool.not_eq_true', decide_eq_false_iff_not, stopped]

/-! ### READ and WRITE -/

theorem smbReadDev_guard (d : Dev) (a : Bool) (low : d.guard.smbPtr < 0x1000) : smbReadDev d a = { d with guard := { d.guard with
    smbOut := le 4 ((readGuard d d.guard.smbPtr).getD 0), smbPtr := (d.guard.smbPtr + 4) % 2 ^ 16, smbNotServed := false } } := if_pos low

theorem smbReadDev_past (d : Dev) (a : Bool) (past : 0x7F00 ≤ d.guard.smbPtr) : smbReadDev d a = { d with
    guard := { d.guard with
      smbOut := le 4 (Config.freeNat d.free % 2 ^ 32), smbPtr := (d.guard.smbPtr + 4) % 2 ^ 16, smbNotServed := false }
    free := d.free + 1 } :=
  (if_neg (by omega)).trans (if_pos past)

section
variable {d : Dev} {a : Bool} (low : 0x1000 ≤ d.guard.smbPtr) (high : d.guard.smbPtr < 0x7F00)
include low high

theorem smbReadDev_served (h : a = true ∧ smbServes d = true) : smbReadDev d a = { d with guard := { d.guard with
    smbOut := le 4 (readReg d d.guard.smbPtr), smbPtr := (d.guard.smbPtr + 4) % 2 ^ 16, smbNotServed := false } } :=
  (if_neg (by omega)).trans ((if_neg (by omega)).trans (if_pos (Bool.and_eq_true_iff.2 h)))

theorem smbReadDev_silent (h : ¬(a = true ∧ smbServes d = true)) : smbReadDev d a = { d with guard := { d.guard with
    smbOut := le 4 0xFFFFFFFF, smbPtr := (d.guard.smbPtr + 4) % 2 ^ 16, smbNotServed := true } } :=
  (if_neg (by omega)).trans ((if_neg (by omega)).trans (if_neg fun c => h (Bool.and_eq_true_iff.1 c)))

end

theorem smbWriteDev_other (d : Dev) (w : W32) (late : Bool) (h : smbWritable d.guard.smbPtr = false) :
    smbWriteDev d w late = { d with guard := { d.guard with smbPtr := (d.guard.smbPtr + 4) % 2 ^ 16, smbIgnored := true } } := by
  unfold smbWriteDev
  dsimp only
  rw [h]
  rfl

theorem smbWriteDev_reaches (d : Dev) (w : W32) (late : Bool) (h : smbWritable d.guard.smbPtr = true) : smbWriteDev d w late =
    { regWrite d d.guard.smbPtr w late with guard := { (regWrite d d.guard.smbPtr w late).guard with
        smbPtr := (d.guard.smbPtr + 4) % 2 ^ 16, smbIgnored := false } } := by
  unfold smbWriteDev
  dsimp only
  rw [h]
  rfl

theorem regWrite_event (d : Dev) (w : W32) (late : Bool) :
    regWrite d 0x0104 w late = { d with guard := { d.guard with event := d.guard.event &&& ~~~(w.setWidth 16) } } := by
  rw [← BitVec.ofNat_toNat 16 w]
  rfl

/-- A write that reaches a register, by the pointer. -/
theorem smbWriteDev_at (d : Dev) (w : W32) (late : Bool) (p : Nat) (ptr : d.guard.smbPtr = p) (h : smbWritable p = true) : smbWriteDev d w late =
    { regWrite d p w late with guard := { (regWrite d p w late).guard with smbPtr := (p + 4) % 2 ^ 16, smbIgnored := false } } := by
  subst ptr
  exact smbWriteDev_reaches d w late h

theorem smbWriteDev_event (d : Dev) (w : W32) (late : Bool) (ptr : d.guard.smbPtr = 0x0104) : smbWriteDev d w late =
    { d with guard := { d.guard with event := d.guard.event &&& ~~~(w.setWidth 16), smbPtr := 0x0108, smbIgnored := false } } :=
  (smbWriteDev_at d w late 0x0104 ptr rfl).trans
    (congrArg (fun u : Dev => { u with guard := { u.guard with smbPtr := 0x0108, smbIgnored := false } }) (regWrite_event d w late))

/-! ### HIST, STATUS and the alert response -/

theorem histDev_held (d : Dev) (h : HistRec) (held : d.guard.history[d.guard.smbHist]? = some h) :
    histDev d = { d with guard := { d.guard with smbOut := histBytes h, smbHist := (d.guard.smbHist + 1) % 256 } } := by
  unfold histDev
  dsimp only
  rw [held]
  rfl

/-- The free bytes that HIST answers where no record is held. -/
def freeBytes (k n : Nat) : List Byte := (List.range n).map fun j => BitVec.ofNat 8 (Config.freeNat (k + j))

theorem histDev_empty (d : Dev) (none_ : d.guard.history[d.guard.smbHist]? = none) : histDev d = { d with
    guard := { d.guard with smbOut := freeBytes d.free 16, smbHist := (d.guard.smbHist + 1) % 256 }, free := d.free + 16 } := by
  unfold histDev
  dsimp only
  rw [none_]
  rfl

/-- The three bits of STATUS. -/
theorem status_bits (a b c : Bool) : (packBits [a, b, c]).testBit 0 = a ∧ (packBits [a, b, c]).testBit 1 = b ∧ (packBits [a, b, c]).testBit 2 = c := by
  cases a <;> cases b <;> cases c <;> decide

theorem alertDev_answers (d : Dev) (ready : d.guard.ready = true) (alert : d.guard.smbAlert = true) : alertDev d = { d with
    guard := { d.guard with smbAlert := false, smbOut := le 1 (2 * (0x58 + d.guard.smbAddr.toNat) + b2n (Config.freeBit d.free)) }
    free := d.free + 1 } :=
  if_pos (Bool.and_eq_true_iff.2 ⟨ready, alert⟩)

theorem jtagDev_eq (d : Dev) (i : JtagInstr) (offers : Bool) (h : jtagOffers d i = offers) :
    jtagDev d i = { d with guard := { d.guard with jtag := if offers then i else .bypass, jtagRefused := !offers } } := by
  unfold jtagDev
  rw [h]
  rfl

/-- Settles O60: each transaction by the equation of its part, taken where `smbTake_on` lets it in. -/
theorem servicePorts : Obligations.ServicePorts := by
  intro q d v b w a late pec h i g o nx served writable put
  have within : smbWritable o = true ↔ o ∈ writable := List.contains_iff_mem
  have answers : a = true ∧ smbServes d = true ↔ served := and_congr_right fun _ => smbServes_iff d
  refine ⟨fun ready => ?_, fun no => ?_, fun no => ?_, fun yes => next_congr (jtagDev_eq d i true yes), fun no => next_congr (jtagDev_eq d i false no),
    ?_, Iff.rfl, Iff.rfl, ?_⟩
  · refine ⟨fun aligned low => setPtr_taken ready v (setPtrDev_legal d _ ⟨aligned, low⟩), ?_,
      fun low => setHist_taken ready b (setHistDev_legal d _ low), ?_, fun low => smbRead_taken ready a (smbReadDev_guard d a low),
      fun low high silent => smbRead_taken ready a (smbReadDev_silent low high fun c => silent (answers.1 c)),
      fun low high serves => smbRead_taken ready a (smbReadDev_served low high (answers.2 serves)),
      fun past => ⟨_, smbRead_taken ready a (smbReadDev_past d a past)⟩,
      fun out => smbWrite_taken ready w late (smbWriteDev_other d w late (Bool.eq_false_iff.2 fun c => out (within.1 c))),
      fun mem => ⟨_, smbWrite_taken ready w late rfl, smbWriteDev_reaches d w late (within.2 mem)⟩, fun event => smbWrite_taken ready w late ?_,
      fun held => hist_taken ready (histDev_held d h held), fun none_ => ⟨freeBytes d.free 16, hist_taken ready (histDev_empty d none_), rfl⟩, ?_,
      fun alert => ⟨_, next_congr (alertDev_answers d ready alert), ?_⟩⟩
    · by_cases legal : v.toNat % 4 = 0 ∧ v.toNat < 0x7F00
      · rw [if_pos legal]
        exact ⟨v.toNat, setPtr_taken ready v (setPtrDev_legal d _ legal), legal.1, legal.2⟩
      · rw [if_neg legal]
        exact ⟨4 * (Config.freeNat d.free % 8128), setPtr_taken ready v (setPtrDev_other d _ legal), by omega, by omega⟩
    · by_cases legal : b.toNat < 64
      · rw [if_pos legal]
        exact ⟨b.toNat, setHist_taken ready b (setHistDev_legal d _ legal), legal⟩
      · rw [if_neg legal]
        exact ⟨Config.freeNat d.free % 64, setHist_taken ready b (setHistDev_other d _ legal), by omega⟩
    · exact smbWriteDev_event d w late event
    · obtain ⟨serves, ignored, notServed⟩ := status_bits (smbServes d) g.smbIgnored g.smbNotServed
      exact ⟨packBits [smbServes d, g.smbIgnored, g.smbNotServed], smbTake_on q d smbStatusDev ready, ignored, notServed,
        by rw [serves]; exact smbServes_iff d⟩
    · cases Config.freeBit d.free
      · show (2 * (0x58 + g.smbAddr.toNat) + 0) / 2 = _
        omega
      · show (2 * (0x58 + g.smbAddr.toNat) + 1) / 2 = _
        omega
  · refine next_congr (if_neg fun c => ?_)
    obtain ⟨ready, alert⟩ := Bool.and_eq_true_iff.1 c
    exact no.elim (fun e => Bool.noConfusion (e.symm.trans ready)) (fun e => Bool.noConfusion (e.symm.trans alert))
  · intro c hc
    simp only [List.mem_cons, List.not_mem_nil, or_false] at hc
    obtain rfl | rfl | rfl | rfl | rfl | rfl := hc
    · exact smbTake_off q d pec (setPtrDev · v.toNat) no
    · exact smbTake_off q d pec (setHistDev · b.toNat) no
    · exact smbTake_off q d pec (smbReadDev · a) no
    · exact smbTake_off q d pec (smbWriteDev · w late) no
    · exact smbTake_off q d pec histDev no
    · exact smbTake_off q d pec smbStatusDev no
  · exact iff_of_eq (Bool.not_eq_true' _)
  · intro j hj
    simp only [List.mem_cons, List.not_mem_nil, or_false] at hj
    obtain rfl | rfl | rfl := hj
    · rfl
    · rfl
    · rfl

end Sys2Proof.Machine
end

section
/-!
PROOFS. Captures and telemetry read back (R410, R413, R414), and the staging buffers of the stewards (R444, R446, R483).
-/

namespace Sys2Proof.Machine

/-! ### CAPTURE_READ and TELEMETRY_READ -/

theorem doCaptureRead_bad (d : Dev) (r : CmdRef) (k : Fin 16) (start : Nat) (bad : ¬(8 ≤ r.len ∧ r.len % 8 = 0)) :
    doCaptureRead d r k start = refuse d r opCapture stField := if_pos (by omega)

theorem doCaptureRead_closed (d : Dev) (r : CmdRef) (k : Fin 16) (start : Nat) (grid : 8 ≤ r.len ∧ r.len % 8 = 0) (closed : hostClosed d = true) :
    doCaptureRead d r k start = refuse d r opCapture stNotReady := (if_neg (by omega)).trans (if_pos closed)

theorem doCaptureRead_open (d : Dev) (r : CmdRef) (k : Fin 16) (start : Nat) (grid : 8 ≤ r.len ∧ r.len % 8 = 0) (open_ : hostClosed d = false) :
    let es := (d.awl.caps[k].entries.drop (max start d.awl.caps[k].first - d.awl.caps[k].first)).take (r.len / 8)
    doCaptureRead d r k start = complete (hostWrite { d with free := d.free + 1 } r (es.flatMap capBytes)) r opCapture stSuccess
      (if es = [] then Config.freeNat d.free else max start d.awl.caps[k].first) es.length :=
  (if_neg (by omega)).trans (if_neg (Bool.eq_false_iff.1 open_))

/-- The window of registers that a TELEMETRY_READ names, with room for it in the buffer. -/
def TelemetryWindow (r : CmdRef) (o n : Nat) : Prop := o % 4 = 0 ∧ 1 ≤ n ∧ n ≤ 8128 ∧ o + 4 * n ≤ 0x7F00 ∧ 16 + 4 * n ≤ r.len

theorem doTelemetry_bad (d : Dev) (r : CmdRef) (o n : Nat) (bad : ¬TelemetryWindow r o n) : doTelemetry d r o n = refuse d r opTelemetry stField := by
  refine if_pos ?_
  unfold TelemetryWindow at bad
  omega

section
variable {d : Dev} {r : CmdRef} {o n : Nat} (window : TelemetryWindow r o n)
include window

theorem doTelemetry_window (u v : Dev) :
    (if o % 4 ≠ 0 ∨ 0x7F00 ≤ o ∨ n < 1 ∨ 8128 < n ∨ 0x7F00 < o + 4 * n ∨ r.len < 16 + 4 * n then u else v) = v := by
  refine if_neg ?_
  unfold TelemetryWindow at window
  omega

theorem doTelemetry_closed (closed : hostClosed d = true) : doTelemetry d r o n = refuse d r opTelemetry stNotReady :=
  (doTelemetry_window window _ _).trans (if_pos closed)

theorem doTelemetry_open (open_ : hostClosed d = false) : doTelemetry d r o n = completeAt (hostWrite d r (le 8 d.tb.stc ++ le 4 o ++ le 4 n ++
    (List.range n).flatMap fun k => le 4 (readReg d (o + 4 * k)))) r opTelemetry stSuccess d.tb.stc :=
  (doTelemetry_window window _ _).trans (if_neg (Bool.eq_false_iff.1 open_))

end

/-- Settles O41: CAPTURE_READ and TELEMETRY_READ by their checks. -/
theorem captureAndTelemetryRead : Obligations.CaptureAndTelemetryRead := by
  intro q d r k start o n c es grid window
  refine ⟨fun open_ fits => ⟨_, fun some_ => ?_, next_congr (doCaptureRead_open d r k start fits open_)⟩,
    fun bad => next_congr (doCaptureRead_bad d r k start bad), fun open_ fits => next_congr (doTelemetry_open fits open_),
    fun bad => next_congr (doTelemetry_bad d r o n bad), fun closed fits => next_congr (doCaptureRead_closed d r k start fits closed),
    fun closed fits => next_congr (doTelemetry_closed fits closed)⟩
  exact if_neg some_

/-! ### Staging buffers -/

/-- A buffer with the chunk put at `o`: at 0 it starts anew. -/
def staged (buf : List Byte) (o : Nat) (chunk : List Byte) : List Byte := if o = 0 then chunk else buf ++ chunk

/-- Whether a chunk goes on where the buffer ends, or starts it anew, and fits it (R444). -/
def Fits (buf : List Byte) (o : Nat) (chunk : List Byte) : Prop := (o = 0 ∨ o = buf.length) ∧ (staged buf o chunk).length ≤ 4194304

theorem addChunk_fits (buf : List Byte) (o : Nat) (chunk : List Byte) (fits : Fits buf o chunk) : addChunk buf o chunk = some (staged buf o chunk) := by
  obtain ⟨place, room⟩ := fits
  unfold addChunk
  unfold staged at *
  by_cases zero : o = 0
  · rw [if_pos zero] at room ⊢
    subst zero
    exact if_neg fun h => h.elim (· rfl) (by rw [bufSize]; omega)
  · rw [if_neg zero] at room ⊢
    have end_ := place.resolve_left zero
    dsimp only
    rw [if_neg zero]
    rw [List.length_append] at room
    exact if_neg fun h => h.elim (· end_) (by rw [bufSize]; omega)

theorem addChunk_misfit (buf : List Byte) (o : Nat) (chunk : List Byte) (misfit : ¬Fits buf o chunk) : addChunk buf o chunk = none := by
  unfold Fits staged at misfit
  unfold addChunk
  refine if_pos ?_
  by_cases zero : o = 0
  · rw [if_pos zero] at misfit
    subst zero
    right
    rw [bufSize]
    exact Nat.lt_of_not_le fun h => misfit ⟨.inl rfl, by omega⟩
  · rw [if_neg zero, List.length_append] at misfit
    rw [if_neg zero, bufSize]
    by_cases end_ : o = buf.length
    · exact .inr (Nat.lt_of_not_le fun room => misfit ⟨.inr end_, by omega⟩)
    · exact .inl end_

section
variable {d : Dev} {r : CmdRef} {o : Nat} {chunk : List Byte}

theorem doDownload_fits (fits : Fits d.admin.fwBuf o chunk) : doDownload d r o chunk =
    complete { d with admin := { d.admin with fwBuf := staged d.admin.fwBuf o chunk } } r opFwDownload stSuccess
      (staged d.admin.fwBuf o chunk).length 0 := by
  unfold doDownload
  rw [addChunk_fits _ _ _ fits]

theorem doDownload_misfit (misfit : ¬Fits d.admin.fwBuf o chunk) : doDownload d r o chunk = refuse d r opFwDownload stField := by
  unfold doDownload
  rw [addChunk_misfit _ _ _ misfit]

theorem doImageLoad_misfit (k : Fin 4) (fin : Bool) (misfit : ¬Fits d.admin.imgBuf o chunk) :
    doImageLoad d r k fin o chunk = refuse d r opImageLoad stField := by
  unfold doImageLoad
  rw [addChunk_misfit _ _ _ misfit]

theorem doImageLoad_part (k : Fin 4) (fits : Fits d.admin.imgBuf o chunk) : doImageLoad d r k false o chunk =
    complete { d with admin := { d.admin with imgBuf := staged d.admin.imgBuf o chunk } } r opImageLoad stSuccess
      (staged d.admin.imgBuf o chunk).length 0 := by
  unfold doImageLoad
  rw [addChunk_fits _ _ _ fits]
  rfl

theorem doImageLoad_final (k : Fin 4) (fits : Fits d.admin.imgBuf o chunk) : doImageLoad d r k true o chunk =
    match loadCheck d k.val (staged d.admin.imgBuf o chunk) with
    | some i => mismatchAt { d with admin := { d.admin with imgBuf := [] } } r opImageLoad i
    | none => nvCommand { d with admin := { d.admin with imgBuf := [] } } r opImageLoad (.image r k.val (staged d.admin.imgBuf o chunk)) := by
  unfold doImageLoad
  rw [addChunk_fits _ _ _ fits]
  rfl

end

theorem nvCommand_open (d : Dev) (r : CmdRef) (op : Nat) (j : NvJob) (window : nvOpen d = true) :
    nvCommand d r op j = { d with admin := { d.admin with nv := d.admin.nv ++ [j] } } := if_pos window

theorem nvCommand_closed (d : Dev) (r : CmdRef) (op : Nat) (j : NvJob) (window : nvOpen d = false) :
    nvCommand d r op j = refuse (setThm d 6) r op 7 := if_neg (Bool.eq_false_iff.1 window)

/-- Settles O37: a chunk by `addChunk_fits`, the last one of an image by its check and the write window. -/
theorem stagingBuffers : Obligations.StagingBuffers := by
  intro q d r k o chunk admin open_ next fits b m last empty
  have here : ∀ (op : Nat) (f u : Dev), f = u → adminOpen d r op f = u := fun op f u h => (adminOpen_here d op f admin open_).trans h
  refine ⟨fun h => next_congr (here _ _ _ (doDownload_fits h)), fun h => next_congr (here _ _ _ (doDownload_misfit h)),
    fun h => next_congr (here _ _ _ (doImageLoad_part k h)), fun h passes window => next_congr (here _ _ _ ?_),
    fun h passes window => next_congr (here _ _ _ ?_), fun i h fails => next_congr (here _ _ _ ?_),
    fun fin h => next_congr (here _ _ _ (doImageLoad_misfit k fin h))⟩
  · rw [doImageLoad_final k h, show loadCheck d k.val (staged d.admin.imgBuf o chunk) = none from passes]
    exact nvCommand_open empty r _ _ window
  · rw [doImageLoad_final k h, show loadCheck d k.val (staged d.admin.imgBuf o chunk) = none from passes]
    exact nvCommand_closed empty r _ _ window
  · rw [doImageLoad_final k h, show loadCheck d k.val (staged d.admin.imgBuf o chunk) = some i from fails]
    rfl

end Sys2Proof.Machine
end

section
/-!
PROOFS. IMAGE_ACTIVATE and the marks for automatic load (R92, R403, R453), firmware and its activation (R445 to R452), and the writes to
the non-volatile store (R446).
-/

namespace Sys2Proof.Machine

/-! ### The checks of IMAGE_ACTIVATE -/

/-- Whether B has passed where the stewards start an IMAGE_ACTIVATE (R92, R450). -/
def PastB (d : Dev) (r : CmdRef) (w : When) : Prop := ∃ b : Nat, w = .stc b ∧ b < max (nextStc d) (fetchedAt d r + 4800)

/-- Whether a MARK meets a closed write window at the fetch (R483). -/
def MarkClosed (d : Dev) (r : CmdRef) (mark : Bool) : Prop := mark = true ∧ flightOf d r = none ∧ nvOpen d = false

/-- Whether a timed command finds no place in the cue store (R406). -/
def CuesFull (d : Dev) (r : CmdRef) (w : When) : Prop := w ≠ .untimed ∧ flightOf d r = none ∧ 65536 ≤ cuesUsed d

/-- The model's test of `PastB`. -/
def pastB (d : Dev) (r : CmdRef) (w : When) : Bool :=
  match w with | .stc b => decide (b < max (nextStc d) (fetchedAt d r + 4800)) | _ => false

theorem pastB_iff (d : Dev) (r : CmdRef) (w : When) : pastB d r w = true ↔ PastB d r w := by
  unfold pastB PastB
  cases w with
  | stc b => simp
  | untimed => simp
  | frame m o => simp

theorem flightOf_isSome (d : Dev) (r : CmdRef) : (!(flightOf d r).isSome) = true ↔ flightOf d r = none := by
  rw [Bool.not_eq_true', Option.isSome_eq_false_iff, Option.isNone_iff_eq_none]

theorem markClosed_iff (d : Dev) (r : CmdRef) (mark : Bool) : (mark && !(flightOf d r).isSome && !nvOpen d) = true ↔ MarkClosed d r mark := by
  rw [Bool.and_eq_true, Bool.and_eq_true, flightOf_isSome, Bool.not_eq_true', and_assoc]
  exact Iff.rfl

theorem cuesFull_iff (d : Dev) (r : CmdRef) (w : When) :
    (decide (w ≠ .untimed) && !(flightOf d r).isSome && decide (65536 ≤ cuesUsed d)) = true ↔ CuesFull d r w := by
  rw [Bool.and_eq_true, Bool.and_eq_true, flightOf_isSome, decide_eq_true_eq, decide_eq_true_eq, and_assoc]
  exact Iff.rfl

section
variable {d : Dev} {r : CmdRef} {cmd : Instr} {k : Fin 4} {t : When} {late mark : Bool} (open_ : hostClosed d = false)
include open_

theorem doActivate_empty (empty : d.admin.img[k].valid = false) : doActivate d r cmd k t late mark = refuse d r opImageActivate stField :=
  (if_neg (Bool.eq_false_iff.1 open_)).trans (if_pos (by rw [empty]; rfl))

variable (valid : d.admin.img[k].valid = true)
include valid

theorem doActivate_closed (closed : MarkClosed d r mark) : doActivate d r cmd k t late mark = tempRefuse d r opImageActivate :=
  (if_neg (Bool.eq_false_iff.1 open_)).trans ((if_neg (by rw [valid]; exact Bool.false_ne_true)).trans (if_pos ((markClosed_iff d r mark).2 closed)))

variable (window : ¬MarkClosed d r mark)
include window

theorem doActivate_full (full : CuesFull d r (resolveWhen d t)) : doActivate d r cmd k t late mark = refuse d r opImageActivate stNotReady :=
  (if_neg (Bool.eq_false_iff.1 open_)).trans ((if_neg (by rw [valid]; exact Bool.false_ne_true)).trans
    ((if_neg fun c => window ((markClosed_iff d r mark).1 c)).trans (if_pos ((cuesFull_iff d r _).2 full))))

variable (room : ¬CuesFull d r (resolveWhen d t))
include room

theorem doActivate_late (past : PastB d r (resolveWhen d t)) (strict : late = false) :
    doActivate d r cmd k t late mark = refuse d r opImageActivate stLate :=
  (if_neg (Bool.eq_false_iff.1 open_)).trans ((if_neg (by rw [valid]; exact Bool.false_ne_true)).trans
    ((if_neg fun c => window ((markClosed_iff d r mark).1 c)).trans ((if_neg fun c => room ((cuesFull_iff d r _).1 c)).trans
      (if_pos (Bool.and_eq_true_iff.2 ⟨(pastB_iff d r _).2 past, by rw [strict]; rfl⟩)))))

end

/-- The entry of an activation as the stewards stage it: one that is late is untimed. -/
def stagedFlight (d : Dev) (r : CmdRef) (cmd : Instr) (w : When) (late : Bool) : Flight :=
  if pastB d r w then placeFlight d r opImageActivate cmd .untimed late .started else placeFlight d r opImageActivate cmd w late .started

/-- An activation staged from its entry. -/
def activationStaged (d : Dev) (r : CmdRef) (f : Flight) (a : Activation) : Dev :=
  let e := (addFlight d f).flight r fun g => { g with prog := f.prog, at_ := f.at_, timed := f.timed, frame := f.frame, offset := f.offset }
  { e with core := { e.core with act := some a } }

theorem doActivate_checked (d : Dev) (r : CmdRef) (cmd : Instr) (k : Fin 4) (t : When) (late mark : Bool) (open_ : hostClosed d = false)
    (valid : d.admin.img[k].valid = true) (window : ¬MarkClosed d r mark) (room : ¬CuesFull d r (resolveWhen d t))
    (on : PastB d r (resolveWhen d t) → late = true) : doActivate d r cmd k t late mark =
      match checkSlot d d.admin.img[k] with
      | .error i => mismatchAt d r opImageActivate i
      | .ok img => activationStaged d r (stagedFlight d r cmd (resolveWhen d t) late) ⟨some r, fetchedAt d r, k.val, img, .staging, 0, mark⟩ := by
  refine (if_neg (Bool.eq_false_iff.1 open_)).trans ((if_neg (by rw [valid]; exact Bool.false_ne_true)).trans
    ((if_neg fun c => window ((markClosed_iff d r mark).1 c)).trans ((if_neg fun c => room ((cuesFull_iff d r _).1 c)).trans
      ((if_neg fun c => ?_).trans ?_))))
  · obtain ⟨past, strict⟩ := Bool.and_eq_true_iff.1 c
    rw [on ((pastB_iff d r _).1 past)] at strict
    exact Bool.noConfusion strict
  · rfl

theorem addFlight_known (d : Dev) (f : Flight) (known : flightOf d f.ref ≠ none) : addFlight d f = d :=
  if_pos (Option.isSome_iff_ne_none.2 known)

theorem addFlight_new (d : Dev) (f : Flight) (new : flightOf d f.ref = none) : addFlight d f =
    { d with qif := { d.qif with
      flights := d.qif.flights ++ [{ f with order := d.qif.order, fetched := nextStc d }], order := d.qif.order + 1 } } :=
  if_neg (by rw [new]; exact Bool.false_ne_true)

theorem sameRef_refl (r : CmdRef) : sameRef r r = true := (sameRef_iff r r).2 ⟨rfl, rfl, rfl⟩

/-- An entry of the command stands in the journal once it is added. -/
theorem addFlight_mem (d : Dev) (f : Flight) : ∃ g ∈ (addFlight d f).qif.flights, sameRef g.ref f.ref = true := by
  cases known : flightOf d f.ref with
  | none =>
    rw [addFlight_new d f known]
    exact ⟨_, List.mem_append_right _ (List.mem_singleton_self _), sameRef_refl _⟩
  | some g =>
    rw [addFlight_known d f (by rw [known]; exact Option.some_ne_none g)]
    exact ⟨g, List.mem_of_find?_eq_some known, List.find?_some (p := fun x : Flight => sameRef x.ref f.ref) known⟩

theorem addFlight_rest (d : Dev) (f : Flight) : addFlight d f = { d with qif := (addFlight d f).qif } ∧ (addFlight d f).qif.outbox = d.qif.outbox := by
  unfold addFlight
  split
  · exact ⟨rfl, rfl⟩
  · exact ⟨rfl, rfl⟩

theorem activationStaged_parts (d : Dev) (r : CmdRef) (f : Flight) (a : Activation) (own : f.ref = r) :
    let u := activationStaged d r f a
    u = { d with qif := u.qif, core := { d.core with act := some a } } ∧ u.qif.outbox = d.qif.outbox ∧
      ∃ g ∈ u.qif.flights, sameRef g.ref r = true ∧ g.prog = f.prog ∧ g.at_ = f.at_ ∧ g.timed = f.timed ∧ g.frame = f.frame ∧ g.offset = f.offset := by
  obtain ⟨rest, outbox⟩ := addFlight_rest d f
  obtain ⟨g, mem, same⟩ := addFlight_mem d f
  rw [own] at same
  refine ⟨?_, outbox, { g with prog := f.prog, at_ := f.at_, timed := f.timed, frame := f.frame, offset := f.offset }, ?_, same, rfl, rfl, rfl, rfl, rfl⟩
  · unfold activationStaged Dev.flight Dev.flights
    rw [rest]
  · refine List.mem_map.2 ⟨g, mem, if_pos same⟩

theorem stagedFlight_ref (d : Dev) (r : CmdRef) (cmd : Instr) (w : When) (late : Bool) : (stagedFlight d r cmd w late).ref = r := by
  unfold stagedFlight
  split
  · rfl
  · cases w <;> rfl

/-! ### The marks for automatic load -/

section
variable {d : Dev} {r : CmdRef} {cmd : Instr} {k : Fin 4} {set : Bool}

theorem doMark_empty (empty : d.admin.img[k].valid = false) : doMark d r cmd k set = refuse d r opImageActivate stField :=
  if_pos (by rw [empty]; rfl)

theorem doMark_closed (valid : d.admin.img[k].valid = true) (closed : nvOpen d = false) (new : flightOf d r = none) :
    doMark d r cmd k set = tempRefuse d r opImageActivate :=
  (if_neg (by rw [valid]; exact Bool.false_ne_true)).trans (if_pos (by rw [new, closed]; rfl))

theorem doMark_queued (valid : d.admin.img[k].valid = true) (go : flightOf d r ≠ none ∨ nvOpen d = true) :
    let e := addFlight d ⟨r, opImageActivate, 0, 0, cmd, .started, 0, 0, 0, false, false, false, false⟩
    doMark d r cmd k set = { e with admin := { e.admin with nv := e.admin.nv ++ [.mark (some r) (if set then some k.val else none)] } } := by
  refine (if_neg (by rw [valid]; exact Bool.false_ne_true)).trans (if_neg fun c => ?_)
  obtain ⟨new, closed⟩ := Bool.and_eq_true_iff.1 c
  rcases go with known | window
  · exact known ((flightOf_isSome d r).1 new)
  · rw [window] at closed
    exact Bool.noConfusion closed

end

/-- Settles O36: `doActivate` check by check, what is staged by `activationStaged_parts`, and the marks by `doMark`. -/
theorem imageActivationAndMarks : Obligations.ImageActivationAndMarks := by
  refine ⟨fun q d r k t late mark admin open_ => ?_, fun q d r k set admin open_ => ?_⟩
  · intro run held w past full closed
    obtain ⟨cmd, ran⟩ : ∃ cmd, ∀ u, doActivate d r cmd k t late mark = u → run = .next ⟨q, u⟩ := by
      cases mark
      · exact ⟨.imageActivate r k t late, fun u h => next_congr ((onQ0_here d _ _ admin).trans h)⟩
      · exact ⟨.imageActivateMark r k t late, fun u h => next_congr ((onQ0_here d _ _ admin).trans h)⟩
    have fresh : ¬held ↔ flightOf d r = none := Classical.not_not
    have closed_iff : closed ↔ MarkClosed d r mark := and_congr_right fun _ => and_congr_left fun _ => fresh
    have full_iff : full ↔ CuesFull d r w := and_congr_right fun _ => and_congr_left fun _ => fresh
    refine ⟨fun valid window room on => ?_, fun empty => ran _ (doActivate_empty open_ empty),
      fun valid h => ran _ (doActivate_closed open_ valid (closed_iff.1 h)),
      fun valid window h => ran _ (doActivate_full open_ valid (mt closed_iff.2 window) (full_iff.1 h)),
      fun valid window room h strict => ran _ (doActivate_late open_ valid (mt closed_iff.2 window) (mt full_iff.2 room) h strict)⟩
    have checked := doActivate_checked d r cmd k t late mark open_ valid (mt closed_iff.2 window) (mt full_iff.2 room) on
    refine ⟨fun img passes => ?_, fun i fails => ran _ (checked.trans ?_)⟩
    · rw [passes] at checked
      obtain ⟨core, outbox, g, mem, same, prog, at_, timed, frame, offset⟩ :=
        activationStaged_parts d r (stagedFlight d r cmd w late) ⟨some r, fetchedAt d r, k.val, img, .staging, 0, mark⟩ (stagedFlight_ref ..)
      refine ⟨_, ran _ checked, core, outbox, g, mem, same, fun early => ?_, fun b stc ahead => ?_, fun m o named => ?_⟩
      · have untimed : stagedFlight d r cmd w late = placeFlight d r opImageActivate cmd .untimed late .started := by
          unfold stagedFlight
          rcases early with none_ | gone
          · rw [none_]
            exact ite_self _
          · exact if_pos ((pastB_iff d r w).2 gone)
        rw [prog, timed, untimed]
        exact ⟨rfl, rfl⟩
      · have cue : stagedFlight d r cmd w late = placeFlight d r opImageActivate cmd (.stc b) late .started :=
          stc ▸ if_neg (mt (pastB_iff d r w).1 ahead)
        rw [prog, at_, timed, cue]
        exact ⟨rfl, rfl, rfl⟩
      · have framed : stagedFlight d r cmd w late = placeFlight d r opImageActivate cmd (.frame m o) late .started := by
          unfold stagedFlight
          rw [named]
          rfl
        rw [prog, timed, frame, offset, framed]
        exact ⟨rfl, rfl, rfl, rfl⟩
    · rw [fails]
      rfl
  · intro cmd nv
    have ran : ∀ u, doMark d r cmd k set = u → exec cmd ⟨q, d⟩ = .next ⟨q, u⟩ := by
      intro u h
      cases set
      · exact next_congr ((adminOpen_here d _ _ admin open_).trans h)
      · exact next_congr ((adminOpen_here d _ _ admin open_).trans h)
    refine ⟨fun valid window new => ran _ ?_, fun valid known => ran _ ?_, fun empty => ran _ (doMark_empty empty),
      fun valid closed new => ran _ (doMark_closed valid closed new)⟩
    · rw [doMark_queued valid (.inr window), addFlight_new d _ new]
      rfl
    · rw [doMark_queued valid (.inl known), addFlight_known d _ known]

end Sys2Proof.Machine
end

section
/-!
PROOFS. Firmware slots and their activation (R445, R448 to R452), and the writes to the non-volatile store that end (R446).
-/

namespace Sys2Proof.Machine

/-! ### FW_COMMIT -/

section
variable {d : Dev} {r : CmdRef} {k : Fin 2} {boot : Bool}

theorem doCommit_running (running : k.val = d.admin.fwRunning) :
    doCommit d r k boot = refuse { d with admin := { d.admin with fwBuf := [] } } r opFwCommit stField := if_pos running

theorem doCommit_fails (other : k.val ≠ d.admin.fwRunning) (bad : fwReason d.admin.keys d.admin.fwBuf ≠ 0) : doCommit d r k boot =
    completeWith { d with admin := { d.admin with fwBuf := [] } } r opFwCommit stField (failAt (fwReason d.admin.keys d.admin.fwBuf))
      (fwReason d.admin.keys d.admin.fwBuf) 0 :=
  (if_neg other).trans (if_pos bad)

theorem doCommit_good (other : k.val ≠ d.admin.fwRunning) (good : fwReason d.admin.keys d.admin.fwBuf = 0) : doCommit d r k boot =
    nvCommand { d with admin := { d.admin with fwBuf := [] } } r opFwCommit (.fw r k.val (fwSlotOf d.admin.fwBuf) boot) :=
  (if_neg other).trans (if_neg (not_not_intro good))

theorem doMarkBoot_empty (empty : d.admin.fw[k].st = 0) :
    doMarkBoot d r k = refuse { d with admin := { d.admin with fwBuf := [] } } r opFwCommit stField := if_pos empty

theorem doMarkBoot_held (held : d.admin.fw[k].st ≠ 0) :
    doMarkBoot d r k = nvCommand { d with admin := { d.admin with fwBuf := [] } } r opFwCommit (.fwBoot r k.val) := if_neg held

end

/-! ### Writes that end -/

theorem nvDoneDev_next (d : Dev) (j : NvJob) (rest : List NvJob) (first : d.admin.nv = j :: rest) (up : d.admin.act = none) :
    nvDoneDev d = adminNext (nvApply { d with admin := { d.admin with nv := rest } } j) := by
  have run : stewardsDown d = false := by rw [stewardsDown, up]; rfl
  unfold nvDoneDev
  rw [first]
  exact if_neg (Bool.eq_false_iff.1 run)

theorem nvDoneDev_still (d : Dev) (no : d.admin.nv = [] ∨ d.admin.act ≠ none) : nvDoneDev d = d := by
  unfold nvDoneDev
  cases jobs : d.admin.nv with
  | nil => rfl
  | cons j rest =>
    have down : d.admin.act ≠ none := no.resolve_left (by rw [jobs]; exact List.cons_ne_nil _ _)
    exact if_pos (Option.isSome_iff_ne_none.2 down)

/-- A bank changed at the number of one of its entries. -/
theorem updN_fin {α : Type} {n : Nat} (v : Vector α n) (i : Fin n) (f : α → α) : updN v i.val f = v.set i (f v[i]) := dif_pos i.isLt

theorem nvApply_record (d : Dev) (k : Nat) (old new : List Byte) (same : Mem.find d.admin.records k = some old) :
    nvApply d (.record k old new) = { d with admin := { d.admin with records := Mem.put d.admin.records k new } } := if_pos same

theorem nvApply_record_changed (d : Dev) (k : Nat) (old new : List Byte) (differs : Mem.find d.admin.records k ≠ some old) :
    nvApply d (.record k old new) = d := if_neg differs

/-! ### FW_ACTIVATE -/

theorem doFwActivate_bad (d : Dev) (r : CmdRef) (k : Fin 2) (bad : d.admin.fw[k].st ≠ 1) : doFwActivate d r k = refuse d r opFwActivate stField :=
  if_pos bad

theorem activation_busy (d : Dev) : (activating d || d.admin.act.isSome) = true ↔ activating d = true ∨ d.admin.act ≠ none := by
  rw [Bool.or_eq_true, Option.isSome_iff_ne_none]

theorem doFwActivate_busy (d : Dev) (r : CmdRef) (k : Fin 2) (good : d.admin.fw[k].st = 1) (busy : activating d = true ∨ d.admin.act ≠ none) :
    doFwActivate d r k = refuse d r opFwActivate stNotReady :=
  (if_neg (not_not_intro good)).trans (if_pos ((activation_busy d).2 busy))

theorem doFwActivate_starts (d : Dev) (r : CmdRef) (k : Fin 2) (good : d.admin.fw[k].st = 1) (idle : ¬(activating d = true ∨ d.admin.act ≠ none)) :
    let e := addFlight d ⟨r, opFwActivate, 0, 0, .fwActivate r k, .started, 0, 0, 0, false, false, false, false⟩
    doFwActivate d r k = { e with
      qif := { e.qif with paused := true }
      admin := { e.admin with
        fwBuf := []
        imgBuf := []
        act := some (r, k.val, hereStc d)
        replay := ⟨hereStc d, 0, 0, d.admin.fwRunning, k.val, 0xFF, journalUsed e, 0, []⟩ } } :=
  (if_neg (not_not_intro good)).trans (if_neg (mt (activation_busy d).1 idle))

theorem fwResume_none (d : Dev) (ok : Bool) (up : d.admin.act = none) : fwResume d ok = d := by
  unfold fwResume
  rw [up]

/-- The stewards run again: the part as FW_ACTIVATE completes on it. -/
theorem fwResume_ends (d : Dev) (ok : Bool) (r : CmdRef) (slot stc : Nat) (act : d.admin.act = some (r, slot, stc)) : ∃ (e : Dev) (n us : Nat),
    fwResume d ok = complete e r opFwActivate (if ok then stSuccess else stAborted) n us ∧ e.qif.paused = false ∧ e.admin.act = none ∧
      e.admin.fwRunning = (if ok then slot else d.admin.fwRunning) ∧ e.admin.replay.outcome = (if ok then 0 else 1) ∧
      e.admin.replay.stcResume = hereStc d ∧ e.chs = d.chs ∧ e.guard = d.guard := by
  unfold fwResume
  rw [act]
  exact ⟨_, _, _, rfl, rfl, rfl, rfl, rfl, rfl, rfl, rfl⟩

/-- Settles O38: FW_COMMIT by its checks, a write's end by `nvDoneDev_next`, the activation by `doFwActivate_starts` and `fwResume_ends`. -/
theorem firmwareAndWrites : Obligations.FirmwareAndWrites := by
  refine ⟨fun q d r k boot admin open_ => ?_, fun q d r rest => ?_, fun q d r k => ?_⟩
  · intro run empty reason
    have commit : ∀ u, doCommit d r k boot = u → run = .next ⟨q, u⟩ := by
      intro u h
      cases boot
      · exact next_congr ((adminOpen_here d _ _ admin open_).trans h)
      · exact next_congr ((adminOpen_here d _ _ admin open_).trans h)
    have mark : ∀ u, doMarkBoot d r k = u → exec (.fwMarkBoot r k) ⟨q, d⟩ = .next ⟨q, u⟩ := fun u h =>
      next_congr ((adminOpen_here d _ _ admin open_).trans h)
    exact ⟨fun other good window => commit _ ((doCommit_good other good).trans (nvCommand_open empty r _ _ window)),
      fun other good window => commit _ ((doCommit_good other good).trans (nvCommand_closed empty r _ _ window)),
      fun held window => mark _ ((doMarkBoot_held held).trans (nvCommand_closed empty r _ _ window)),
      fun other bad => commit _ (doCommit_fails other bad), fun running => commit _ (doCommit_running running),
      fun held window => mark _ ((doMarkBoot_held held).trans (nvCommand_open empty r _ _ window)), fun none_ => mark _ (doMarkBoot_empty none_)⟩
  · intro whole
    refine ⟨fun up => ?_, fun no => next_congr (nvDoneDev_still d no)⟩
    have ends : ∀ (j : NvJob) (u : Dev), nvApply { d with admin := { d.admin with nv := rest } } j = u → whole j u := fun j u h first =>
      next_congr ((nvDoneDev_next d j rest first up).trans (congrArg adminNext h))
    refine ⟨fun k c boot => ends _ _ ?_, fun k => ends _ _ rfl, fun k bs => ends _ _ ?_, fun k => ends _ _ rfl, fun k first => ?_,
      fun k old new same => ends _ _ (nvApply_record _ k old new same), fun k old new differs => ends _ _ (nvApply_record_changed _ k old new differs),
      ends _ _ rfl, fun b first small => ?_⟩
    · show complete { d with admin := { d.admin with nv := rest, fw := updN d.admin.fw k.val _, fwBoot := _ } } r opFwCommit stSuccess 0 0 = _
      rw [updN_fin]
      rfl
    · show complete { d with admin := { d.admin with nv := rest, img := updN d.admin.img k.val _ } } r opImageLoad stSuccess bs.length 0 = _
      rw [updN_fin]
      rfl
    · exact ⟨Config.freeNat d.free, Config.freeNat (d.free + 1), ends (.mark (some r) k) _
        (refuse_free { d with admin := { d.admin with nv := rest, autoSlot := k } } r opImageActivate stSuccess rfl) first⟩
    · refine ⟨satN 0xFFFF (d.cob.nvWear + Config.freeNat d.free), ?_, ?_, ends _ _ rfl first⟩
      · rw [satN_min]
        omega
      · rw [satN_min]
        omega
  · intro busy
    refine ⟨fun admin open_ => ?_, fun stc ok act => ?_, fun up => ?_⟩
    · have ran : ∀ u, doFwActivate d r k = u → exec (.fwActivate r k) ⟨q, d⟩ = .next ⟨q, u⟩ := fun u h =>
        next_congr ((adminOpen_here d _ _ admin open_).trans h)
      refine ⟨fun good idle => ⟨_, ran _ (doFwActivate_starts d r k good idle), ?_⟩, fun bad => ran _ (doFwActivate_bad d r k bad),
        fun good h => ran _ (doFwActivate_busy d r k good h)⟩
      obtain ⟨same, outbox⟩ := addFlight_rest d ⟨r, opFwActivate, 0, 0, .fwActivate r k, .started, 0, 0, 0, false, false, false, false⟩
      rw [same]
      exact ⟨rfl, rfl, rfl, rfl, rfl, rfl, rfl, rfl, rfl, outbox⟩
    · obtain ⟨e, n, us, resumed, rest⟩ := fwResume_ends d ok r k.val stc act
      refine ⟨e, n, us, ?_, rest⟩
      cases ok
      · exact next_congr (congrArg (fun x => adminNext (readyQ0 x)) resumed)
      · exact next_congr (congrArg (fun x => adminNext (readyQ0 x)) resumed)
    · exact ⟨next_congr (congrArg (fun x => adminNext (readyQ0 x)) (fwResume_none d true up)),
        next_congr (congrArg (fun x => adminNext (readyQ0 x)) (fwResume_none d false up))⟩

end Sys2Proof.Machine
end

section
/-!
PROOFS. STREAM_WRITE and STREAM_ROOM (R328, R329, R378, R412).
-/

namespace Sys2Proof.Machine

/-! ### Streams -/

theorem look_fin {α : Type} {n : Nat} (v : Vector α n) (i : Fin n) (x : α) : look v i.val x = v[i] := dif_pos i.isLt

theorem stream_same (d : Dev) (h : HStream) (f : Stream → Stream) : (d.stream h.val f).mix.streams[h] = f d.mix.streams[h] :=
  (updN_get d.mix.streams h.val h f).trans (if_pos rfl)

theorem stream_other (d : Dev) (h j : HStream) (f : Stream → Stream) (ne : j ≠ h) : (d.stream h.val f).mix.streams[j] = d.mix.streams[j] :=
  (updN_get d.mix.streams h.val j f).trans (if_neg fun same => ne (Fin.ext same))

/-- The samples of a write read as two's complement numbers. -/
theorem signed_toInt (w : W32) : signed 32 w.toNat = w.toInt := by
  have small := w.isLt
  unfold signed
  rw [BitVec.toInt_eq_toNat_cond]
  dsimp only
  split <;> split <;> omega

theorem hsEntries_length (xs : List Int) (fin : Bool) : (hsEntries xs fin).length = xs.length := by
  simp [hsEntries]

/-- A drop bounded by the length is the whole drop. -/
theorem drop_min {α : Type} (l : List α) (k n : Nat) (len : l.length = n) : l.drop (min k n) = l.drop k := by
  rcases Nat.le_total k n with h | h
  · rw [Nat.min_eq_left h]
  · rw [Nat.min_eq_right h, List.drop_eq_nil_of_le (by omega), List.drop_eq_nil_of_le (by omega)]

/-! ### What a stream takes in -/

/-- An untimed write copied into its stream. -/
def copied (d : Dev) (h : Nat) (fin : Bool) (xs : List Int) : Dev := d.stream h fun s => s.append (hsEntries xs fin) (joinAcc d (0x80 + h))

/-- A stream with the samples of a timed write, which start at boundary `b`. -/
def Stream.timed (s : Stream) (b : Nat) (r : CmdRef) (xs : List HsSample) : Stream :=
  { s with
    starts := s.starts ++ [⟨b, s.fifo.length, (xs.drop s.discardNext).length, r⟩]
    fifo := s.fifo ++ xs.drop s.discardNext
    discardNext := s.discardNext - xs.length }

/-- A timed write copied into its stream, its journal entry noting it. -/
def copiedTimed (d : Dev) (r : CmdRef) (h : Nat) (fin : Bool) (xs : List Int) (b : Nat) : Dev :=
  let e := d.stream h fun s => s.timed b r (hsEntries xs fin)
  { e with qif := { e.qif with flights := e.qif.flights.map fun f => if sameRef f.ref r then { f with written := true } else f } }

theorem streamCopy_timed (d : Dev) (r : CmdRef) (h : Nat) (fin : Bool) (xs : List Int) (b : Nat) :
    streamCopy d r h fin xs (some b) = copiedTimed d r h fin xs b := rfl

theorem append_fifo (s : Stream) (ys : List HsSample) (acc : Nat) :
    (s.append ys acc).fifo = s.fifo ++ ys.drop (min s.discardNext ys.length) ∧
      (s.append ys acc).discardNext = s.discardNext - min s.discardNext ys.length ∧
      (s.append ys acc).running = (s.running || (decide (s.starts = []) && decide (min s.discardNext ys.length < ys.length))) := by
  unfold Stream.append
  dsimp only
  cases s.running <;> cases decide (s.starts = []) <;> cases decide (min s.discardNext ys.length < ys.length) <;> exact ⟨rfl, rfl, rfl⟩

theorem copied_stream (d : Dev) (h : HStream) (fin : Bool) (xs : List Int) (n : Nat) (len : xs.length = n) :
    let s := d.mix.streams[h]
    let k := min s.discardNext n
    let t := (copied d h.val fin xs).mix.streams[h]
    t.fifo = s.fifo ++ (hsEntries xs fin).drop k ∧ t.discardNext = s.discardNext - k ∧
      t.running = (s.running || (decide (s.starts = []) && decide (k < n))) := by
  have entries := (hsEntries_length xs fin).trans len
  rw [copied, stream_same]
  have all := append_fifo d.mix.streams[h] (hsEntries xs fin) (joinAcc d (0x80 + h.val))
  rw [entries] at all
  exact all

theorem streamCopy_untimed (d : Dev) (r : CmdRef) (h : HStream) (fin : Bool) (xs : List Int) (n : Nat) (len : xs.length = n) :
    let s := d.mix.streams[h]
    streamCopy d r h.val fin xs none = complete (copied d h.val fin xs) r opStream stSuccess n (s.fifo.length + n - min s.discardNext n) := by
  have fifo := (copied_stream d h fin xs n len).1
  have room : (look (copied d h.val fin xs).mix.streams h.val .reset).fifo.length =
      d.mix.streams[h].fifo.length + n - min d.mix.streams[h].discardNext n := by
    rw [look_fin, fifo, List.length_append, List.length_drop, hsEntries_length, len, Nat.add_sub_assoc (Nat.min_le_right _ _)]
  dsimp only
  rw [← room, ← len]
  rfl

theorem timed_eq (s : Stream) (b : Nat) (r : CmdRef) (xs : List Int) (fin : Bool) (n : Nat) (len : xs.length = n) :
    s.timed b r (hsEntries xs fin) = { s with
      fifo := s.fifo ++ (hsEntries xs fin).drop (min s.discardNext n), discardNext := s.discardNext - min s.discardNext n
      starts := s.starts ++ [⟨b, s.fifo.length, n - min s.discardNext n, r⟩] } := by
  have entries := (hsEntries_length xs fin).trans len
  have count : (hsEntries xs fin).length - s.discardNext = n - min s.discardNext n := by omega
  have owed : s.discardNext - (hsEntries xs fin).length = s.discardNext - min s.discardNext n := by omega
  rw [Stream.timed, drop_min _ _ n entries, List.length_drop, count, owed]

theorem copiedTimed_stream (d : Dev) (r : CmdRef) (h : HStream) (fin : Bool) (xs : List Int) (b : Nat) :
    (copiedTimed d r h.val fin xs b).mix.streams[h] = d.mix.streams[h].timed b r (hsEntries xs fin) := stream_same d h _

/-! ### STREAM_WRITE -/

theorem streamRoom_fits (d : Dev) (h : HStream) (n : Nat) (fits : n + d.mix.streams[h].fifo.length ≤ 16384) : n ≤ streamRoom d h.val := by
  rw [streamRoom, look_fin, hsDepth]
  omega

theorem streamRoom_lacks (d : Dev) (h : HStream) (n : Nat) (some_ : 1 ≤ n) (lacks : 16384 < n + d.mix.streams[h].fifo.length) :
    ¬n ≤ streamRoom d h.val := by
  rw [streamRoom, look_fin, hsDepth]
  omega

/-- Whether the start of a write has passed. -/
def startPast (d : Dev) (st : Option Nat) : Bool := match st with | some b => decide (b < nextStc d) | none => false

theorem startPast_iff (d : Dev) (st : Option Nat) : startPast d st = true ↔ ∃ b ∈ st, b < nextStc d := by
  unfold startPast
  cases st with
  | none => simp
  | some b => simp

theorem doStreamWrite_unsized (d : Dev) (r : CmdRef) (h : Nat) (fin : Bool) (xs : List Int) (st : Option Nat)
    (bad : ¬(1 ≤ xs.length ∧ xs.length ≤ 16384)) : doStreamWrite d r h fin xs st = refuse d r opStream stField := by
  refine if_pos ?_
  by_cases none_ : xs = []
  · exact .inl none_
  · have some_ := List.length_pos_iff.2 none_
    exact .inr (by rw [hsDepth]; omega)

/-- With the host open and an image in force a command is served. -/
theorem served_open {d : Dev} (open_ : hostClosed d = false ∧ imageOn d = true) (u v : Dev) : (if hostClosed d || !imageOn d then u else v) = v := by
  rw [open_.1, open_.2]
  rfl

section
variable {d : Dev} {r : CmdRef} {h : HStream} {fin : Bool} {xs : List Int} {st : Option Nat} (sized : 1 ≤ xs.length ∧ xs.length ≤ 16384)
include sized

theorem doStreamWrite_sized (u v : Dev) : (if xs = [] ∨ hsDepth < xs.length then u else v) = v := by
  refine if_neg fun bad => ?_
  rw [hsDepth] at bad
  rcases bad with rfl | long
  · exact absurd sized.1 (by decide)
  · omega

theorem doStreamWrite_closed (closed : ¬(hostClosed d = false ∧ imageOn d = true)) :
    doStreamWrite d r h.val fin xs st = refuse d r opStream stNotReady := by
  refine (doStreamWrite_sized sized _ _).trans (if_pos ?_)
  cases host : hostClosed d
  · cases image : imageOn d
    · rfl
    · exact absurd ⟨host, image⟩ closed
  · rfl

variable (open_ : hostClosed d = false ∧ imageOn d = true)
include open_

theorem doStreamWrite_late (past : startPast d st = true) : doStreamWrite d r h.val fin xs st = refuse d r opStream stLate :=
  (doStreamWrite_sized sized _ _).trans ((served_open open_ _ _).trans (if_pos past))

variable (ahead : startPast d st = false)
include ahead

theorem doStreamWrite_off (off : d.mix.streams[h].en = false) : doStreamWrite d r h.val fin xs st = refuse d r opStream stField := by
  refine (doStreamWrite_sized sized _ _).trans ((served_open open_ _ _).trans ((if_neg (Bool.eq_false_iff.1 ahead)).trans (if_pos ?_)))
  rw [look_fin, off]
  rfl

variable (on : d.mix.streams[h].en = true)
include on

theorem doStreamWrite_placed : doStreamWrite d r h.val fin xs st = if xs.length ≤ streamRoom d h.val then streamCopy d r h.val fin xs st
    else { d with qif := { d.qif with swaits := d.qif.swaits ++ [⟨r, h.val, fin, xs, st⟩] } } := by
  refine (doStreamWrite_sized sized _ _).trans ((served_open open_ _ _).trans ((if_neg (Bool.eq_false_iff.1 ahead)).trans (if_neg ?_)))
  rw [look_fin, on]
  exact Bool.false_ne_true

end

/-! ### STREAM_ROOM -/

/-- The part with a waiting write taken up. -/
def taken (d : Dev) (r : CmdRef) : Dev := { d with qif := { d.qif with swaits := d.qif.swaits.filter fun x => !decide (x.ref = r) } }

/-- What STREAM_ROOM does with one waiting write. -/
def roomOne (h : Nat) (e : Dev) (w : StreamWait) : Dev :=
  if w.h = h ∧ w.samples.length ≤ streamRoom e h then
    match w.start with
    | some b => if b < nextStc e then refuse (taken e w.ref) w.ref opStream stLate else streamCopy (taken e w.ref) w.ref h w.fin w.samples w.start
    | none => streamCopy (taken e w.ref) w.ref h w.fin w.samples none
  else e

theorem streamRoomDev_eq (d : Dev) (h : Nat) : streamRoomDev d h = d.qif.swaits.foldl (roomOne h) d := rfl

theorem roomOne_still (h : Nat) (l : List StreamWait) (e : Dev) (no : ∀ w ∈ l, w.h = h → ¬w.samples.length ≤ streamRoom e h) :
    l.foldl (roomOne h) e = e := by
  induction l with
  | nil => rfl
  | cons w l ih =>
    have skip : roomOne h e w = e := if_neg fun c => no w (List.mem_cons_self ..) c.1 c.2
    rw [List.foldl_cons, skip]
    exact ih fun v mem => no v (List.mem_cons_of_mem _ mem)

/-- The one write of a stream that waits, as it fits. -/
theorem streamRoomDev_one (d : Dev) (h : Nat) (a b : List StreamWait) (w : StreamWait) (waits : d.qif.swaits = a ++ w :: b)
    (others : ∀ v ∈ a ++ b, v.h ≠ h) : streamRoomDev d h = roomOne h d w := by
  rw [streamRoomDev_eq, waits, List.foldl_append, roomOne_still h a d fun v mem own => absurd own (others v (List.mem_append_left _ mem)),
    List.foldl_cons, roomOne_still h b _ fun v mem own => absurd own (others v (List.mem_append_right _ mem))]

/-- Settles O40: a write by its checks in `doStreamWrite`, copied by `streamCopy_untimed` or with its start by `copiedTimed`, and a write that
waits by `streamRoomDev_one`. -/
theorem streamWrite : Obligations.StreamWrite := by
  intro q d r h fin ws st xs n s k run sized open_ late only
  have signs : (ws.map fun w => signed 32 w.toNat) = xs := List.map_congr_left fun w _ => signed_toInt w
  have len : xs.length = n := List.length_map ..
  have ran : ∀ (st : Option Nat) (u : Dev), doStreamWrite d r h.val fin xs st = u → run st = .next ⟨q, u⟩ := fun st u same =>
    next_congr ((congrArg (doStreamWrite d r h.val fin · st) signs).trans same)
  have size : sized → 1 ≤ xs.length ∧ xs.length ≤ 16384 := fun c => by rw [len]; exact c
  have ahead : ∀ st, ¬late st → startPast d st = false := fun st c => Bool.eq_false_iff.2 fun past => c ((startPast_iff d st).1 past)
  have copies : ∀ st, sized → open_ → ¬late st → s.en = true → n + s.fifo.length ≤ 16384 →
      run st = .next ⟨q, streamCopy d r h.val fin xs st⟩ := fun st c o now on fits =>
    ran st _ ((doStreamWrite_placed (size c) o (ahead st now) on).trans (if_pos (by rw [len]; exact streamRoom_fits d h n fits)))
  have alone : ∀ f : Stream → Stream, only (d.stream h.val f) := fun f j ne => stream_other d h j f ne
  refine ⟨fun c o on fits => ?_, fun b c o on now fits => ?_, fun c o on now lacks => ran st _ ?_,
    fun c o past => ran st _ (doStreamWrite_late (size c) o ((startPast_iff d st).2 past)),
    fun c o now off => ran st _ (doStreamWrite_off (size c) o (ahead st now) off), fun c closed => ran st _ (doStreamWrite_closed (size c) closed),
    fun bad => ran st _ (doStreamWrite_unsized d r h.val fin xs st (by rw [len]; exact bad)), ?_, fun none_ => next_congr ?_⟩
  · obtain ⟨fifo, owed, running⟩ := copied_stream d h fin xs n len
    exact ⟨copied d h.val fin xs, (copies none c o (by rintro ⟨b, mem, -⟩; cases mem) on fits).trans
      (next_congr (streamCopy_untimed d r h fin xs n len)), rfl, alone _, fifo, owed, running⟩
  · refine ⟨copiedTimed d r h.val fin xs b, copies (some b) c o ?_ on fits, rfl, fun j ne => stream_other d h j _ ne,
      (copiedTimed_stream d r h fin xs b).trans (timed_eq _ b r xs fin n len)⟩
    rintro ⟨x, mem, past⟩
    cases mem
    omega
  · refine (doStreamWrite_placed (size c) o (ahead st now) on).trans (if_neg ?_)
    rw [len]
    exact streamRoom_lacks d h n c.1 lacks
  · intro a b w waits own others m j fits
    have one : exec (.streamRoom h) ⟨q, d⟩ = .next ⟨q, roomOne h.val d w⟩ := next_congr (streamRoomDev_one d h.val a b w waits others)
    have goes : w.h = h.val ∧ w.samples.length ≤ streamRoom d h.val := ⟨own, streamRoom_fits d h m fits⟩
    have takes : roomOne h.val d w = _ := if_pos goes
    obtain ⟨wr, wh, wfin, wxs, start⟩ := w
    cases start with
    | none =>
      refine ⟨copied (taken d wr) h.val wfin wxs, rfl, rfl, rfl, rfl, fun _ => ⟨(one.trans (next_congr takes)).trans (next_congr ?_),
        fun j ne => stream_other (taken d wr) h j _ ne, (copied_stream (taken d wr) h wfin wxs m rfl).1⟩, nofun, nofun⟩
      exact streamCopy_untimed (taken d wr) wr h wfin wxs m rfl
    | some x =>
      by_cases past : x < nextStc d
      · refine ⟨taken d wr, rfl, rfl, rfl, rfl, nofun, fun y mem now => ?_, fun y mem _ => ⟨(one.trans (next_congr takes)).trans (next_congr (if_pos past)),
          rfl⟩⟩
        cases mem
        omega
      · have stream := (copiedTimed_stream (taken d wr) wr h wfin wxs x).trans (timed_eq _ x wr wxs wfin m rfl)
        refine ⟨copiedTimed (taken d wr) wr h.val wfin wxs x, rfl, rfl, rfl, rfl, nofun, fun y mem _ => ?_, fun y mem gone => ?_⟩
        · cases mem
          exact ⟨(one.trans (next_congr takes)).trans (next_congr (if_neg past)), fun j ne => stream_other (taken d wr) h j _ ne,
            (congrArg Stream.fifo stream).trans rfl, (congrArg Stream.starts stream).trans rfl⟩
        · cases mem
          exact absurd gone past
  · refine (streamRoomDev_eq d h.val).trans (roomOne_still h.val _ d fun w mem own room => ?_)
    have lacks := none_ w mem own
    rw [streamRoom, look_fin, hsDepth] at room
    exact absurd room (Nat.not_le.2 lacks)

end Sys2Proof.Machine
end

section
/-!
PROOFS. TIMED_SET (R322, R324, R336 to R338, R346, R348, R372).
-/

namespace Sys2Proof.Machine

/-! ### The checks of TIMED_SET -/

theorem doTimedSet_bad (d : Dev) (r : CmdRef) (o : SetObj) (bad : setFieldOk o = false) : doTimedSet d r o = refuse d r opSet stField :=
  if_pos (by rw [bad]; rfl)

theorem doTimedSet_closed (d : Dev) (r : CmdRef) (o : SetObj) (ok : setFieldOk o = true) (closed : hostClosed d = true ∨ d.core.image = none) :
    doTimedSet d r o = refuse d r opSet stNotReady := by
  refine (if_neg (by rw [ok]; exact Bool.false_ne_true)).trans ?_
  by_cases host : hostClosed d = true
  · exact if_pos host
  · rw [if_neg host, closed.resolve_left host]

section
variable {d : Dev} {r : CmdRef} {img : Image} {o : SetObj} (open_ : hostClosed d = false) (image : d.core.image = some img) (ok : setFieldOk o = true)
include open_ image ok

theorem doTimedSet_checked : doTimedSet d r o =
    if setObjOk d img o then completeAt (applySet d o) r opSet stSuccess d.tb.stc else completeAt d r opSet stField d.tb.stc := by
  refine (if_neg (by rw [ok]; exact Bool.false_ne_true)).trans ((if_neg (Bool.eq_false_iff.1 open_)).trans ?_)
  rw [image]

theorem doTimedSet_there (there : setObjOk d img o = true) : doTimedSet d r o = completeAt (applySet d o) r opSet stSuccess d.tb.stc :=
  (doTimedSet_checked open_ image ok).trans (if_pos there)

theorem doTimedSet_absent (absent : setObjOk d img o = false) : doTimedSet d r o = completeAt d r opSet stField d.tb.stc :=
  (doTimedSet_checked open_ image ok).trans (if_neg (Bool.eq_false_iff.1 absent))

end

/-! ### Gains -/

theorem mixAt_mixCh (d : Dev) (c : Ch) (f : MixCh → MixCh) : mixAt (d.mixCh c.val f) c.val = f (mixAt d c.val) := by
  rw [mixAt, look_fin, mixAt, look_fin]
  exact (updN_get d.mix.chs c.val c f).trans (if_pos rfl)

/-- A gain object that exists takes the value it is given. -/
theorem gainGet_gainPut (d : Dev) (o : GainObj) (v : Int) (there : gainExists d o = true) : gainGet (gainPut d o v) o = v := by
  cases o with
  | term c t =>
    have bound : t < (mixAt d c.val).terms.length := of_decide_eq_true (Bool.and_eq_true_iff.1 there).2
    show (match (mixAt (d.mixCh c.val _) c.val).terms[t]? with | some x => x.gain | none => 0) = v
    rw [mixAt_mixCh]
    dsimp only
    rw [List.getElem?_modify_eq, List.getElem?_eq_getElem bound]
    rfl
  | out c =>
    show (mixAt (d.mixCh c.val _) c.val).outGain = v
    rw [mixAt_mixCh]
  | group k =>
    show (d.mix.groups.set k ⟨v⟩)[k].gain = v
    simp

theorem gainExists_of_mix (d e : Dev) (o : GainObj) (chs : e.chs = d.chs) (mix : e.mix.chs = d.mix.chs) : gainExists e o = gainExists d o := by
  have even (c : Ch) : oddHalf e c = oddHalf d c := by rw [oddHalf, oddHalf, bridgedB, bridgedB, chs]
  cases o with
  | term c t => rw [gainExists, gainExists, even, mixAt, mixAt, mix]
  | out c => exact congrArg (!·) (even c)
  | group g => rfl

/-- A change of a gain by a command: the object has its value, and the trajectory that ran on it is over. -/
theorem gainChange_parts (d : Dev) (o : GainObj) (v : Int) (there : gainExists d o = true) :
    let u := gainChange d o v
    gainGet u o = v ∧ u.mix.trajs = d.mix.trajs.filter (fun y => !decide (y.obj = o ∧ y.k < y.steps)) ∧
      u = { d with mix := u.mix, qif := u.qif, admin := u.admin } := by
  obtain ⟨qif, admin, ended⟩ : ∃ qif admin, endTraj d o = { d with
      mix := { d.mix with trajs := d.mix.trajs.filter fun y => !decide (y.obj = o ∧ y.k < y.steps) }, qif := qif, admin := admin } :=
    ⟨_, _, (endTraj_eq d o).1⟩
  unfold gainChange
  dsimp only
  rw [ended]
  refine ⟨gainGet_gainPut _ o v ((gainExists_of_mix d _ o rfl rfl).trans there), gainPut_mix _ o v, ?_⟩
  cases o with
  | term c t => rfl
  | out c => rfl
  | group g => rfl

/-- Settles O43: the checks of `doTimedSet`, the change by `applySet`, a gain's by `gainChange_parts`. -/
theorem timedSet : Obligations.TimedSet := by
  intro q d r img c p mask o
  refine ⟨fun open_ image => ?_, fun bad => next_congr (doTimedSet_bad d r o bad), fun ok closed => next_congr (doTimedSet_closed d r o ok closed)⟩
  have makes : ∀ o : SetObj, setFieldOk o = true → setObjOk d img o = true →
      exec (.timedSet r o) ⟨q, d⟩ = .next ⟨q, completeAt (applySet d o) r 0x24 0 d.tb.stc⟩ := fun o ok there =>
    next_congr (doTimedSet_there open_ image ok there)
  refine ⟨makes o, fun tau slew => makes (.delay c tau slew), fun thr rel small slow fast even => makes (.limiter c thr rel) ?_ ?_,
    makes (.slotMask p mask) rfl rfl, fun code sel known corner => makes (.corner code sel) ?_ rfl, fun t code => makes (.termSource c t code),
    fun t g k s mem there => ?_, fun ok absent => next_congr (doTimedSet_absent open_ image ok absent)⟩
  · exact decide_eq_true ⟨small, slow, fast⟩
  · exact (congrArg (!·) even).trans rfl
  · exact Bool.and_eq_true_iff.2 ⟨known, decide_eq_true corner⟩
  · simp only [List.mem_cons, List.not_mem_nil, or_false] at mem
    obtain rfl | rfl | rfl := mem
    · exact ⟨_, makes (.termGain c t g) rfl there, gainChange_parts d (.term c t) g.toInt there⟩
    · exact ⟨_, makes (.outGain c g) rfl there, gainChange_parts d (.out c) g.toInt there⟩
    · exact ⟨_, makes (.groupGain k g) rfl there, gainChange_parts d (.group k) g.toInt rfl⟩

end Sys2Proof.Machine
end

section
/-!
PROOFS. TABLE_WRITE and TABLE_READ (R229, R234 to R239, R411, R413).
-/

namespace Sys2Proof.Machine

/-! ### What a TABLE_WRITE changes -/

/-- A channel with the words of a TABLE_WRITE: the conditions with ρ, or table `g`. -/
def withWords (cond : Bool) (g : Nat) (ws : List W64) (x : Chan) : Chan :=
  { x with region := if cond then { x.region with conds := ws.take 7, rho := ws.getD 7 0 }
    else { x.region with tables := x.region.tables.set g ws } }

/-- A TABLE_WRITE for one channel. -/
def putWords (cond : Bool) (g : Nat) (ws : List W64) (d : Dev) (c : Ch) : Dev := if cond then putConds d c ws else putTable d c g ws

/-- The part with the channels and the engine tiles of `u`, and nothing else of it. -/
def Dev.withTables (d u : Dev) : Dev := { d with chs := u.chs, core := { d.core with tiles := u.core.tiles } }

theorem loadConds_tables (d : Dev) (c : Ch) : (loadConds d c).chs = d.chs ∧ loadConds d c = d.withTables (loadConds d c) ∧
    ∀ t : LTile, t ≠ etOf c → (loadConds d c).core.tiles[t] = d.core.tiles[t] := by
  unfold loadConds
  split
  · exact ⟨rfl, rfl, fun _ _ => rfl⟩
  · exact ⟨rfl, rfl, fun t ne => tile_other d _ t _ ne⟩

theorem putTable_tables (d : Dev) (c : Ch) (g : Nat) (ws : List W64) : (putTable d c g ws).chs = (d.ch c (withWords false g ws)).chs ∧
    putTable d c g ws = d.withTables (putTable d c g ws) ∧ ∀ t : LTile, t ≠ etOf c → (putTable d c g ws).core.tiles[t] = d.core.tiles[t] :=
  ⟨rfl, rfl, fun t ne => tile_other (d.ch c _) _ t _ ne⟩

theorem putWords_tables (cond : Bool) (g : Nat) (ws : List W64) (d : Dev) (c : Ch) :
    (putWords cond g ws d c).chs = (d.ch c (withWords cond g ws)).chs ∧ putWords cond g ws d c = d.withTables (putWords cond g ws d c) ∧
      ∀ t : LTile, t ≠ etOf c → (putWords cond g ws d c).core.tiles[t] = d.core.tiles[t] := by
  cases cond
  · exact putTable_tables d c g ws
  · obtain ⟨chs, rest, tiles⟩ := loadConds_tables (d.ch c (withWords true g ws)) c
    exact ⟨chs, rest, tiles⟩

/-- A TABLE_WRITE for a list of channels of one tile. -/
theorem forCh_putWords (cond : Bool) (g : Nat) (ws : List W64) (t : LTile) (l : List Ch) (d : Dev) (tile : ∀ c ∈ l, etOf c = t) :
    let u := forCh l (putWords cond g ws) d
    u.chs = (forCh l (fun e c => e.ch c (withWords cond g ws)) d).chs ∧ u = d.withTables u ∧
      ∀ k : LTile, k ≠ t → u.core.tiles[k] = d.core.tiles[k] := by
  have same : ∀ (l : List Ch) (a b : Dev), a.chs = b.chs →
      (forCh l (fun e c => e.ch c (withWords cond g ws)) a).chs = (forCh l (fun e c => e.ch c (withWords cond g ws)) b).chs := by
    intro l
    induction l with
    | nil => exact fun a b h => h
    | cons c l ih => exact fun a b h => ih _ _ (congrArg (upd · c (withWords cond g ws)) h)
  induction l generalizing d with
  | nil => exact ⟨rfl, rfl, fun _ _ => rfl⟩
  | cons c l ih =>
    obtain ⟨chs, rest, tiles⟩ := putWords_tables cond g ws d c
    obtain ⟨chs', rest', tiles'⟩ := ih (putWords cond g ws d c) fun k mem => tile k (List.mem_cons_of_mem _ mem)
    refine ⟨chs'.trans (same l _ _ chs), rest'.trans ?_, fun k ne => (tiles' k ne).trans (tiles k ?_)⟩
    · exact (congrArg (fun e : Dev => e.withTables (forCh l (putWords cond g ws) (putWords cond g ws d c))) rest).trans rfl
    · rw [tile c (List.mem_cons_self ..)]
      exact ne

theorem halves_tile (d : Dev) (c h : Ch) (mem : h ∈ halves d c) : etOf h = etOf c := by
  refine Fin.ext ?_
  show h.val / 8 = c.val / 8
  unfold halves at mem
  split at mem
  · simp only [List.mem_cons, List.not_mem_nil, or_false] at mem
    obtain rfl | rfl := mem
    · show c.val / 2 * 2 / 8 = _
      omega
    · show (c.val / 2 * 2 + 1) / 8 = _
      omega
  · rw [List.mem_singleton.1 mem]

/-! ### The checks -/

/-- Whether the host is served: it is open, and an image is in force. -/
def Serves (d : Dev) : Prop := hostClosed d = false ∧ imageOn d = true

/-- Whether a command may name a channel's tables: it is in use, and no odd half of a pair (R411). -/
def TablesThere (d : Dev) (c : Ch) : Prop := oddHalf d c = false ∧ d.chs[c].cfg.inUse = true

theorem tablesAway_iff (d : Dev) (c : Ch) : (oddHalf d c || !d.chs[c].cfg.inUse) = true ↔ ¬TablesThere d c := by
  unfold TablesThere
  cases oddHalf d c <;> cases d.chs[c].cfg.inUse <;> simp

theorem tableWordsOk_iff (cond : Bool) (ws : List W64) : tableWordsOk cond (ws.map (·.toNat)) = true ↔
    if cond then ws.length = 8 ∧ threshOk (ws.map (·.toNat)) = true else ws.length = 12 ∧ regionTableOk (ws.map (·.toNat)) = true := by
  unfold tableWordsOk
  rw [List.length_map]
  cases cond
  · exact (Bool.and_eq_true ..).to_iff.trans (and_congr_left fun _ => decide_eq_true_iff)
  · exact (Bool.and_eq_true ..).to_iff.trans (and_congr_left fun _ => decide_eq_true_iff)

/-- A command that the host is not served with. -/
theorem serves_not {d : Dev} (closed : ¬Serves d) (u v : Dev) : (if hostClosed d then u else if !imageOn d then u else v) = u := by
  unfold Serves at closed
  cases host : hostClosed d
  · cases image : imageOn d
    · rfl
    · exact absurd ⟨host, image⟩ closed
  · rfl

theorem serves_on {d : Dev} (open_ : Serves d) (u v w : Dev) : (if hostClosed d then u else if !imageOn d then v else w) = w := by
  rw [open_.1, open_.2]
  rfl

section
variable {d : Dev} {r : CmdRef} {c : Ch} {cond : Bool} {g : Fin 8} {ws : List W64}

theorem doTableWrite_bad (bad : tableWordsOk cond (ws.map (·.toNat)) = false) : doTableWrite d r c cond g ws = refuse d r opTableWrite stField :=
  if_pos (by rw [bad]; rfl)

variable (words : tableWordsOk cond (ws.map (·.toNat)) = true)
include words

theorem doTableWrite_closed (closed : ¬Serves d) : doTableWrite d r c cond g ws = refuse d r opTableWrite stNotReady :=
  (if_neg (by rw [words]; exact Bool.false_ne_true)).trans (serves_not closed _ _)

variable (open_ : Serves d)
include open_

theorem doTableWrite_away (away : ¬TablesThere d c) : doTableWrite d r c cond g ws = completeAt d r opTableWrite stField d.tb.stc :=
  (if_neg (by rw [words]; exact Bool.false_ne_true)).trans ((serves_on open_ _ _ _).trans (if_pos ((tablesAway_iff d c).2 away)))

theorem doTableWrite_there (there : TablesThere d c) : doTableWrite d r c cond g ws =
    completeAt (forCh (halves d c) (putWords cond g.val ws) d) r opTableWrite stSuccess d.tb.stc :=
  (if_neg (by rw [words]; exact Bool.false_ne_true)).trans
    ((serves_on open_ _ _ _).trans (if_neg fun away => (tablesAway_iff d c).1 away there))

end

section
variable {d : Dev} {r : CmdRef} {c : Ch} {kind : Fin 3} {g : Fin 8}

theorem doTableRead_bad (bad : r.len ≠ if kind = 1 then 64 else 96) : doTableRead d r c kind g = refuse d r opTableRead stField := if_pos bad

variable (size : r.len = if kind = 1 then 64 else 96)
include size

theorem doTableRead_closed (closed : ¬Serves d) : doTableRead d r c kind g = refuse d r opTableRead stNotReady :=
  (if_neg (not_not_intro size)).trans (serves_not closed _ _)

variable (open_ : Serves d)
include open_

theorem doTableRead_away (away : ¬TablesThere d c) : doTableRead d r c kind g = completeAt d r opTableRead stField d.tb.stc :=
  (if_neg (not_not_intro size)).trans ((serves_on open_ _ _ _).trans (if_pos ((tablesAway_iff d c).2 away)))

theorem doTableRead_there (there : TablesThere d c) : doTableRead d r c kind g =
    completeAt (hostWrite d r ((tableWords d c kind g).flatMap (le 8))) r opTableRead stSuccess d.tb.stc :=
  (if_neg (not_not_intro size)).trans ((serves_on open_ _ _ _).trans (if_neg fun away => (tablesAway_iff d c).1 away there))

end

/-- Settles O42: the checks of both commands, and the words put in place by `forCh_putWords`. -/
theorem regionTables : Obligations.RegionTables := by
  intro q d r c kind cond g ws ns open_ there words size at_
  have good : words → tableWordsOk cond (ws.map (·.toNat)) = true := (tableWordsOk_iff cond ws).2
  refine ⟨fun w o h => ?_, fun bad => next_congr (doTableWrite_bad (Bool.eq_false_iff.2 (mt (tableWordsOk_iff cond ws).1 bad))),
    fun w closed => next_congr (doTableWrite_closed (good w) closed), fun w o away => next_congr (doTableWrite_away (good w) o away),
    fun s o h => next_congr (doTableRead_there s o h), rfl, rfl, fun bad => next_congr (doTableRead_bad bad),
    fun s closed => next_congr (doTableRead_closed s closed), fun s o away => next_congr (doTableRead_away s o away)⟩
  obtain ⟨chs, rest, tiles⟩ := forCh_putWords cond g.val ws (etOf c) (halves d c) d fun k mem => halves_tile d c k mem
  refine ⟨_, next_congr (doTableWrite_there (good w) o h), rest, fun k => ?_, tiles⟩
  rw [chs]
  exact forCh_ch_get (fun _ => withWords cond g.val ws) (halves d c) d (halves_nodup d c) k

end Sys2Proof.Machine
end

section
/-!
PROOFS. The serial audio ports (R314, R357 to R375): frames, time-outs, phase evaluations, slips and the report on a partner.
-/

namespace Sys2Proof.Machine

/-! ### One port -/

/-- The part with port `p` as `s`. -/
def putSap (d : Dev) (p : Port) (s : Sap) : Dev := { d with ports := { d.ports with sap := d.ports.sap.set p s } }

theorem sap_eq (d : Dev) (p : Port) (f : Sap → Sap) : d.sap p.val f = putSap d p (f d.ports.sap[p]) :=
  congrArg (fun v => { d with ports := { d.ports with sap := v } }) (dif_pos p.isLt)

theorem putSap_self (d : Dev) (p : Port) : putSap d p d.ports.sap[p] = d :=
  congrArg (fun v => { d with ports := { d.ports with sap := v } }) (Vector.set_getElem_self p.isLt)

/-- A port that a change leaves alone. -/
theorem sap_still (d : Dev) (p : Port) (f : Sap → Sap) (same : f d.ports.sap[p] = d.ports.sap[p]) : d.sap p.val f = d := by
  rw [sap_eq, same, putSap_self]

/-! ### Frames -/

/-- A port whose frame has started: it runs its mask, and a slave has a partner. -/
def Sap.up (s : Sap) : Sap := { s with started := true, mask := s.maskPend, partPresent := s.partPresent || !s.fmt.master }

/-- A port once its frame has started: an output runs at once, an input with 4 frames. -/
def Sap.go (s : Sap) (acc : Nat) : Sap := if s.running then s else if s.fmt.out ∨ 4 ≤ s.fifo.length then s.run acc else s

/-- What the frame that has come does to a port. -/
def Sap.frameIn (s : Sap) (bits : List Bool) (clocks : Nat) : Sap :=
  if !s.started then s
  else if s.fmt.master || decide (clocks = s.frameBits) then (if s.fmt.out then s else s.receive bits) else s.frameError

/-- Whether a port takes the frame: it is enabled, and a master's comes at its time (R363). -/
def SapLive (d : Dev) (s : Sap) : Prop := d.guard.audioReset = false ∧ s.fmt.en = true ∧ (s.fmt.master = true → masterTime d s.fmt.rate = true)

theorem sapDead_iff (d : Dev) (s : Sap) :
    (d.guard.audioReset || !s.fmt.en || (s.fmt.master && !masterTime d s.fmt.rate)) = true ↔ ¬SapLive d s := by
  unfold SapLive
  cases d.guard.audioReset <;> cases s.fmt.en <;> cases s.fmt.master <;> cases masterTime d s.fmt.rate <;> simp

theorem sapFrameDev_dead (d : Dev) (p : Port) (bits : List Bool) (clocks : Nat) (dead : ¬SapLive d d.ports.sap[p]) : sapFrameDev d p bits clocks = d :=
  if_pos ((sapDead_iff d _).2 dead)

theorem sapFrameDev_live (d : Dev) (p : Port) (bits : List Bool) (clocks : Nat) (live : SapLive d d.ports.sap[p]) :
    let t := (d.ports.sap[p].frameIn bits clocks).up.go (joinAcc d p.val)
    sapFrameDev d p bits clocks = putSap d p (if t.fmt.out then t.send else t) :=
  (if_neg fun c => (sapDead_iff d _).1 c live).trans (sap_eq d p _)

/-- A change of a port that keeps its format. -/
theorem go_fmt (s : Sap) (acc : Nat) : (s.go acc).fmt = s.fmt := by
  unfold Sap.go Sap.run
  split
  · rfl
  · split <;> rfl

theorem frameError_fmt (s : Sap) : s.frameError.fmt = s.fmt := by
  unfold Sap.frameError
  split <;> rfl

theorem receive_fmt (s : Sap) (bits : List Bool) : (s.receive bits).fmt = s.fmt := by
  unfold Sap.receive
  split
  · rfl
  · split <;> rfl

theorem frameIn_fmt (s : Sap) (bits : List Bool) (clocks : Nat) : (s.frameIn bits clocks).fmt = s.fmt := by
  unfold Sap.frameIn
  split
  · rfl
  · split
    · split
      · rfl
      · exact receive_fmt s bits
    · exact frameError_fmt s

/-- A frame of an input. -/
theorem sapFrameDev_input (d : Dev) (p : Port) (bits : List Bool) (clocks : Nat) (t : Sap) (live : SapLive d d.ports.sap[p])
    (input : d.ports.sap[p].fmt.out = false) (comes : d.ports.sap[p].frameIn bits clocks = t) :
    sapFrameDev d p bits clocks = putSap d p (t.up.go (joinAcc d p.val)) := by
  have out : (t.up.go (joinAcc d p.val)).fmt.out = false := by
    rw [go_fmt, ← comes]
    exact (congrArg SapFmt.out (frameIn_fmt d.ports.sap[p] bits clocks)).trans input
  rw [sapFrameDev_live d p bits clocks live, comes, out]
  rfl

section
variable {s : Sap} {bits : List Bool} {clocks : Nat}

theorem frameIn_first (first : s.started = false) : s.frameIn bits clocks = s := if_pos (by rw [first]; rfl)

variable (started : s.started = true)
include started

theorem frameIn_wrong (wrong : ¬(s.fmt.master = true ∨ clocks = s.frameBits)) : s.frameIn bits clocks = s.frameError :=
  (if_neg (by rw [started]; exact Bool.false_ne_true)).trans (if_neg fun c => wrong ((Bool.or_eq_true_iff.1 c).imp_right of_decide_eq_true))

theorem frameIn_right (right : s.fmt.master = true ∨ clocks = s.frameBits) : s.frameIn bits clocks = if s.fmt.out then s else s.receive bits :=
  (if_neg (by rw [started]; exact Bool.false_ne_true)).trans (if_pos (Bool.or_eq_true_iff.2 (right.imp_right decide_eq_true)))

end

/-- The samples of a frame's slots. -/
def slotsIn (s : Sap) (bits : List Bool) : List Int := (List.range s.fmt.slots).map fun k => slotIn s.fmt s.mask bits k

theorem receive_owed (s : Sap) (bits : List Bool) (owed : 0 < s.discardNext) : s.receive bits = { s with discardNext := s.discardNext - 1 } :=
  if_pos owed

theorem receive_overrun (s : Sap) (bits : List Bool) (none_ : s.discardNext = 0) (full : s.running = true ∧ 8 ≤ s.fifo.length) :
    s.receive bits = { s with overruns := cnt32 s.overruns, resync := 4, fifo := [slotsIn s bits] } :=
  (if_neg (by omega)).trans (if_pos (Bool.and_eq_true_iff.2 ⟨full.1, decide_eq_true full.2⟩))

theorem receive_joins (s : Sap) (bits : List Bool) (none_ : s.discardNext = 0) (room : ¬(s.running = true ∧ 8 ≤ s.fifo.length)) :
    s.receive bits = { s with fifo := s.fifo ++ [slotsIn s bits] } :=
  (if_neg (by omega)).trans (if_neg fun c => room ((Bool.and_eq_true_iff.1 c).imp_right of_decide_eq_true))

theorem go_running (s : Sap) (acc : Nat) (running : s.running = true) : s.go acc = s := if_pos running

/-- An input runs with 4 frames. -/
theorem go_input (s : Sap) (acc : Nat) (input : s.fmt.out = false) :
    s.go acc = if s.running = true ∨ (s.fmt.out = false ∧ s.fifo.length < 4) then s else s.run acc := by
  unfold Sap.go
  cases running : s.running
  · rw [input, if_neg Bool.false_ne_true]
    by_cases few : s.fifo.length < 4
    · rw [if_neg (by simp [Nat.not_le.2 few]), if_pos (.inr ⟨rfl, few⟩)]
    · rw [if_pos (.inr (Nat.not_lt.1 few)), if_neg (by simp [few])]
  · rw [if_pos rfl, if_pos (.inl rfl)]

/-- An output whose frame starts: it runs, with the fifo and the counts it had. -/
theorem go_output (s : Sap) (acc : Nat) (output : s.fmt.out = true) : let t := s.go acc
    t.started = s.started ∧ t.running = true ∧ t.mask = s.mask ∧ t.frameErr = s.frameErr ∧ t.fifo = s.fifo ∧ t.resync = s.resync ∧
      t.sent = s.sent ∧ t.standin = s.standin ∧ t.fmt = s.fmt := by
  unfold Sap.go
  cases running : s.running
  · rw [if_neg Bool.false_ne_true, if_pos (.inl output)]
    exact ⟨rfl, rfl, rfl, rfl, rfl, rfl, rfl, rfl, rfl⟩
  · rw [if_pos rfl]
    exact ⟨rfl, running, rfl, rfl, rfl, rfl, rfl, rfl, rfl⟩

theorem send_next (s : Sap) (f : List Int) (rest : List (List Int)) (some_ : s.fifo = f :: rest) (sync : s.resync = 0) :
    s.send = { s with fifo := rest, sent := f.map (slotOut s.fmt), sentMask := s.mask } := by
  unfold Sap.send
  rw [some_]
  exact if_pos sync

theorem send_standin (s : Sap) (no : s.fifo = [] ∨ s.resync ≠ 0) : s.send = { s with standin := cnt32 s.standin, sentMask := s.mask } := by
  unfold Sap.send
  cases fifo : s.fifo with
  | nil => rfl
  | cons f rest => exact if_neg (no.resolve_left (by rw [fifo]; exact List.cons_ne_nil _ _))

theorem send_parts (s : Sap) : s.send.started = s.started ∧ s.send.running = s.running ∧ s.send.sentMask = s.mask ∧ s.send.frameErr = s.frameErr := by
  unfold Sap.send
  split
  · split <;> exact ⟨rfl, rfl, rfl, rfl⟩
  · exact ⟨rfl, rfl, rfl, rfl⟩

/-- What comes at an output: its clocks are counted, and nothing is received. -/
theorem frameIn_output (s : Sap) (bits : List Bool) (clocks : Nat) (output : s.fmt.out = true) : s.frameIn bits clocks =
    { s with frameErr := if s.started = true ∧ ¬(s.fmt.master = true ∨ clocks = s.frameBits) then cnt32 s.frameErr else s.frameErr } := by
  by_cases started : s.started = true
  · by_cases right : s.fmt.master = true ∨ clocks = s.frameBits
    · rw [frameIn_right started right, if_pos output, if_neg fun c => c.2 right]
    · rw [frameIn_wrong started right, if_pos ⟨started, right⟩]
      exact if_pos (by rw [output]; rfl)
  · rw [frameIn_first (Bool.eq_false_iff.2 started), if_neg fun c => started c.1]

/-! ### Evaluation and slips -/

/-- A quotient brought to one of its two neighbouring integers. -/
theorem gridDiv_near (n d : Int) (up : Bool) (pos : 0 < d) : (gridDiv n d up - 1) * d < n ∧ n < (gridDiv n d up + 1) * d := by
  have split_ := Int.mul_ediv_add_emod n d
  have low := Int.emod_nonneg n (Int.ne_of_gt pos)
  have high := Int.emod_lt_of_pos n pos
  have down : (n / d - 1) * d = d * (n / d) - d := by grind
  have next : (n / d + 1) * d = d * (n / d) + d := by grind
  have after : (n / d + 1 + 1) * d = d * (n / d) + d + d := by grind
  have here : (n / d + 1 - 1) * d = d * (n / d) := by grind
  unfold gridDiv
  rw [Int.fdiv_eq_ediv_of_nonneg n (Int.le_of_lt pos)]
  split
  · omega
  · cases up
    · rw [if_neg Bool.false_ne_true, Int.add_zero]
      omega
    · rw [if_pos rfl, here, after]
      omega

theorem clampI_within (lo hi z : Int) (le : lo ≤ hi) : lo ≤ clampI lo hi z ∧ clampI lo hi z ≤ hi ∧
    (clampI lo hi z = hi ∨ clampI lo hi z = lo ∨ clampI lo hi z = z) := by
  unfold clampI
  split
  · exact ⟨Int.le_refl _, le, .inr (.inl rfl)⟩
  · split
    · exact ⟨le, Int.le_refl _, .inl rfl⟩
    · exact ⟨by omega, by omega, .inr (.inr rfl)⟩

/-- The phase of an evaluation as `num` over `den` in frames. -/
def phaseCode (num den : Int) (up : Bool) : Int := clampI (-128) 127 (gridDiv (32 * num) den up)

theorem phaseCode_near (num den : Int) (up : Bool) (nonneg : 0 ≤ den) : let ph := phaseCode num den up
    ph = 127 ∨ ph = -128 ∨ ((ph - 1) * den < 32 * num ∧ 32 * num < (ph + 1) * den) ∨ den = 0 := by
  obtain ⟨-, -, high | low | same⟩ := clampI_within (-128) 127 (gridDiv (32 * num) den up) (by decide)
  · exact .inl high
  · exact .inr (.inl low)
  · rcases Int.lt_or_eq_of_le nonneg with pos | zero
    · refine .inr (.inr (.inl ?_))
      rw [show phaseCode num den up = gridDiv (32 * num) den up from same]
      exact gridDiv_near _ _ up pos
    · exact .inr (.inr (.inr zero.symm))

theorem evaluate_some (s : Sap) (up : Bool) (z : Int) (waits : s.evalSum = some z) (en : s.fmt.en = true) (running : s.running = true) :
    let den : Int := (1024 * s.frameBits : Nat)
    let num := if s.fmt.out then 4 * den - z else z - 4 * den
    s.evaluate up = { s with
      evalSum := none, phase := phaseCode num den up, slipPend := if s.fmt.free || s.fmt.master then 0 else slipOf num den s.lastSlip } := by
  have sign (a b : Int) : -(a - b) = b - a := by omega
  unfold Sap.evaluate
  rw [waits]
  refine (if_pos (Bool.and_eq_true_iff.2 ⟨en, running⟩)).trans ?_
  dsimp only
  rw [sign]
  rfl

theorem evaluate_off (s : Sap) (up : Bool) (off : s.fmt.en = false ∨ s.running = false) : s.evaluate up = { s with evalSum := none } := by
  unfold Sap.evaluate
  split
  next none_ => rw [← none_]
  · refine if_neg fun c => ?_
    obtain ⟨en, running⟩ := Bool.and_eq_true_iff.1 c
    exact off.elim (fun h => Bool.noConfusion (h.symm.trans en)) (fun h => Bool.noConfusion (h.symm.trans running))

theorem evaluate_none (s : Sap) (up : Bool) (none_ : s.evalSum = none) : s.evaluate up = s := by
  unfold Sap.evaluate
  rw [none_]

/-! ### Slaves -/

/-- Whether a slave port's frames are awaited. -/
theorem awaited_iff (s : Sap) : (s.fmt.en && !s.fmt.master && s.started) = true ↔ s.fmt.en = true ∧ s.fmt.master = false ∧ s.started = true := by
  rw [Bool.and_eq_true, Bool.and_eq_true, Bool.not_eq_true', and_assoc]

theorem partnered_iff (d : Dev) (s : Sap) :
    (s.fmt.en && !s.fmt.master && !d.guard.audioReset) = true ↔ s.fmt.en = true ∧ s.fmt.master = false ∧ d.guard.audioReset = false := by
  rw [Bool.and_eq_true, Bool.and_eq_true, Bool.not_eq_true', Bool.not_eq_true', and_assoc]

/-- Settles O45: a frame by `sapFrameDev_input` and `send_next`, an evaluation by `evaluate_some` with `phaseCode_near`. -/
theorem serialPorts : Obligations.SerialPorts := by
  refine ⟨fun q d p bits clocks => ?_, fun q d p bclk mhz => ?_⟩
  · intro s put live right up go wrong slots run
    have input : ∀ t : Sap, SapLive d s → s.fmt.out = false → s.frameIn bits clocks = t → t.fmt = s.fmt → run = .next ⟨q, put (go (up t))⟩ := by
      intro t on out comes fmt
      have same : (Sap.up t).go (joinAcc d p.val) = go (up t) := go_input (Sap.up t) _ ((congrArg SapFmt.out fmt).trans out)
      exact next_congr ((sapFrameDev_input d p bits clocks t on out comes).trans (congrArg (putSap d p) same))
    have received : s.fmt.out = false → s.started = true → right → s.frameIn bits clocks = s.receive bits := fun out started r =>
      (frameIn_right started r).trans (if_neg (Bool.eq_false_iff.1 out))
    refine ⟨fun dead => next_congr (sapFrameDev_dead d p bits clocks dead), fun on out first => input s on out (frameIn_first first) rfl,
      fun on out started bad => input _ on out (frameIn_wrong started bad) (frameError_fmt s),
      fun on out started r none_ room => input _ on out ((received out started r).trans (receive_joins s bits none_ room)) rfl,
      fun on out started r none_ running full => next_congr ?_,
      fun on out started r owed => input _ on out ((received out started r).trans (receive_owed s bits owed)) rfl, fun on out => ?_,
      fun en master started => next_congr ?_, fun no => next_congr (sap_still d p _ (if_neg fun c => ?_))⟩
    · refine (sapFrameDev_input d p bits clocks _ on out ((received out started r).trans (receive_overrun s bits none_ ⟨running, full⟩))).trans ?_
      exact congrArg (putSap d p) (go_running (Sap.up { s with overruns := cnt32 s.overruns, resync := 4, fifo := [slots] }) _ running)
    · have output : (Sap.up (s.frameIn bits clocks)).fmt.out = true := (congrArg SapFmt.out (frameIn_fmt s bits clocks)).trans out
      obtain ⟨started, running, mask, frameErr, fifo, resync, sent, standin, fmt⟩ := go_output (Sap.up (s.frameIn bits clocks)) (joinAcc d p.val) output
      rw [frameIn_output s bits clocks out] at started mask frameErr fifo resync sent standin fmt
      have sends := sapFrameDev_live d p bits clocks on
      rw [frameIn_output s bits clocks out] at running sends
      dsimp only at sends
      generalize Sap.go _ _ = t at *
      rw [if_pos ((congrArg SapFmt.out fmt).trans out)] at sends
      obtain ⟨started', running', sentMask', frameErr'⟩ := send_parts t
      refine ⟨t.send, next_congr sends, started'.trans started, running'.trans running, sentMask'.trans mask, frameErr'.trans frameErr,
        fun f rest some_ sync => ?_, fun no => ?_⟩
      · rw [send_next t f rest (fifo.trans some_) (resync.trans sync), fmt]
        exact ⟨rfl, rfl, standin⟩
      · rw [send_standin t (no.imp fifo.trans fun h c => h (resync.symm.trans c))]
        exact ⟨fifo, sent, congrArg cnt32 standin⟩
    · refine (sap_eq d p _).trans (congrArg (putSap d p) (if_pos ((awaited_iff s).2 ⟨en, master, started⟩)))
    · obtain ⟨en, master, started⟩ := (awaited_iff s).1 c
      rcases no with h | h | h
      · exact Bool.noConfusion (h.symm.trans en)
      · exact Bool.noConfusion (h.symm.trans master)
      · exact Bool.noConfusion (h.symm.trans started)
  · intro s den put free slave
    have evaluated : ∀ t : Sap, s.evaluate (Config.freeBit d.free) = t → exec (.sapPhaseEval p) ⟨q, d⟩ = .next ⟨q, put free t⟩ := fun t h =>
      next_congr ((sap_eq d.tick p _).trans (congrArg (putSap d.tick p) h))
    refine ⟨fun z waits en running => ?_, fun off => evaluated _ (evaluate_off s _ off),
      fun none_ => (evaluated s (evaluate_none s _ none_)).trans (next_congr (putSap_self d.tick p)),
      fun due => next_congr ((sap_eq d p _).trans (congrArg (putSap d p) (if_pos due))),
      fun drop repeat_ => next_congr (sap_still d p _ (if_neg fun c => c.elim drop repeat_)),
      fun h => next_congr ((sap_eq d p _).trans (congrArg (putSap d p) (if_pos ((partnered_iff d s).2 h)))),
      fun h => next_congr (sap_still d p _ (if_neg fun c => h ((partnered_iff d s).1 c)))⟩
    intro num
    obtain ⟨low, high, -⟩ := clampI_within (-128) 127 (gridDiv (32 * num) den (Config.freeBit d.free)) (by decide)
    exact ⟨phaseCode num den (Config.freeBit d.free), low, high, evaluated _ (evaluate_some s _ z waits en running),
      phaseCode_near num den _ (Int.natCast_nonneg _)⟩

end Sys2Proof.Machine
end

section
/-!
PROOFS. Load measurement up to the sweep (R285 to R294): the start, the pre-check, the DC step and the cable.
-/

namespace Sys2Proof.Machine

/-! ### One measurement -/

theorem setMeas_meas (d : Dev) (c : Ch) (m : Meas) : (setMeas d c m).chs[c].meas = some m := by
  rw [setMeas, ch_get, if_pos rfl]

theorem setMeas_other (d : Dev) (c k : Ch) (m : Meas) (ne : k ≠ c) : (setMeas d c m).chs[k] = d.chs[k] := by
  rw [setMeas, ch_get, if_neg ne]

theorem setMeas_prot (d : Dev) (c k : Ch) (m : Meas) : (setMeas d c m).chs[k].prot = d.chs[k].prot ∧ (setMeas d c m).chs[k].mod = d.chs[k].mod ∧
    (setMeas d c m).chs[k].measClass = d.chs[k].measClass := by
  rw [setMeas, ch_get]
  split <;> exact ⟨rfl, rfl, rfl⟩

/-- A change of each half of a channel's pair, then of its measurement. -/
def pairMeas (d : Dev) (c : Ch) (f : Chan → Chan) (m : Meas) : Dev := setMeas (forCh (halves d c) (fun e h => e.ch h f) d) c m

theorem pairMeas_rest (d : Dev) (c : Ch) (f : Chan → Chan) (m : Meas) : pairMeas d c f m = { d with chs := (pairMeas d c f m).chs } := by
  unfold pairMeas setMeas
  rw [forCh_ch_only (fun _ => f)]
  rfl

theorem pairMeas_half (d : Dev) (c h : Ch) (f : Chan → Chan) (m : Meas) (mem : h ∈ halves d c) :
    (pairMeas d c f m).chs[h].prot = (f d.chs[h]).prot ∧ (pairMeas d c f m).chs[h].mod = (f d.chs[h]).mod ∧
      (pairMeas d c f m).chs[h].measClass = (f d.chs[h]).measClass := by
  obtain ⟨prot, mod, measClass⟩ := setMeas_prot (forCh (halves d c) (fun e h => e.ch h f) d) c h m
  rw [forCh_ch_get (fun _ => f) _ _ (halves_nodup d c), if_pos mem] at prot mod measClass
  exact ⟨prot, mod, measClass⟩

theorem pairMeas_other (d : Dev) (c k : Ch) (f : Chan → Chan) (m : Meas) (out : k ∉ halves d c) : (pairMeas d c f m).chs[k] = d.chs[k] := by
  refine (setMeas_other _ c k m fun same => out (same ▸ halves_self d c)).trans ?_
  rw [forCh_ch_get (fun _ => f) _ _ (halves_nodup d c), if_neg out]

/-! ### MEASURE_LOAD -/

/-- Whether MEASURE_LOAD finds a channel in use or something of R193 in its way. -/
def measBusy (d : Dev) (c : Ch) : Bool :=
  ((halves d c).any fun h => d.chs[h].prot.released || d.chs[h].mod.halted || inStop d.chs[h] || decide (d.chs[h].prot.drive ≠ .off))
    || d.chs[c].meas.isSome || clearRefused d c

theorem measBusy_iff (d : Dev) (c : Ch) : measBusy d c = true ↔
    (∃ h ∈ halves d c, d.chs[h].prot.released = true ∨ d.chs[h].mod.halted = true ∨ inStop d.chs[h] = true ∨ d.chs[h].prot.drive ≠ .off) ∨
      d.chs[c].meas ≠ none ∨ clearRefused d c = true := by
  rw [measBusy, Bool.or_eq_true, Bool.or_eq_true, List.any_eq_true, Option.isSome_iff_ne_none, or_assoc]
  simp only [Bool.or_eq_true, decide_eq_true_eq, or_assoc]

/-- Whether the steps and the channel fit each other in the image in force. -/
def measFits (d : Dev) (c : Ch) (st : Nat) (img : Image) : Bool :=
  !(oddHalf d c || (bit st 1 && !d.power[tileOf c].senseRemote) || (bit st 2 && !innerAwl img c))

theorem measFits_iff (d : Dev) (c : Ch) (st : Nat) (img : Image) : measFits d c st img = true ↔
    oddHalf d c = false ∧ (bit st 1 = true → d.power[tileOf c].senseRemote = true) ∧ (bit st 2 = true → innerAwl img c = true) := by
  unfold measFits
  cases oddHalf d c <;> cases bit st 1 <;> cases d.power[tileOf c].senseRemote <;> cases bit st 2 <;> cases innerAwl img c <;> simp

/-- The capture units a measurement holds. -/
def holdCaps (a : Awl) (c : Ch) (us : List Nat) : Awl :=
  { a with caps := tab a.caps fun i u => if (us.drop 2).contains i.val then { u with heldBy := some c.val } else u }

section
variable {d : Dev} {r : CmdRef} {c : Ch} {st : Nat}

theorem doMeasure_bad (bad : ¬(stepsOk st = true ∧ 1152 ≤ r.len)) : doMeasure d r c st = complete d r opMeasure stField measNone 0 := by
  refine if_pos ?_
  rw [Bool.or_eq_true, Bool.not_eq_true', decide_eq_true_eq]
  by_cases steps : stepsOk st = true
  · exact .inr (Nat.lt_of_not_le fun room => bad ⟨steps, room⟩)
  · exact .inl (Bool.eq_false_iff.2 steps)

variable (whole : stepsOk st = true ∧ 1152 ≤ r.len)
include whole

theorem doMeasure_whole (u v : Dev) : (if !stepsOk st || decide (r.len < 1152) then u else v) = v := by
  refine if_neg fun c => ?_
  rw [Bool.or_eq_true, Bool.not_eq_true', decide_eq_true_eq, whole.1] at c
  exact c.elim Bool.noConfusion (Nat.not_lt.2 whole.2)

theorem doMeasure_closed (closed : hostClosed d = true ∨ d.core.image = none) :
    doMeasure d r c st = complete d r opMeasure stNotReady measNone 0 := by
  refine (doMeasure_whole whole _ _).trans ?_
  by_cases host : hostClosed d = true
  · exact if_pos host
  · rw [if_neg host, closed.resolve_left host]

variable {img : Image} (open_ : hostClosed d = false ∧ d.core.image = some img)
include open_

theorem doMeasure_open : doMeasure d r c st =
    if !measFits d c st img then complete d r opMeasure stField measNone 0
    else if (halves d c).any fun h => d.chs[h].prot.latched then complete d r opMeasure stLatched measNone 0
    else if measBusy d c then complete d r opMeasure stNotReady measNone 0
    else match measUnits d st with
      | none => complete d r opMeasure stNotReady measNone 0
      | some us => setMeas { d with awl := holdCaps d.awl c us } c (Meas.start r st d.tb.stc us) := by
  refine (doMeasure_whole whole _ _).trans ((if_neg (Bool.eq_false_iff.1 open_.1)).trans ?_)
  rw [open_.2, measFits, Bool.not_not]
  rfl

theorem doMeasure_unfit (unfit : measFits d c st img = false) : doMeasure d r c st = complete d r opMeasure stField measNone 0 :=
  (doMeasure_open whole open_).trans (if_pos (by rw [unfit]; rfl))

variable (fits : measFits d c st img = true)
include fits

theorem doMeasure_latched (latched : ∃ h ∈ halves d c, d.chs[h].prot.latched = true) :
    doMeasure d r c st = complete d r opMeasure stLatched measNone 0 :=
  (doMeasure_open whole open_).trans ((if_neg (by rw [fits]; exact Bool.false_ne_true)).trans (if_pos (List.any_eq_true.2 latched)))

variable (clear : ¬∃ h ∈ halves d c, d.chs[h].prot.latched = true)
include clear

theorem doMeasure_clear : doMeasure d r c st = if measBusy d c then complete d r opMeasure stNotReady measNone 0
    else match measUnits d st with
      | none => complete d r opMeasure stNotReady measNone 0
      | some us => setMeas { d with awl := holdCaps d.awl c us } c (Meas.start r st d.tb.stc us) :=
  (doMeasure_open whole open_).trans ((if_neg (by rw [fits]; exact Bool.false_ne_true)).trans (if_neg fun any => clear (List.any_eq_true.1 any)))

theorem doMeasure_busy (busy : measBusy d c = true ∨ measUnits d st = none) : doMeasure d r c st = complete d r opMeasure stNotReady measNone 0 := by
  rw [doMeasure_clear whole open_ fits clear]
  by_cases held : measBusy d c = true
  · exact if_pos held
  · rw [if_neg held, busy.resolve_left held]

theorem doMeasure_starts (us : List Nat) (idle : ¬measBusy d c = true) (units : measUnits d st = some us) :
    doMeasure d r c st = setMeas { d with awl := holdCaps d.awl c us } c (Meas.start r st d.tb.stc us) := by
  rw [doMeasure_clear whole open_ fits clear, if_neg idle, units]

end

/-! ### The pre-check -/

theorem precheckEnd_ends (d : Dev) (c : Ch) (m : Meas) (runs : d.chs[c].meas = some m) (step : m.step = 1) (over_ : 960 ≤ m.fi) :
    precheckEnd d c = if m.driven then setMeas d c ({ m with cls := 3 }.toResult stSuccess)
      else if bit m.steps 0 then pairMeas d c (fun x => { x with prot := { x.prot with drive := .measure, ssCount := 0 } }) (m.toStep 2)
      else if bit m.steps 5 then setMeas d c (m.toStep 6)
      else setMeas d c (m.toResult stSuccess) := by
  unfold precheckEnd
  rw [runs]
  exact if_neg (by omega)

theorem precheckEnd_still (d : Dev) (c : Ch) (no : ∀ m ∈ d.chs[c].meas, m.step ≠ 1 ∨ m.fi < 960) : precheckEnd d c = d := by
  unfold precheckEnd
  cases runs : d.chs[c].meas with
  | none => rfl
  | some m => exact if_pos (no m runs)

/-- Settles O46: the checks of `doMeasure` in their order, and the end of the pre-check by `precheckEnd_ends`. -/
theorem measurementStarts : Obligations.MeasurementStarts := by
  intro q d r c st img run ends whole open_ fits latched busy pair
  have fits_iff : measFits d c st.toNat img = true ↔ fits := measFits_iff d c st.toNat img
  have busy_iff : busy ↔ measBusy d c = true ∨ measUnits d st.toNat = none := by
    rw [measBusy_iff, or_assoc, or_assoc]
  have unbusy : ¬busy → ¬measBusy d c = true := fun idle held => idle (busy_iff.2 (.inl held))
  refine ⟨fun us w o f clear idle units => ⟨_, next_congr (doMeasure_starts w o (fits_iff.2 f) clear us (unbusy idle) units), rfl,
      fun k ne => setMeas_other _ c k _ ne, ?_, fun k => ?_⟩,
    fun bad => next_congr (doMeasure_bad bad), fun w closed => next_congr (doMeasure_closed w closed),
    fun w o unfit => next_congr (doMeasure_unfit w o (Bool.eq_false_iff.2 (mt fits_iff.1 unfit))),
    fun w o f h => next_congr (doMeasure_latched w o (fits_iff.2 f) h),
    fun w o f clear h => next_congr (doMeasure_busy w o (fits_iff.2 f) clear (busy_iff.1 h)), fun m runs step due => ?_,
    fun no => next_congr (precheckEnd_still d c no)⟩
  · rw [setMeas, ch_get, if_pos rfl]
  · refine (tab_get d.awl.caps _ k).trans ?_
    simp only [List.contains_iff_mem]
  · have ended := precheckEnd_ends d c m runs step due
    refine ⟨fun driven => next_congr (ended.trans (if_pos driven)), fun free dc => next_congr ?_, fun free none_ delete => next_congr ?_,
      fun free none_ keep => next_congr ?_⟩
    · exact ended.trans ((if_neg (Bool.eq_false_iff.1 free)).trans (if_pos dc))
    · exact ended.trans ((if_neg (Bool.eq_false_iff.1 free)).trans ((if_neg (Bool.eq_false_iff.1 none_)).trans (if_pos delete)))
    · exact ended.trans ((if_neg (Bool.eq_false_iff.1 free)).trans
        ((if_neg (Bool.eq_false_iff.1 none_)).trans (if_neg (Bool.eq_false_iff.1 keep))))

end Sys2Proof.Machine
end

section
/-!
PROOFS. The DC step and the cable of a load measurement (R289, R291 to R294).
-/

namespace Sys2Proof.Machine

/-! ### The values that classify a load -/

theorem ratAbs_lt (r q : Rat) : ratAbs r < q ↔ r < q ∧ -r < q := by
  unfold ratAbs
  split <;> grind

theorem lt_ratAbs (r q : Rat) : q < ratAbs r ↔ q < r ∨ q < -r := by
  unfold ratAbs
  split <;> grind

/-- The mean of a sum of currents in A. -/
theorem meanA_some (s : Int) (n : Nat) (some_ : 0 < n) : meanA s n = (s : Rat) * 10 / (8388608 * n) ∧ (0 : Rat) < 8388608 * n :=
  ⟨if_neg (Nat.ne_of_gt some_), Rat.mul_pos (by decide) (Rat.natCast_pos.2 some_)⟩

theorem meanA_neg (s : Int) (n : Nat) (some_ : 0 < n) : -meanA s n = meanA (-s) n := by
  rw [(meanA_some s n some_).1, (meanA_some (-s) n some_).1, Rat.intCast_neg]
  grind

/-- A mean below 0.5 mA, by its sum. -/
theorem meanA_lt (s : Int) (n : Nat) (some_ : 0 < n) : meanA s n < 1 / 2000 ↔ 20000 * s < n * 8388608 := by
  obtain ⟨eq, pos⟩ := meanA_some s n some_
  have sum : (20000 : Rat) * s < n * 8388608 ↔ 20000 * s < n * 8388608 := by
    rw [← Rat.intCast_lt_intCast, Rat.intCast_mul, Rat.intCast_mul, Rat.intCast_natCast, Rat.intCast_ofNat, Rat.intCast_ofNat]
  rw [eq, Rat.div_lt_iff pos, ← sum]
  constructor <;> intro h <;> grind

/-- A mean above 0.1 A, by its sum. -/
theorem lt_meanA (s : Int) (n : Nat) (some_ : 0 < n) : 1 / 10 < meanA s n ↔ n * 8388608 < 100 * s := by
  obtain ⟨eq, pos⟩ := meanA_some s n some_
  have sum : (n : Rat) * 8388608 < 100 * s ↔ n * 8388608 < 100 * s := by
    rw [← Rat.intCast_lt_intCast, Rat.intCast_mul, Rat.intCast_mul, Rat.intCast_natCast, Rat.intCast_ofNat, Rat.intCast_ofNat]
  rw [eq, Rat.lt_div_iff pos, ← sum]
  constructor <;> intro h <;> grind

/-- A current under 0.5 mA. -/
theorem meanA_small (s : Int) (n : Nat) : ratAbs (meanA s n) < 1 / 2000 ↔ n = 0 ∨ 20000 * s.natAbs < n * 2 ^ 23 := by
  rcases Nat.eq_zero_or_pos n with none_ | some_
  · have zero : meanA s n = 0 := if_pos none_
    rw [zero, ratAbs_lt]
    exact iff_of_true (by grind) (.inl none_)
  · rw [ratAbs_lt, meanA_neg s n some_, meanA_lt s n some_, meanA_lt (-s) n some_]
    omega

/-- A current above 0.1 A. -/
theorem meanA_large (s : Int) (n : Nat) (some_ : 0 < n) : 1 / 10 < ratAbs (meanA s n) ↔ n * 2 ^ 23 < 100 * s.natAbs := by
  rw [lt_ratAbs, meanA_neg s n some_, lt_meanA s n some_, lt_meanA (-s) n some_]
  omega

theorem ohms_none (v : Int) : ohms v 0 = none := if_pos (Rat.zero_mul _)

theorem ohms_some (v i : Int) (some_ : i ≠ 0) : ohms v i = some ((v : Rat) * 24 / (i * 10)) := 
  if_neg fun zero => some_ (Rat.intCast_eq_zero_iff.1 ((Rat.mul_eq_zero.1 zero).resolve_right (by decide)))

/-- A resistance of V over I below or above a bound: none without a current. -/
theorem ohms_any (v i : Int) (p : Rat → Bool) : (match ohms v i with | some r => p r | none => false) = true ↔
    i ≠ 0 ∧ p ((v : Rat) * 24 / (i * 10)) = true := by
  by_cases none_ : i = 0
  · rw [none_, ohms_none]
    simp
  · rw [ohms_some v i none_]
    simp [none_]

/-- The class of the DC step by the sums of V and I. -/
theorem classOf_cases (v i : Int) (n : Nat) (trip : Bool) (low high : Prop) [Decidable (trip = true ∨ low)] [Decidable high]
    (lows : low ↔ i ≠ 0 ∧ (v : Rat) * 24 / (i * 10) < 1)
    (highs : high ↔ n = 0 ∨ 20000 * i.natAbs < n * 2 ^ 23 ∨ (i ≠ 0 ∧ 200 < (v : Rat) * 24 / (i * 10))) :
    classOf (ohms v i) (meanA i n) trip = if trip = true ∨ low then 1 else if high then 2 else 0 := by
  have below := ohms_any v i fun r => decide (r < 1)
  have above := ohms_any v i fun r => decide (200 < r)
  rw [decide_eq_true_eq] at below above
  unfold classOf
  refine (ite_of_iff ?_ _ _).trans (congrArg (ite _ _) (ite_of_iff ?_ _ _))
  · rw [Bool.or_eq_true, lows]
    exact or_congr_right below
  · rw [Bool.or_eq_true, decide_eq_true_eq, meanA_small, highs, or_comm, or_assoc]
    exact or_congr_right (or_congr_right above)

/-! ### A step that ends -/

/-- The part `u` after a step of channel `c`'s measurement on `e`, its measurement now `n`. -/
def StepTo (e : Dev) (c : Ch) (u : Dev) (n : Meas) : Prop :=
  u.chs[c].meas = some n ∧ u.chs[c].measClass = e.chs[c].measClass ∧ (∀ k : Ch, k ∉ halves e c → u.chs[k] = e.chs[k]) ∧
    u = { e with chs := u.chs }

theorem setMeas_stepTo (e : Dev) (c : Ch) (n : Meas) : StepTo e c (setMeas e c n) n :=
  ⟨setMeas_meas e c n, (setMeas_prot e c c n).2.2, fun k out => setMeas_other e c k n fun same => out (same ▸ halves_self e c), rfl⟩

theorem pairMeas_stepTo (e : Dev) (c : Ch) (f : Chan → Chan) (n : Meas) (keeps : ∀ x, (f x).measClass = x.measClass) :
    StepTo e c (pairMeas e c f n) n :=
  ⟨setMeas_meas _ c n, (pairMeas_half e c c f n (halves_self e c)).2.2.trans (keeps _), fun k out => pairMeas_other e c k f n out,
    pairMeas_rest e c f n⟩

/-- Switching ends: each half counts its periods at half duty from 0. -/
def HalfDuty (u : Dev) (l : List Ch) (n : Meas) : Prop := n.step = 7 ∧ ∀ h ∈ l, u.chs[h].prot.ssCount = 0 ∧ u.chs[h].prot.sweep = false

/-- The sweep starts on each half. -/
def Sweeping (u : Dev) (l : List Ch) (n : Meas) : Prop := n.step = 4 ∧ n.point = 0 ∧ n.fi = 0 ∧ ∀ h ∈ l, u.chs[h].prot.sweep = true

theorem measEnding_ends (e : Dev) (c : Ch) (m : Meas) :
    StepTo e c (measEnding e c m) { m with step := 7 } ∧ HalfDuty (measEnding e c m) (halves e c) { m with step := 7 } := by
  refine ⟨pairMeas_stepTo e c (fun x => { x with prot := { x.prot with ssCount := 0, sweep := false } }) _ fun _ => rfl, rfl, fun h mem => ?_⟩
  have prot := (pairMeas_half e c h (fun x => { x with prot := { x.prot with ssCount := 0, sweep := false } }) { m with step := 7 } mem).1
  exact ⟨congrArg Prot.ssCount prot, congrArg Prot.sweep prot⟩

theorem startSweep_starts (e : Dev) (c : Ch) (m : Meas) : StepTo e c (startSweep e c m) { m.toStep 4 with point := 0 } ∧
    Sweeping (startSweep e c m) (halves e c) { m.toStep 4 with point := 0 } := by
  refine ⟨pairMeas_stepTo e c (fun x => { x with prot := { x.prot with sweep := true } }) _ fun _ => rfl, rfl, rfl, rfl, fun h mem => ?_⟩
  exact congrArg Prot.sweep (pairMeas_half e c h (fun x => { x with prot := { x.prot with sweep := true } }) { m.toStep 4 with point := 0 } mem).1

/-! ### The DC step -/

/-- A measurement with the results of its DC step. -/
def dcMeas (d : Dev) (c : Ch) (m : Meas) : Meas :=
  { m with
    done := m.done ||| 1
    cls := classOf (ohms m.sumV m.sumI) (meanA m.sumI m.cnt) m.tripped
    mismatch := match ohms m.sumV m.sumI with | some x => mismatched d c x | none => false
    rdc := resField 32 ((ohms m.sumV m.sumI).map (· * 1000000)) d.free
    idc := resField 32 (some (meanA m.sumI m.cnt * 1000000)) (d.free + 1) }

/-- The part with the class of the DC step. -/
def dcDev (d : Dev) (c : Ch) (m : Meas) : Dev :=
  ((if (dcMeas d c m).mismatch then setMismatch d c else d).ticks 2).ch c fun x => { x with measClass := (dcMeas d c m).cls }

theorem dcEnd_ends (d : Dev) (c : Ch) (m : Meas) (runs : d.chs[c].meas = some m) (step : m.step = 2) (due : 1920 ≤ m.fi) :
    dcEnd d c = if (dcMeas d c m).cls ≠ 0 then measEnding (dcDev d c m) c (dcMeas d c m)
      else if bit m.steps 1 then setMeas (dcDev d c m) c ((dcMeas d c m).toStep 3)
      else if bit m.steps 2 then startSweep (dcDev d c m) c (dcMeas d c m)
      else measEnding (dcDev d c m) c (dcMeas d c m) := by
  unfold dcEnd
  rw [runs]
  exact if_neg (by omega)

theorem dcEnd_still (d : Dev) (c : Ch) (m : Meas) (runs : d.chs[c].meas = some m) (no : m.step ≠ 2 ∨ m.fi < 1920) : dcEnd d c = d := by
  unfold dcEnd
  rw [runs]
  exact if_pos no

/-- A write of the part's own is a matter of the stewards and, outside its window, of the Shank's event. -/
theorem nvOwn_frame (d : Dev) (j : NvJob) : let u := nvOwn d j
    u = { d with admin := u.admin, shank := u.shank, qif := u.qif } := by
  cases h : nvOpen d
  · exact (nvOwn_closed d j h).1
  · rw [nvOwn_open d j h]

/-- The mismatch flag goes into the load record, and nowhere in the audio domain. -/
theorem setMismatch_same (d : Dev) (c : Ch) : let u := setMismatch d c
    u.tb = d.tb ∧ u.rails = d.rails ∧ u.power = d.power ∧ u.chs = d.chs := by
  have own : ∀ (e : Dev) (j : NvJob), e.tb = d.tb ∧ e.rails = d.rails ∧ e.power = d.power ∧ e.chs = d.chs → let u := nvOwn e j
      u.tb = d.tb ∧ u.rails = d.rails ∧ u.power = d.power ∧ u.chs = d.chs := by
    intro e j same
    have frame := nvOwn_frame e j
    dsimp only at frame ⊢
    rw [frame]
    exact same
  unfold setMismatch
  split
  · exact ⟨rfl, rfl, rfl, rfl⟩
  · split
    · exact ⟨rfl, rfl, rfl, rfl⟩
    · refine own _ _ ?_
      split <;> exact ⟨rfl, rfl, rfl, rfl⟩

theorem dcDev_parts (d : Dev) (c : Ch) (m : Meas) : let e := dcDev d c m
    e.tb = d.tb ∧ e.rails = d.rails ∧ e.power = d.power ∧ halves e c = halves d c ∧ e.chs[c].measClass = (dcMeas d c m).cls ∧
      ∀ k : Ch, k ≠ c → e.chs[k] = d.chs[k] := by
  have noted : ∀ b : Bool, let e := ((if b then setMismatch d c else d).ticks 2)
      e.tb = d.tb ∧ e.rails = d.rails ∧ e.power = d.power ∧ e.chs = d.chs := by
    intro b
    cases b
    · exact ⟨rfl, rfl, rfl, rfl⟩
    · exact setMismatch_same d c
  obtain ⟨tb, rails, power, chs⟩ := noted (dcMeas d c m).mismatch
  unfold dcDev
  generalize Dev.ticks _ 2 = e at *
  refine ⟨tb, rails, power, halves_of_cfg ?_, ?_, fun k ne => ?_⟩
  · rw [ch_get, if_pos rfl, chs]
  · rw [ch_get, if_pos rfl]
  · rw [ch_get, if_neg ne, chs]

/-! ### The cable -/

/-- Whether the cable step has no length to give: more than 0.1 A, or no declared cable (R294). -/
def cableBad (d : Dev) (c : Ch) (m : Meas) : Bool := decide (1 / 10 < ratAbs (meanA m.sumI m.cnt)) || decide (d.chs[c].cfg.cableR = 0)

/-- The cable's resistance, no less than 0. -/
def cableR (d : Dev) (c : Ch) (m : Meas) : Option Rat := (cableOhms d c m).map (ratMax 0)

/-- A measurement with the results of its cable step. -/
def cableMeas (d : Dev) (c : Ch) (m : Meas) : Meas :=
  { m with
    done := m.done ||| 2
    rcable := resField 32 ((cableR d c m).map (· * 1000000)) d.free
    length := if cableBad d c m then 0xFFFFFFFF
      else resField 32 ((cableR d c m).bind fun y => quot (y * 1000000000) d.chs[c].cfg.cableR) (d.free + 1)
    cableValid := !cableBad d c m }

theorem cableEnd_ends (d : Dev) (c : Ch) (m : Meas) (runs : d.chs[c].meas = some m) (step : m.step = 3) (due : 2880 ≤ m.fi) :
    cableEnd d c = if bit m.steps 2 then startSweep (d.ticks 2) c (cableMeas d c m) else measEnding (d.ticks 2) c (cableMeas d c m) := by
  unfold cableEnd
  rw [runs]
  exact if_neg (by omega)

theorem cableEnd_still (d : Dev) (c : Ch) (m : Meas) (runs : d.chs[c].meas = some m) (no : m.step ≠ 3 ∨ m.fi < 2880) : cableEnd d c = d := by
  unfold cableEnd
  rw [runs]
  exact if_pos no

theorem cableMeas_bad (d : Dev) (c : Ch) (m : Meas) (bad : cableBad d c m = true) :
    (cableMeas d c m).cableValid = false ∧ (cableMeas d c m).length = 0xFFFFFFFF := by
  rw [cableMeas, bad]
  exact ⟨rfl, rfl⟩

theorem cableBad_current (d : Dev) (c : Ch) (m : Meas) (some_ : 0 < m.cnt) (large : m.cnt * 2 ^ 23 < 100 * m.sumI.natAbs) : cableBad d c m = true :=
  Bool.or_eq_true_iff.2 (.inl (decide_eq_true ((meanA_large m.sumI m.cnt some_).2 large)))

theorem cableBad_none (d : Dev) (c : Ch) (m : Meas) (none_ : d.chs[c].cfg.cableR = 0) : cableBad d c m = true :=
  Bool.or_eq_true_iff.2 (.inr (decide_eq_true none_))

theorem cableBad_good (d : Dev) (c : Ch) (m : Meas) (small : m.cnt * 2 ^ 23 ≥ 100 * m.sumI.natAbs) (declared : d.chs[c].cfg.cableR ≠ 0) :
    cableBad d c m = false := by
  refine Bool.or_eq_false_iff.2 ⟨decide_eq_false fun large => ?_, decide_eq_false declared⟩
  rcases Nat.eq_zero_or_pos m.cnt with none_ | some_
  · rw [meanA, if_pos none_] at large
    exact absurd ((lt_ratAbs 0 _).1 large) (by grind)
  · exact absurd ((meanA_large m.sumI m.cnt some_).1 large) (Nat.not_lt.2 small)

/-- Settles O47: the class by `classOf_cases`, what follows by `measEnding_ends` and `startSweep_starts`. -/
theorem measurementDcAndCable : Obligations.MeasurementDcAndCable := by
  intro q d c m runs i low high cls ending sweeps
  refine ⟨fun step due => ?_, fun no => next_congr (dcEnd_still d c m runs no), fun step due => ?_,
    fun no => next_congr (cableEnd_still d c m runs no)⟩
  · have ended := dcEnd_ends d c m runs step due
    have class_ : (dcMeas d c m).cls = cls := classOf_cases m.sumV m.sumI m.cnt m.tripped low high Iff.rfl Iff.rfl
    obtain ⟨tb, rails, power, pair, measClass, others⟩ := dcDev_parts d c m
    rw [class_] at ended measClass
    have from_ : ∀ (u : Dev) (n : Meas), StepTo (dcDev d c m) c u n → u.chs[c].meas = some n ∧ u.chs[c].measClass = cls ∧ u.tb = d.tb ∧
        u.rails = d.rails ∧ u.power = d.power ∧ ∀ k : Ch, k ∉ halves d c → u.chs[k] = d.chs[k] := by
      intro u n ⟨meas, same, out, rest⟩
      refine ⟨meas, same.trans measClass, (congrArg Dev.tb rest).trans tb, (congrArg Dev.rails rest).trans rails,
        (congrArg Dev.power rest).trans power, fun k far => (out k (pair ▸ far)).trans (others k fun own => far (own ▸ halves_self d c))⟩
    have finish := measEnding_ends (dcDev d c m) c (dcMeas d c m)
    have sweep := startSweep_starts (dcDev d c m) c (dcMeas d c m)
    rw [pair] at finish sweep
    by_cases normal : cls = 0
    · rw [if_neg (not_not_intro normal)] at ended
      by_cases cable : m.steps.testBit 1 = true
      · obtain ⟨meas, same, tb', rails', power', out⟩ := from_ _ _ (setMeas_stepTo (dcDev d c m) c ((dcMeas d c m).toStep 3))
        exact ⟨_, _, next_congr (ended.trans (if_pos cable)), meas, class_, same, rfl, rfl, rfl, tb', rails', power', out,
          fun h => absurd normal h, fun _ _ => ⟨rfl, rfl, rfl, rfl⟩, fun _ h => absurd (cable.symm.trans h) nofun,
          fun _ h => absurd (cable.symm.trans h) nofun⟩
      · have ended := ended.trans (if_neg cable)
        by_cases more : m.steps.testBit 2 = true
        · obtain ⟨meas, same, tb', rails', power', out⟩ := from_ _ _ sweep.1
          exact ⟨_, _, next_congr (ended.trans (if_pos more)), meas, class_, same, rfl, rfl, rfl, tb', rails', power', out,
            fun h => absurd normal h, fun _ h => absurd h cable, fun _ _ _ => sweep.2, fun _ _ h => absurd (more.symm.trans h) nofun⟩
        · obtain ⟨meas, same, tb', rails', power', out⟩ := from_ _ _ finish.1
          exact ⟨_, _, next_congr (ended.trans (if_neg more)), meas, class_, same, rfl, rfl, rfl, tb', rails', power', out,
            fun _ => finish.2, fun _ h => absurd h cable, fun _ _ h => absurd h more, fun _ _ _ => finish.2⟩
    · obtain ⟨meas, same, tb', rails', power', out⟩ := from_ _ _ finish.1
      exact ⟨_, _, next_congr (ended.trans (if_pos normal)), meas, class_, same, rfl, rfl, rfl, tb', rails', power', out,
        fun _ => finish.2, fun h => absurd h normal, fun h => absurd h normal, fun h => absurd h normal⟩
  · have ended := cableEnd_ends d c m runs step due
    have results : ∀ n : Meas, n.cableValid = (cableMeas d c m).cableValid → n.length = (cableMeas d c m).length →
        (0 < m.cnt → m.cnt * 2 ^ 23 < 100 * i → n.cableValid = false ∧ n.length = 0xFFFFFFFF) ∧
        (d.chs[c].cfg.cableR = 0 → n.cableValid = false ∧ n.length = 0xFFFFFFFF) ∧
        (m.cnt * 2 ^ 23 ≥ 100 * i → d.chs[c].cfg.cableR ≠ 0 → n.cableValid = true) := by
      intro n valid length
      rw [valid, length]
      refine ⟨fun some_ large => cableMeas_bad d c m (cableBad_current d c m some_ large), fun none_ => cableMeas_bad d c m (cableBad_none d c m none_),
        fun small declared => ?_⟩
      rw [cableMeas, cableBad_good d c m small declared]
      rfl
    by_cases more : m.steps.testBit 2 = true
    · obtain ⟨⟨meas, -, out, rest⟩, sweep⟩ := startSweep_starts (d.ticks 2) c (cableMeas d c m)
      obtain ⟨large, none_, good⟩ := results { (cableMeas d c m).toStep 4 with point := 0 } rfl rfl
      exact ⟨_, _, next_congr (ended.trans (if_pos more)), rest, out, meas, rfl, large, none_, good, fun _ => sweep,
        fun h => absurd (more.symm.trans h) nofun⟩
    · obtain ⟨⟨meas, -, out, rest⟩, finish⟩ := measEnding_ends (d.ticks 2) c (cableMeas d c m)
      obtain ⟨large, none_, good⟩ := results { cableMeas d c m with step := 7 } rfl rfl
      exact ⟨_, _, next_congr (ended.trans (if_neg more)), rest, out, meas, rfl, large, none_, good, fun h => absurd h more, fun _ => finish⟩

end Sys2Proof.Machine
end

section
/-!
PROOFS. The sweep, the end at half duty, the fit, the load records and the result of a measurement, and the measurement of the supply (R289, R297 to
R304, R309 to R312).
-/

namespace Sys2Proof.Machine

/-! ### Sweep points -/

/-- A tone with the five units of its sweep starts the point's count anew. -/
theorem startTone_units (d : Dev) (c : Ch) (m : Meas) (units : m.units.length = 5) :
    ∃ a : Awl, startTone d c m = setMeas { d.tick with awl := a } c { m with fi := 0, tripped := false } := by
  obtain ⟨g, t, u0, u1, u2, eq⟩ : ∃ g t u0 u1 u2 : Nat, m.units = [g, t, u0, u1, u2] := by
    match m.units, units with
    | [g, t, u0, u1, u2], _ => exact ⟨g, t, u0, u1, u2, rfl⟩
  unfold startTone
  rw [eq]
  exact ⟨_, rfl⟩

/-- Whether the present tone has settled and been measured. -/
def ToneDone (d : Dev) (m : Meas) : Prop :=
  m.step = 4 ∧ toneOn d m = true ∧ settleFi d.tb.n (toneDelta d.tb.n m.point) + measureFi d.tb.n (toneDelta d.tb.n m.point) ≤ m.fi

theorem toneDone_not (d : Dev) (m : Meas) : ¬ToneDone d m ↔ m.step ≠ 4 ∨ toneOn d m = false ∨
    m.fi < settleFi d.tb.n (toneDelta d.tb.n m.point) + measureFi d.tb.n (toneDelta d.tb.n m.point) := by
  rw [ToneDone, Classical.not_and_iff_not_or_not, Classical.not_and_iff_not_or_not, Bool.not_eq_true, Nat.not_le]

theorem pointEnd_still (d : Dev) (c : Ch) (m : Meas) (runs : d.chs[c].meas = some m) (no : ¬ToneDone d m) : pointEnd d c = d := by
  unfold pointEnd
  rw [runs]
  exact if_pos ((toneDone_not d m).1 no)

/-- A measurement with one more point of its sweep. -/
def addPoint (d : Dev) (c : Ch) (m : Meas) : Meas := { m with points := m.points ++ [sweepPoint d c m] }

theorem pointEnd_ends (d : Dev) (c : Ch) (m : Meas) (runs : d.chs[c].meas = some m) (done : ToneDone d m) :
    pointEnd d c = if m.point < 63 then startTone (d.ticks 5) c { addPoint d c m with point := m.point + 1 }
      else measEnding (sweepUnitsOff (d.ticks 5) c (addPoint d c m)) c { addPoint d c m with done := m.done ||| 4 } := by
  unfold pointEnd
  rw [runs]
  exact if_neg fun no => (toneDone_not d m).2 no done

/-- What changes in the channels alone, on a part that differs in its Awl and free values, changes in those three alone. -/
theorem chs_awl_free (d u : Dev) (a : Awl) (n : Nat) (rest : u = { { d with awl := a, free := n } with chs := u.chs }) :
    u = { d with chs := u.chs, awl := u.awl, free := u.free } := by
  have awl := congrArg Dev.awl rest
  have free := congrArg Dev.free rest
  dsimp only at awl free
  rw [awl, free]
  exact rest

/-! ### The end at half duty -/

/-- Whether every half has run its 16 periods at half duty. -/
def HalfDutyDone (d : Dev) (c : Ch) (m : Meas) : Prop := m.step = 7 ∧ ∀ h ∈ halves d c, 16 ≤ d.chs[h].prot.ssCount

theorem halfDutyDone_not (d : Dev) (c : Ch) (m : Meas) : ¬HalfDutyDone d c m ↔
    m.step ≠ 7 ∨ (!(halves d c).all fun h => decide (16 ≤ d.chs[h].prot.ssCount)) = true := by
  rw [HalfDutyDone, Classical.not_and_iff_not_or_not, Bool.not_eq_true', ← Bool.not_eq_true, List.all_eq_true]
  simp only [decide_eq_true_eq]

theorem switchingEnd_still (d : Dev) (c : Ch) (m : Meas) (runs : d.chs[c].meas = some m) (no : ¬HalfDutyDone d c m) : switchingEnd d c = d := by
  unfold switchingEnd
  rw [runs]
  exact if_pos ((halfDutyDone_not d c m).1 no)

theorem switchingEnd_ends (d : Dev) (c : Ch) (m : Meas) (runs : d.chs[c].meas = some m) (done : HalfDutyDone d c m) :
    switchingEnd d c = if m.status ≠ 0 then measComplete (forCh (halves d c) (fun e h => e.ch h chanOff) d) c m m.status
      else if m.steps.testBit 3 = true ∧ m.cls = 0 then pairMeas d c chanOff (m.toStep 5) else pairMeas d c chanOff (m.toResult 0) := by
  unfold switchingEnd
  rw [runs]
  exact if_neg fun no => (halfDutyDone_not d c m).2 no done

/-- The switches of a pair go off and its measurement goes on as `n`. -/
theorem pairMeas_off (d : Dev) (c : Ch) (n : Meas) : let u := pairMeas d c chanOff n
    u = { d with chs := u.chs } ∧
    (∀ h ∈ halves d c, u.chs[h].mod.hs = false ∧ u.chs[h].mod.ls = false ∧ u.chs[h].prot.drive = .off) ∧
    (∀ k : Ch, k ∉ halves d c → u.chs[k] = d.chs[k]) ∧ u.chs[c].meas = some n := by
  refine ⟨pairMeas_rest d c chanOff n, fun h mem => ?_, fun k out => pairMeas_other d c k chanOff n out, setMeas_meas _ c n⟩
  obtain ⟨prot, mod, -⟩ := pairMeas_half d c h chanOff n mem
  exact ⟨congrArg Mod.hs mod, congrArg Mod.ls mod, congrArg Prot.drive prot⟩

/-! ### Fit, records and result -/

theorem fitEnd_on (d : Dev) (c : Ch) (m : Meas) (runs : d.chs[c].meas = some m) (step : m.step = 5) (up : d.admin.act = none) :
    fitEnd d c = setMeas (d.ticks 14) c (if bit m.steps 4 then (fitResult d c m).toStep 6 else (fitResult d c m).toResult 0) := by
  have live : stewardsDown d = false := by rw [stewardsDown, up]; rfl
  unfold fitEnd
  rw [runs]
  exact if_neg fun no => no.elim (fun no => no step) fun down => nomatch live.symm.trans down

theorem fitEnd_still (d : Dev) (c : Ch) (m : Meas) (runs : d.chs[c].meas = some m) (no : m.step ≠ 5 ∨ d.admin.act ≠ none) : fitEnd d c = d := by
  unfold fitEnd
  rw [runs]
  exact if_pos (no.imp_right Option.isSome_iff_ne_none.2)

/-- Whether the record step of a measurement that asked for bit `k` may act. -/
def RecordStep (d : Dev) (m : Meas) (k : Nat) : Prop := m.step = 6 ∧ m.steps.testBit k = true ∧ d.admin.act = none

theorem recordStep_not (d : Dev) (m : Meas) (k : Nat) : ¬RecordStep d m k ↔ m.step ≠ 6 ∨ bit m.steps k = false ∨ stewardsDown d = true := by
  rw [RecordStep, Classical.not_and_iff_not_or_not, Classical.not_and_iff_not_or_not, Bool.not_eq_true, ← ne_eq d.admin.act, ← Option.isSome_iff_ne_none]
  rfl

/-- STORE's record in its slot. -/
def storeDev (d : Dev) (c : Ch) (m : Meas) : Dev := trackUnbound { d with admin := { d.admin with
  records := Mem.put d.admin.records (storeSlot d (identOf d.chs[c])) (measRecord d c m)
  recFree := d.admin.recFree.filter (· != storeSlot d (identOf d.chs[c])) } }

theorem storeEnd_still (d : Dev) (c : Ch) (m : Meas) (runs : d.chs[c].meas = some m) (no : ¬RecordStep d m 4) : storeEnd d c = d := by
  unfold storeEnd
  rw [runs]
  exact if_pos ((recordStep_not d m 4).1 no)

theorem storeEnd_ends (d : Dev) (c : Ch) (m : Meas) (runs : d.chs[c].meas = some m) (stores : RecordStep d m 4) :
    storeEnd d c = if d.chs[c].cfg.loadId.all (· == 0) = true then setMeas d c (m.toResult 2)
      else if (!nvOpen d) = true then setMeas (setThm d 6) c (m.toResult 7)
      else setMeas (storeDev d c { m with stored := true, done := m.done ||| 16 }) c
        ({ m with stored := true, done := m.done ||| 16 }.toResult 0) := by
  unfold storeEnd
  rw [runs]
  exact if_neg fun no => (recordStep_not d m 4).2 no stores

theorem deleteEnd_still (d : Dev) (c : Ch) (m : Meas) (runs : d.chs[c].meas = some m) (no : ¬RecordStep d m 5) : deleteEnd d c = d := by
  unfold deleteEnd
  rw [runs]
  exact if_pos ((recordStep_not d m 5).1 no)

/-- DELETE of the record found. -/
def deleteDev (d : Dev) (c : Ch) (m : Meas) : Option (Nat × List Byte) → Dev
  | none => setMeas d c (m.toResult 6)
  | some p => setMeas (trackUnbound { d with admin := { d.admin with records := Mem.erase d.admin.records p.1 } }) c
      ({ m with done := m.done ||| 32 }.toResult 0)

theorem deleteEnd_ends (d : Dev) (c : Ch) (m : Meas) (runs : d.chs[c].meas = some m) (deletes : RecordStep d m 5) :
    deleteEnd d c = if (!nvOpen d) = true then setMeas (setThm d 6) c (m.toResult 7)
      else deleteDev d c m (d.admin.records.find? fun p => decide (recIdent p.2 = identOf d.chs[c])) := by
  unfold deleteEnd deleteDev
  rw [runs]
  refine (if_neg fun no => (recordStep_not d m 5).2 no deletes).trans ?_
  congr 1

theorem resultWrite_on (d : Dev) (c : Ch) (m : Meas) (runs : d.chs[c].meas = some m) (h : m.writing = true) :
    resultWrite d c = measComplete d c m m.status := by
  unfold resultWrite
  rw [runs]
  exact if_pos h

theorem resultWrite_still (d : Dev) (c : Ch) (m : Meas) (runs : d.chs[c].meas = some m) (h : m.writing = false) : resultWrite d c = d := by
  unfold resultWrite
  rw [runs]
  exact if_neg (Bool.eq_false_iff.1 h)

/-! ### The supply -/

theorem fieldSat_fits (w : Nat) (z : Int) (low : 0 ≤ z) (high : z ≤ 2 ^ w - 1) : (fieldSat w z : Int) = z := by
  have same : clampI 0 (2 ^ w - 1) z = z := (if_neg (Int.not_lt.2 low)).trans (if_neg (Int.not_lt.2 high))
  rw [fieldSat, same, Int.toNat_of_nonneg low]

/-- A rounded quotient that fits its field lies less than 1 from the quotient. -/
theorem fieldSat_gridDiv_near (w : Nat) (n d : Int) (up : Bool) (pos : 0 < d) (low : 0 ≤ n) (high : n ≤ (2 ^ w - 1) * d) :
    ((fieldSat w (gridDiv n d up) : Int) - 1) * d < n ∧ n < ((fieldSat w (gridDiv n d up) : Int) + 1) * d := by
  have near := gridDiv_near n d up pos
  have least : 0 < gridDiv n d up + 1 := 
    Int.lt_of_mul_lt_mul_right (by rw [Int.zero_mul]; exact Int.lt_of_le_of_lt low near.2) (Int.le_of_lt pos)
  have most : gridDiv n d up - 1 < 2 ^ w - 1 := Int.lt_of_mul_lt_mul_right (Int.lt_of_lt_of_le near.1 high) (Int.le_of_lt pos)
  rwa [fieldSat_fits w _ (Int.lt_add_one_iff.1 least) (by omega)]

theorem iCap_unmeasured (vrail : Nat) (up : Bool) : iCap vrail 0xFFFF up = none := if_pos (.inl rfl)

/-- Settles O48: each step by the equation of its event, the ends at half duty by `measEnding_ends` and `pairMeas_off`, the supply by
`fieldSat_gridDiv_near`. -/
theorem measurementEnds : Obligations.MeasurementEnds := by
  refine ⟨fun q d c m runs => ?_, fun q d tp tn => ⟨fun done since some_ => ?_, fun no => next_congr (if_pos no)⟩⟩
  · refine ⟨fun done units => ?_, fun no => next_congr (pointEnd_still d c m runs no), fun done ok => ?_,
      fun done bad => next_congr ((switchingEnd_ends d c m runs done).trans (if_pos bad)), fun no => next_congr (switchingEnd_still d c m runs no),
      fun step up => next_congr (fitEnd_on d c m runs step up), fun no => next_congr (fitEnd_still d c m runs no),
      fun stores none_ => next_congr ((storeEnd_ends d c m runs stores).trans (if_pos none_)), fun stores some_ closed => ?_,
      fun stores some_ open_ => ?_, fun no => next_congr (storeEnd_still d c m runs no), fun deletes closed => ?_, fun deletes open_ none_ => ?_,
      fun p deletes open_ some_ => ?_, fun no => next_congr (deleteEnd_still d c m runs no), fun h => next_congr (resultWrite_on d c m runs h),
      fun h => next_congr (resultWrite_still d c m runs h)⟩
    · have ends := pointEnd_ends d c m runs done
      by_cases more : m.point < 63
      · obtain ⟨a, toned⟩ := startTone_units (d.ticks 5) c { addPoint d c m with point := m.point + 1 } (units.resolve_right (by omega))
        refine ⟨_, { addPoint d c m with point := m.point + 1, fi := 0, tripped := false }, next_congr (ends.trans ((if_pos more).trans toned)), rfl,
          fun k out => setMeas_other _ c k _ fun same => out (same ▸ halves_self d c), setMeas_meas _ c _, rfl, fun _ => ⟨rfl, rfl, done.1⟩,
          fun last => absurd more (Nat.not_lt.2 last)⟩
      · obtain ⟨⟨meas, -, out, rest⟩, -⟩ :=
          measEnding_ends (sweepUnitsOff (d.ticks 5) c (addPoint d c m)) c { addPoint d c m with done := m.done ||| 4 }
        exact ⟨_, { addPoint d c m with done := m.done ||| 4, step := 7 }, next_congr (ends.trans (if_neg more)),
          chs_awl_free d _ _ _ rest, out, meas, rfl, fun h => absurd h more, fun _ => ⟨rfl, rfl⟩⟩
    · have ends := (switchingEnd_ends d c m runs done).trans (if_neg (not_not_intro ok))
      by_cases fits : m.steps.testBit 3 = true ∧ m.cls = 0
      · rw [if_pos fits]
        exact ⟨_, next_congr (ends.trans (if_pos fits)), pairMeas_off d c (m.toStep 5)⟩
      · rw [if_neg fits]
        exact ⟨_, next_congr (ends.trans (if_neg fits)), pairMeas_off d c (m.toResult 0)⟩
    · exact next_congr ((storeEnd_ends d c m runs stores).trans ((if_neg (Bool.eq_false_iff.1 some_)).trans (if_pos (by rw [closed]; rfl))))
    · exact ⟨_, next_congr ((storeEnd_ends d c m runs stores).trans ((if_neg (Bool.eq_false_iff.1 some_)).trans (if_neg (by rw [open_]; nofun)))), rfl,
        setMeas_meas _ c _, fun k ne => setMeas_other _ c k _ ne, rfl⟩
    · exact next_congr ((deleteEnd_ends d c m runs deletes).trans (if_pos (by rw [closed]; rfl)))
    · have ends := (deleteEnd_ends d c m runs deletes).trans (if_neg (by rw [open_]; nofun))
      exact next_congr (ends.trans (congrArg (deleteDev d c m) none_))
    · have ends := (deleteEnd_ends d c m runs deletes).trans (if_neg (by rw [open_]; nofun))
      exact ⟨_, next_congr (ends.trans (congrArg (deleteDev d c m) some_)), rfl, rfl, setMeas_meas _ c _⟩
  · refine ⟨_, next_congr (if_neg fun no => ?_), rfl, rfl, rfl, fun low high => ?_, fun small => ?_, fun none_ => ?_, fun none_ => ?_, rfl, rfl, done, rfl⟩
    · exact no.elim (absurd done) fun no => no.elim (absurd since ∘ Nat.not_le.2) (fun none_ => Nat.ne_of_gt some_ none_)
    · have near := fieldSat_gridDiv_near 16 d.rails.sumP d.rails.sumCnt (Config.freeBit (d.free + 0)) (by omega) low (by simpa using high)
      rw [Int.sub_mul, Int.add_mul, Int.one_mul] at near
      dsimp only
      omega
    · have near := fieldSat_gridDiv_near 16 _ 2 (Config.freeBit (d.free + 2)) (by omega) (Int.natCast_nonneg _)
        (by rw [show ((2 : Int) ^ 16 - 1) * 2 = 131070 from rfl]; exact Int.ofNat_le.2 (Nat.le_of_lt small))
      dsimp only
      omega
    · dsimp only
      rw [none_, iCap_unmeasured]
    · dsimp only
      rw [none_, iCap_unmeasured]

end Sys2Proof.Machine
end

section
/-!
PROOFS. Scrub passes, the telemetry interval and wear levelling (R490, R491, R494 to R497, R91).
-/

namespace Sys2Proof.Machine

/-! ### Rows that a scrub pass corrects -/

/-- The hard rows after a pass that corrected `rows`: a row is marked that the pass before corrected too. -/
def hardAfter (b : Cobbler) (rows : List RowAddr) : List RowAddr :=
  (rows.filter fun r => b.lastRows.contains r && !b.hardRows.any (sameRow r)).foldl (fun l r => if l.any (sameRow r) then l else l ++ [r]) b.hardRows

theorem hardAfter_first (b : Cobbler) (rows : List RowAddr) (new : ∀ r ∈ rows, r ∉ b.lastRows) (none_ : b.hardRows = []) : hardAfter b rows = [] := by
  have again : (rows.filter fun r => b.lastRows.contains r && !b.hardRows.any (sameRow r)) = [] :=
    List.filter_eq_nil_iff.2 fun r mem both => new r mem (List.contains_iff_mem.1 (Bool.and_eq_true_iff.1 both).1)
  rw [hardAfter, again, none_]
  rfl

theorem hardAfter_again (b : Cobbler) (rows : List RowAddr) (x : RowAddr) (one : rows = [x]) (twice : x ∈ b.lastRows) (none_ : b.hardRows = []) :
    hardAfter b rows = [x] := by
  subst one
  have last : b.lastRows.contains x = true := List.contains_iff_mem.2 twice
  rw [hardAfter, none_, List.filter_cons, last]
  rfl

theorem sameRow_self (r : RowAddr) : sameRow r r = true := decide_eq_true ⟨rfl, rfl⟩

/-- Remapping rows changes the spare rows and the hard rows alone. -/
theorem remapRow_same (d : Dev) (r : RowAddr) :
    remapRow d r = { d with cob := { d.cob with spareRows := (remapRow d r).cob.spareRows, hardRows := (remapRow d r).cob.hardRows } } := by
  unfold remapRow
  dsimp only
  split <;> rfl

theorem remapRows_same (rows : List RowAddr) (d : Dev) : let u := rows.foldl remapRow d
    u = { d with cob := { d.cob with spareRows := u.cob.spareRows, hardRows := u.cob.hardRows } } := by
  refine foldl_holds (fun u => u = { d with cob := { d.cob with spareRows := u.cob.spareRows, hardRows := u.cob.hardRows } }) _ (fun e r h => ?_) rows d rfl
  have step := remapRow_same e r
  rw [h] at step ⊢
  exact step

/-- Where a spare row of its memory is left, a row takes it. -/
theorem remapRow_spare (d : Dev) (r : RowAddr) (left : 0 < d.cob.spareRows.getD r.mem.val 0) :
    remapRow d r = { d with cob := { d.cob with
      spareRows := d.cob.spareRows.set r.mem.val (d.cob.spareRows.getD r.mem.val 0 - 1)
      hardRows := d.cob.hardRows.filter fun x => !sameRow x r } } := if_neg (Nat.ne_of_gt left)

theorem remapRow_none (d : Dev) (r : RowAddr) (none_ : d.cob.spareRows.getD r.mem.val 0 = 0) : remapRow d r = d := if_pos none_

/-- The part as a scrub pass that corrected `rows` counts it, before rows are remapped. -/
def scrubCounted (d : Dev) (dur : Nat) (rows : List RowAddr) : Dev :=
  { d with cob := { d.cob with
    lastPass := min 0xFFF dur
    latePass := d.cob.latePass || decide (400 < dur)
    passes := (d.cob.passes + 1) % 2 ^ 16
    corrected := d.cob.corrected + rows.length
    lastRows := rows
    hardRows := hardAfter d.cob rows } }

/-- The part after a scrub pass that corrected `rows`, before it fails a tile. -/
def scrubRemapped (d : Dev) (dur : Nat) (rows : List RowAddr) : Dev :=
  if d.shank.throttle then scrubCounted d dur rows else (hardAfter d.cob rows).foldl remapRow (scrubCounted d dur rows)

theorem scrubDev_on (d : Dev) (dur : Nat) (found : List (RowAddr × List SymErr)) (kat : List Phys) (up : d.guard.audioReset = false)
    (works : cobWorks d = true) : scrubDev d dur found kat = kat.foldl (fun e k => physFail e k 4)
      (((found.filter fun y => decide (scrubRead y.2 = none)).filterMap fun y => finOf 23 y.1.mem.val).foldl
        (fun e k => if retired e k.val then e else eccTile e k 1)
        (scrubRemapped d dur ((found.filter fun y => decide (scrubRead y.2 = some true)).map (·.1)))) := by
  unfold scrubRemapped scrubCounted
  rw [← satN_min]
  exact if_neg (by rw [up, works]; nofun)

theorem scrubDev_still (d : Dev) (dur : Nat) (found : List (RowAddr × List SymErr)) (kat : List Phys)
    (no : ¬(d.guard.audioReset = false ∧ cobWorks d = true)) : scrubDev d dur found kat = d := by
  refine if_pos ?_
  rw [Bool.or_eq_true, Bool.not_eq_true']
  rwa [Classical.not_and_iff_not_or_not, Bool.not_eq_false, Bool.not_eq_true] at no

theorem scrubRemapped_same (d : Dev) (dur : Nat) (rows : List RowAddr) : let v := scrubRemapped d dur rows
    v = { d with cob := { d.cob with
      lastPass := min 0xFFF dur
      latePass := d.cob.latePass || decide (400 < dur)
      passes := (d.cob.passes + 1) % 2 ^ 16
      corrected := d.cob.corrected + rows.length
      lastRows := rows
      hardRows := v.cob.hardRows
      spareRows := v.cob.spareRows } } := by
  dsimp only
  unfold scrubRemapped
  split
  · rfl
  · exact remapRows_same _ (scrubCounted d dur rows)

/-- A first correction marks no row. -/
theorem scrubRemapped_first (d : Dev) (dur : Nat) (rows : List RowAddr) (none_ : hardAfter d.cob rows = []) :
    (scrubRemapped d dur rows).cob.hardRows = [] ∧ (scrubRemapped d dur rows).cob.spareRows = d.cob.spareRows := by
  have same : scrubRemapped d dur rows = scrubCounted d dur rows := by
    unfold scrubRemapped
    rw [none_]
    exact ite_self _
  rw [same]
  exact ⟨none_, rfl⟩

/-- A hard row takes a spare row. -/
theorem scrubRemapped_spare (d : Dev) (dur : Nat) (rows : List RowAddr) (x : RowAddr) (one : hardAfter d.cob rows = [x])
    (cool : d.shank.throttle = false) (left : 0 < d.cob.spareRows.getD x.mem.val 0) :
    (scrubRemapped d dur rows).cob.hardRows = [] ∧
      (scrubRemapped d dur rows).cob.spareRows = d.cob.spareRows.set x.mem.val (d.cob.spareRows.getD x.mem.val 0 - 1) := by
  have same : scrubRemapped d dur rows = remapRow (scrubCounted d dur rows) x := by
    unfold scrubRemapped
    rw [one]
    exact if_neg (Bool.eq_false_iff.1 cool)
  rw [same, remapRow_spare (scrubCounted d dur rows) x left]
  refine ⟨?_, rfl⟩
  dsimp only [scrubCounted]
  rw [one, List.filter_cons, sameRow_self]
  rfl

/-- A hard row stays one without a spare row, or while only the minimum runs. -/
theorem scrubRemapped_kept (d : Dev) (dur : Nat) (rows : List RowAddr) (x : RowAddr) (one : hardAfter d.cob rows = [x])
    (no : d.shank.throttle = true ∨ d.cob.spareRows.getD x.mem.val 0 = 0) :
    (scrubRemapped d dur rows).cob.hardRows = [x] ∧ (scrubRemapped d dur rows).cob.spareRows = d.cob.spareRows := by
  have same : scrubRemapped d dur rows = scrubCounted d dur rows := by
    unfold scrubRemapped
    rw [one]
    refine no.elim (fun hot => if_pos hot) fun none_ => ?_
    exact (congrArg (ite _ _) (remapRow_none (scrubCounted d dur rows) x none_)).trans (ite_self _)
  rw [same]
  exact ⟨one, rfl⟩

/-! ### Duties that don't run while only the minimum does -/

theorem cobRests_iff (d : Dev) : (d.guard.audioReset || d.shank.throttle || !cobWorks d) = true ↔
    d.guard.audioReset = true ∨ d.shank.throttle = true ∨ cobWorks d = false := by
  rw [Bool.or_eq_true, Bool.or_eq_true, Bool.not_eq_true', or_assoc]

/-- The slack records with their interval minima at the largest values. -/
def slackRestarted (v : Bank SlackRec 23) : Bank SlackRec 23 := tab v fun _ r => { r with fcMinInt := 0xFFFF, fiMinInt := 0xFFFFFFFF }

theorem slackRestarted_get (v : Bank SlackRec 23) (k : Phys) :
    (slackRestarted v)[k] = { v[k] with fcMinInt := 0xFFFF, fiMinInt := 0xFFFFFFFF } := tab_get v _ k

theorem telemetryDev_on (d : Dev) (on : ¬(d.guard.audioReset = true ∨ d.shank.throttle = true ∨ cobWorks d = false)) : telemetryDev d =
    { d with
      core := { d.core with slack := slackRestarted d.core.slack }
      shank := { d.shank with tjMax := d.shank.tjRun, tjRun := (readings d (List.range 54)).foldl max (-550) } } :=
  if_neg ((not_congr (cobRests_iff d)).2 on)

/-- Settles O49: the rows a pass corrects by `scrubRemapped_first`, `scrubRemapped_spare` and `scrubRemapped_kept`. -/
theorem cobblersDuties : Obligations.CobblersDuties := by
  refine ⟨fun q d dur found kat x => ⟨fun works => ?_, fun no => next_congr (scrubDev_still d dur found kat no)⟩, fun q d block => ?_⟩
  · refine ⟨_, next_congr (scrubDev_on d dur found kat works.1 works.2), scrubRemapped_same d dur _,
      fun new none_ => scrubRemapped_first d dur _ (hardAfter_first d.cob _ new none_), fun one twice none_ cool left => ?_,
      fun one twice none_ no => ?_⟩
    · exact scrubRemapped_spare d dur _ x (hardAfter_again d.cob _ x one twice none_) cool left
    · exact scrubRemapped_kept d dur _ x (hardAfter_again d.cob _ x one twice none_) no
  · refine ⟨fun on => ⟨_, next_congr (telemetryDev_on d on), rfl, slackRestarted_get d.core.slack⟩, fun on open_ => ?_, fun on closed => ?_,
      fun rest => ⟨next_congr (if_pos ((cobRests_iff d).2 rest)), next_congr (if_pos ((cobRests_iff d).2 rest))⟩⟩
    · exact next_congr ((if_neg ((not_congr (cobRests_iff d)).2 on)).trans (nvOwn_open d _ open_))
    · exact next_congr ((if_neg ((not_congr (cobRests_iff d)).2 on)).trans (if_neg (Bool.eq_false_iff.1 closed)))

end Sys2Proof.Machine
end

section
/-!
PROOFS. Channels that go out of service; the segment test and the converters' calibration (R141, R498 to R501, Table 16-3).
-/

namespace Sys2Proof.Machine

/-! ### A short check and a measurement that end -/

/-- What holds of a channel whose check ends, a check that is abandoned keeps. -/
theorem checkAbandon_holds (P : Chan → Prop) (ends : ∀ x, P x → P (checkOver 0x0D x)) (d : Dev) (c k : Ch) (h : P d.chs[k]) :
    P (checkAbandon d c).chs[k] := by
  cases run : d.chs[lead d c].prot.check with
  | none =>
    have same : checkAbandon d c = d := by
      unfold checkAbandon checkFinish
      dsimp only
      rw [run]
    rwa [same]
  | some w =>
    rw [checkAbandon, checkFinish_chs d c 0x0D _ w run k]
    split
    · exact ends _ h
    · exact h

/-! ### A channel goes out of service -/

/-- A channel with both switches off and unreleased. -/
def Chan.isOff (x : Chan) : Prop := x.prot.released = false ∧ x.mod.hs = false ∧ x.mod.ls = false

/-- What a channel keeps that the guard domain turns off: its configuration, its segments and its place in or out of service. -/
def Chan.service (x : Chan) : ChanCfg × List (BitVec 12) × Nat := (x.cfg, x.seg, x.prot.oos)

/-- What the audio domain keeps as a channel goes out of service. -/
def Dev.steady (d : Dev) : Cobbler × Rails × Timebase × Bank Power 16 × Core := (d.cob, d.rails, d.tb, d.power, d.core)

/-- The part once the check and the measurement of a channel that goes out of service have ended. -/
def oosWork (d : Dev) (c : Ch) : Dev := measStop (checkAbandon d c) c stAborted

/-- Turn one half off, with a history record where it switched. -/
def oosHalf (e : Dev) (h : Ch) : Dev := if switching e.chs[h] then hist (guardOff e h) h.val 0 0 false else guardOff e h

theorem chanOff_service (x : Chan) : (chanOff x).service = x.service := rfl

theorem chanOff_isOff (x : Chan) : (chanOff x).isOff := ⟨rfl, rfl, rfl⟩

theorem outOfService_on (d : Dev) (c : Ch) (cause : Nat) (serves : d.chs[c].prot.oos = 0) : outOfService d c cause =
    settleStops ((forCh (halves (oosWork d c) c) oosHalf (oosWork d c)).ch c fun x => { x with prot := { x.prot with oos := cause } }) :=
  if_neg (not_not_intro serves)

theorem outOfService_out (d : Dev) (c : Ch) (cause : Nat) (out : d.chs[c].prot.oos ≠ 0) : outOfService d c cause = d := if_pos out

theorem oosWork_service (d : Dev) (c k : Ch) : (oosWork d c).chs[k].service = d.chs[k].service :=
  measStop_holds (fun x => x.service = d.chs[k].service) (fun _ h => h) (fun _ _ h => h) _ c k _
    (checkAbandon_holds (fun x => x.service = d.chs[k].service) (fun _ h => h) d c k rfl)

theorem oosWork_released (d : Dev) (c k : Ch) (h : d.chs[k].prot.released = false) : (oosWork d c).chs[k].prot.released = false :=
  measStop_holds (fun x => x.prot.released = false) (fun _ _ => rfl) (fun _ _ h => h) _ c k _
    (checkAbandon_holds (fun x => x.prot.released = false) (fun _ _ => rfl) d c k h)

theorem oosWork_steady (d : Dev) (c : Ch) : (oosWork d c).steady = d.steady := by
  simp only [Dev.steady, oosWork, measStop_frame, checkAbandon_frame]

theorem oosHalf_chs (e : Dev) (h : Ch) : (oosHalf e h).chs = (e.ch h chanOff).chs := by
  unfold oosHalf guardOff
  split
  · exact hist_chs _ _ _ _ _
  · rfl

theorem oosHalf_steady (e : Dev) (h : Ch) : (oosHalf e h).steady = e.steady := by
  unfold oosHalf
  split <;> simp only [Dev.steady, hist_frame, guardOff_frame]

/-- Folds over channels give the same bank where their steps do. -/
theorem forCh_chs_congr (f g : Dev → Ch → Dev) (step : ∀ e e' a, e.chs = e'.chs → (f e a).chs = (g e' a).chs) (l : List Ch) (d e : Dev)
    (same : d.chs = e.chs) : (forCh l f d).chs = (forCh l g e).chs := by
  induction l generalizing d e with
  | nil => exact same
  | cons a l ih => exact ih _ _ (step d e a same)

theorem oosHalves_chs (d : Dev) (l : List Ch) (nodup : l.Nodup) (k : Ch) :
    (forCh l oosHalf d).chs[k] = if k ∈ l then chanOff d.chs[k] else d.chs[k] := by
  have chs := forCh_chs_congr oosHalf (fun e h => e.ch h chanOff)
    (fun e e' a same => (oosHalf_chs e a).trans (congrArg (fun v : Bank Chan 128 => upd v a chanOff) same)) l d d rfl
  rw [chs]
  exact forCh_ch_get (fun _ => chanOff) l d nodup k

/-- Every channel after one has gone out of service: off where it is of the pair, and not otherwise changed. -/
theorem outOfService_chs (d : Dev) (c : Ch) (cause : Nat) (serves : d.chs[c].prot.oos = 0) (k : Ch) : ∃ x : Chan,
    (outOfService d c cause).chs[k] = (if k = c then { x with prot := { x.prot with oos := cause } } else x) ∧ x.service = d.chs[k].service ∧
    (k ∈ halves d c → x.isOff) ∧ (d.chs[k].prot.released = false → x.prot.released = false) := by
  have pair : halves (oosWork d c) c = halves d c := halves_of_cfg (congrArg (·.1) (oosWork_service d c c))
  have out := oosHalves_chs (oosWork d c) _ (halves_nodup d c) k
  refine ⟨(forCh (halves d c) oosHalf (oosWork d c)).chs[k], ?_, ?_, fun half => ?_, fun off => ?_⟩
  · rw [outOfService_on d c cause serves, settleStops_chs, ch_get, pair]
  · refine Eq.trans ?_ (oosWork_service d c k)
    rw [out]
    split
    · exact chanOff_service _
    · rfl
  · rw [out, if_pos half]
    exact chanOff_isOff _
  · rw [out]
    split
    · exact (chanOff_isOff _).1
    · exact oosWork_released d c k off

theorem outOfService_self (d : Dev) (c : Ch) (cause : Nat) (serves : d.chs[c].prot.oos = 0) :
    (outOfService d c cause).chs[c].prot.oos = cause ∧ (outOfService d c cause).chs[c].seg = d.chs[c].seg := by
  obtain ⟨x, chs, service, -, -⟩ := outOfService_chs d c cause serves c
  rw [chs, if_pos rfl]
  exact ⟨rfl, congrArg (·.2.1) service⟩

theorem outOfService_off (d : Dev) (c h : Ch) (cause : Nat) (serves : d.chs[c].prot.oos = 0) (half : h ∈ halves d c) :
    (outOfService d c cause).chs[h].isOff := by
  obtain ⟨x, chs, -, off, -⟩ := outOfService_chs d c cause serves h
  rw [chs]
  split <;> exact off half

theorem outOfService_steady (d : Dev) (c : Ch) (cause : Nat) : (outOfService d c cause).steady = d.steady := by
  by_cases serves : d.chs[c].prot.oos = 0
  · rw [outOfService_on d c cause serves]
    have halves_ := foldl_keeps Dev.steady oosHalf oosHalf_steady (halves (oosWork d c) c) (oosWork d c)
    refine Eq.trans ?_ (halves_.trans (oosWork_steady d c))
    simp only [Dev.steady, settleStops_frame]
    rfl
  · rw [outOfService_out d c cause serves]

/-! ### The segment test -/

/-- The measured segments of a switch. -/
def segMeasured (d : Dev) (s : SegResult) (seg : BitVec 12) : Dev :=
  let j := b2n s.low
  d.ch s.ch fun y => { y with
    seg := y.seg.set j seg
    segSwap := y.segSwap.set j (y.segSwap.getD j false || (segSpare seg && !segSpare (d.chs[s.ch].seg.getD j 0)))
    ron := y.ron.set j s.ron
    coss := y.coss.set j s.coss }

/-- Whether a segment doesn't answer its gate within its limits. -/
def SegLost (s : SegResult) : Prop := s.gate = false ∨ s.pct < 50 ∨ 150 < s.pct

theorem segLost_iff (s : SegResult) : (!s.gate || decide (s.pct < 50 ∨ 150 < s.pct)) = true ↔ SegLost s := by
  rw [Bool.or_eq_true, Bool.not_eq_true', decide_eq_true_eq]
  rfl

theorem segResult_stays (k : Nat) (d : Dev) (s : SegResult) (stays : ¬SegLost s) :
    segResult k d s = segMeasured d s (d.chs[s.ch].seg.getD (b2n s.low) 0) := by
  unfold segResult segMeasured
  dsimp only
  rw [Bool.eq_false_iff.2 ((not_congr (segLost_iff s)).2 stays)]
  rfl

theorem segResult_lost (k : Nat) (d : Dev) (s : SegResult) (lost : SegLost s) :
    let seg := d.chs[s.ch].seg.getD (b2n s.low) 0 ||| (1#12 <<< k)
    segResult k d s = if segCond seg < 10 then outOfService (segMeasured d s seg) s.ch 2 else segMeasured d s seg := by
  unfold segResult segMeasured
  dsimp only
  rw [(segLost_iff s).2 lost]
  exact ite_of_iff (decide_eq_true_iff) _ _

theorem segMeasured_chan (d : Dev) (s : SegResult) (seg : BitVec 12) : let x := (segMeasured d s seg).chs[s.ch]
    x.prot = d.chs[s.ch].prot ∧ x.cfg = d.chs[s.ch].cfg ∧ x.seg = d.chs[s.ch].seg.set (b2n s.low) seg := by
  dsimp only
  rw [segMeasured, ch_get, if_pos rfl]
  exact ⟨rfl, rfl, rfl⟩

/-! ### The calibration -/

section
variable (d : Dev) (t : PTile) (cur : Bool)

/-- The converter that a calibration takes next. -/
def calNext : Nat := nextLane (if cur then d.power[t].calI else d.power[t].calV)

/-- The converters retired, whether the spare serves for one, and the cause with which a channel without one goes out of service. -/
def calFailed : BitVec 9 := if cur then d.power[t].iFailed else d.power[t].vFailed

def calUsed : Bool := if cur then d.power[t].iSpare else d.power[t].vSpare

def calCause : Nat := if cur then 4 else 3

/-- The channel that the converter serves. -/
def calLane : Option Ch :=
  if calNext d t cur < 8 then some (Fin.ofNat 128 (8 * t.val + calNext d t cur))
  else if calUsed d t cur then spareLane d t (calFailed d t cur) (calCause cur) else none

/-- A power tile with its next converter calibrated. -/
def calAt : Power := if cur then { d.power[t] with calI := calNext d t cur } else { d.power[t] with calV := calNext d t cur }

/-- A power tile with the converter retired. -/
def calMark (p : Power) (spare : Bool) : Power :=
  if cur then { p with iFailed := calFailed d t cur ||| (1#9 <<< calNext d t cur), iSpare := spare }
  else { p with vFailed := calFailed d t cur ||| (1#9 <<< calNext d t cur), vSpare := spare }

def calSet (p : Power) : Dev := { d with power := d.power.set t p }

/-- Whether the spare takes over. -/
def calSwap : Bool := decide (calNext d t cur < 8) && !calUsed d t cur && !(calFailed d t cur).getLsbD 8

/-- Whether a calibration retires no converter: it is within its limits or retired, or the spare serves a released channel. -/
def calStays (r : CalResult) : Bool :=
  (calFailed d t cur).getLsbD (calNext d t cur) ||
    (calUsed d t cur && (match calLane d t cur with | some x => d.chs[x].prot.released | none => false)) || !calFails r

/-- The part `e` whose converter has failed: the spare takes over, or the channel it serves goes out of service. -/
def calRetire (e : Dev) : Dev :=
  match calLane d t cur with
  | some x => if calSwap d t cur then e else outOfService e x (calCause cur)
  | none => e

theorem calSet_twice (p : Power) (f : Power → Power) : let e := calSet d t p
    { e with power := e.power.set t (f e.power[t]) } = calSet d t (f p) := by
  simp only [calSet, Fin.getElem_fin, Vector.getElem_set_self, Vector.set_set]

theorem calDev_on (r : CalResult) (up : d.guard.audioReset = false) (cool : d.shank.throttle = false) :
    calDev d t cur r = if calStays d t cur r then calSet d t (calAt d t cur)
      else calRetire d t cur (calSet d t (calMark d t cur (calAt d t cur) (calUsed d t cur || calSwap d t cur))) := by
  rw [← calSet_twice d t (calAt d t cur) fun p => calMark d t cur p (calUsed d t cur || calSwap d t cur)]
  exact if_neg (by rw [up, cool]; nofun)

/-- Whether a converter is within its limits. -/
def CalGood (r : CalResult) : Prop := r.offset.natAbs ≤ 5000 ∧ r.gain.natAbs ≤ 10000 ∧ r.diff.natAbs ≤ 2000

theorem calFails_not (r : CalResult) : (!calFails r) = true ↔ CalGood r := by
  rw [calFails, Bool.not_eq_true', decide_eq_false_iff_not, CalGood]
  omega

theorem calStays_iff (r : CalResult) : calStays d t cur r = true ↔ CalGood r ∨ (calFailed d t cur).getLsbD (calNext d t cur) = true ∨
    (calUsed d t cur = true ∧ ∃ c ∈ calLane d t cur, d.chs[c].prot.released = true) := by
  have serves : (match calLane d t cur with | some x => d.chs[x].prot.released | none => false) = true ↔
      ∃ c ∈ calLane d t cur, d.chs[c].prot.released = true := by
    cases calLane d t cur <;> simp
  rw [calStays, Bool.or_eq_true, Bool.or_eq_true, Bool.and_eq_true, calFails_not, or_comm]
  exact or_congr_right (or_congr_right (and_congr_right fun _ => serves))

/-- Whether a channel's converter fails with the spare at hand. -/
def CalFree : Prop := calNext d t cur < 8 ∧ calUsed d t cur = false ∧ (calFailed d t cur).getLsbD 8 = false

theorem calSwap_iff : calSwap d t cur = true ↔ CalFree d t cur := by
  rw [calSwap, Bool.and_eq_true, Bool.and_eq_true, decide_eq_true_eq, Bool.not_eq_true', Bool.not_eq_true', and_assoc]
  rfl

theorem calRetire_free (e : Dev) (free : CalFree d t cur) : calRetire d t cur e = e := by
  unfold calRetire
  split
  · exact if_pos ((calSwap_iff d t cur).2 free)
  · rfl

/-- Without the spare the channel, if the converter serves one, goes out of service. -/
theorem calRetire_not (e : Dev) (no : ¬CalFree d t cur) : calRetire d t cur e =
    match calLane d t cur with | some x => outOfService e x (calCause cur) | none => e := by
  unfold calRetire
  split
  · exact if_neg ((not_congr (calSwap_iff d t cur)).2 no)
  · rfl

theorem calRetire_steady (e : Dev) (no : ¬CalFree d t cur) : (calRetire d t cur e).steady = e.steady := by
  rw [calRetire_not d t cur e no]
  split
  · exact outOfService_steady ..
  · rfl

end

/-- Settles O50: a channel goes out of service by `outOfService_self` and `outOfService_off`. -/
theorem segmentTestAndCalibration : Obligations.SegmentTestAndCalibration := by
  intro q d rs s i t cur r works tested j old measured lost seg p k n failed used cause lane good stays at_ marked free
  have tests (up : d.guard.audioReset = false) (cool : d.shank.throttle = false) : (d.guard.audioReset || d.shank.throttle) = false :=
    Bool.or_eq_false_iff.2 ⟨up, cool⟩
  have calibrates (on : works) := calDev_on d t cur r on.1 on.2
  refine ⟨fun on => next_congr (if_neg (Bool.eq_false_iff.1 (tests on.1 on.2))), segResult_stays i d s, fun bad enough => ?_, fun bad few serves => ?_,
    fun on ok => next_congr ((calibrates on).trans (if_pos ((calStays_iff d t cur r).2 ok))), fun on bad spare => ?_, fun on bad taken => ?_, fun off => ?_⟩
  · obtain ⟨prot, -, -⟩ := segMeasured_chan d s seg
    refine (segResult_lost i d s bad).trans ?_
    by_cases few : segCond seg < 10
    · exact (if_pos few).trans (outOfService_out _ _ _ (prot ▸ enough.resolve_left (Nat.not_le.2 few)))
    · exact if_neg few
  · obtain ⟨prot, cfg, segs⟩ := segMeasured_chan d s seg
    have serves' : (segMeasured d s seg).chs[s.ch].prot.oos = 0 := prot ▸ serves
    obtain ⟨oos, segs'⟩ := outOfService_self (segMeasured d s seg) s.ch 2 serves'
    have steady := outOfService_steady (segMeasured d s seg) s.ch 2
    exact ⟨_, (segResult_lost i d s bad).trans (if_pos few), oos,
      fun h half => outOfService_off _ s.ch h 2 serves' ((halves_of_cfg cfg).symm ▸ half), segs'.trans segs, congrArg (·.1) steady,
      congrArg (·.2.1) steady, congrArg (·.2.2.1) steady⟩
  · have out := (calibrates on).trans (if_neg ((not_congr (calStays_iff d t cur r)).2 bad))
    rw [calRetire_free d t cur _ spare, (calSwap_iff d t cur).2 spare, Bool.or_true] at out
    exact next_congr out
  · have out := (calibrates on).trans (if_neg ((not_congr (calStays_iff d t cur r)).2 bad))
    rw [Bool.eq_false_iff.2 ((not_congr (calSwap_iff d t cur)).2 taken), Bool.or_false] at out
    have steady := calRetire_steady d t cur (calSet d t (calMark d t cur (calAt d t cur) (calUsed d t cur))) taken
    refine ⟨_, next_congr out, congrArg (·.2.2.2.1) steady, congrArg (·.2.1) steady, congrArg (·.2.2.1) steady, congrArg (·.1) steady,
      fun none_ => ?_, fun c serves inService => ?_⟩
    · rw [calRetire_not d t cur _ taken, show calLane d t cur = none from none_]
      rfl
    · rw [calRetire_not d t cur _ taken, show calLane d t cur = some c from serves]
      exact ⟨(outOfService_self (calSet d t _) c (calCause cur) inService).1, (outOfService_off (calSet d t _) c c (calCause cur) inService (halves_self _ c)).1⟩
  · have rests : (d.guard.audioReset || d.shank.throttle) = true := by
      rw [Bool.or_eq_true]
      rwa [Classical.not_and_iff_not_or_not, Bool.not_eq_false, Bool.not_eq_false] at off
    exact ⟨next_congr (if_pos rests), next_congr (if_pos rests)⟩

end Sys2Proof.Machine
end

section
/-!
PROOFS. Words that a code corrects and words that it doesn't, by place (R490 to R493, Table 16-1).
-/

namespace Sys2Proof.Machine

/-! ### Reads with errors -/

theorem eccRead_reset (d : Dev) (place : EccPlace) (errs : List SymErr) (reset : d.guard.audioReset = true) : eccReadDev d place errs = d :=
  if_pos reset

theorem eccRead_corrected (d : Dev) (place : EccPlace) (errs : List SymErr) (n : Nat) (up : d.guard.audioReset = false)
    (corrects : readAt d place errs = some n) : eccReadDev d place errs = { d with cob := { d.cob with corrected := d.cob.corrected + n } } := by
  unfold eccReadDev
  rw [up, corrects]
  rfl

theorem eccRead_lost (d : Dev) (place : EccPlace) (errs : List SymErr) (up : d.guard.audioReset = false) (lost : readAt d place errs = none) :
    eccReadDev d place errs = eccDev d place := by
  unfold eccReadDev
  rw [up, lost]
  rfl

/-- The part with one uncorrectable word counted. -/
def uncCounted (d : Dev) (wher : Nat) : Dev :=
  { d with cob := { d.cob with uncorr := min 0xFFFF (d.cob.uncorr + 1), wher := wher, uncTotal := d.cob.uncTotal + 1 } }

theorem countUnc_eq (d : Dev) (wher : Nat) : countUnc d wher = uncCounted d wher := by rw [countUnc, satN_min, uncCounted]

/-! ### Tiles -/

theorem eccTile_spare (d : Dev) (p : Phys) (wher : Nat) (spare : servedBy d p.val = 0xFF) : eccTile d p wher = retireTile (uncCounted d 10) p.val := by
  rw [eccTile, if_pos spare, countUnc_eq]

theorem eccTile_serves (d : Dev) (p : Phys) (wher : Nat) (serves : servedBy d p.val ≠ 0xFF) :
    eccTile d p wher = physFail (uncCounted d wher) p 1 := by
  rw [eccTile, if_neg serves, countUnc_eq]

theorem eccDev_tile (d : Dev) (p : Phys) (place : EccPlace) (mem : place ∈ [EccPlace.tileData p, .tileSched p, .spareTile p]) :
    ∃ wher, eccDev d place = if retired d p.val then d else eccTile d p wher := by
  rw [List.mem_cons, List.mem_cons, List.mem_singleton] at mem
  rcases mem with rfl | rfl | rfl
  · exact ⟨1, rfl⟩
  · exact ⟨2, rfl⟩
  · exact ⟨1, rfl⟩

/-! ### Delay lines -/

/-- What words written alike read. -/
theorem get_setAll (v : Int) (ks : List Nat) (m : Mem Int) (wf : Mem.wf m 0 = true) (w : Nat) :
    Mem.get (ks.foldl (fun l k => Mem.set l 0 k v) m) 0 w = if w ∈ ks then v else Mem.get m 0 w := by
  induction ks generalizing m with
  | nil => rfl
  | cons k ks ih =>
    rw [List.foldl_cons, ih _ (set_wf m 0 k v wf), get_set m 0 k w v wf]
    by_cases last : w ∈ ks
    · rw [if_pos last, if_pos (List.mem_cons_of_mem k last)]
    · simp only [last, List.mem_cons, or_false, if_false]

/-- The delay words of the code word that holds word `w`. -/
theorem mem_codeWord (w size : Nat) (inside : w < size) : w ∈ ((List.range 8).map (· + w / 8 * 8)).filter fun k => decide (k < size) :=
  List.mem_filter.2 ⟨List.mem_map.2 ⟨w % 8, List.mem_range.2 (Nat.mod_lt w (by decide)), Nat.mod_add_div' w 8⟩, decide_eq_true inside⟩

theorem eccDelay_parts (d : Dev) (c : Ch) (w : Nat) : let v := eccDelay d c w
    v = { d with mix := { d.mix with chs := v.mix.chs } } ∧ v.mix.chs[c].delayHold = true ∧ (∀ j : Ch, j ≠ c → v.mix.chs[j] = d.mix.chs[j]) ∧
    (Mem.wf d.mix.chs[c].line 0 = true → w < d.mix.chs[c].lineSize → Mem.get v.mix.chs[c].line 0 w = d.mix.chs[c].lastDelay) := by
  have own := fun f : MixCh → MixCh => (updN_get d.mix.chs c.val c f).trans (if_pos rfl)
  refine ⟨rfl, congrArg MixCh.delayHold (own _), fun j ne => (updN_get d.mix.chs c.val j _).trans (if_neg fun same => ne (Fin.ext same)),
    fun wf inside => ?_⟩
  refine (congrArg (fun m : MixCh => Mem.get m.line 0 w) (own _)).trans ?_
  exact (get_setAll _ _ _ wf w).trans (if_pos (mem_codeWord w _ inside))

/-! ### The other places -/

/-- A captured entry is marked bad. -/
theorem eccDev_capture (d : Dev) (u : Fin 16) (k : Nat) : let v := eccDev d (.captureRing u k)
    v = { uncCounted d 5 with awl := { d.awl with caps := v.awl.caps } } ∧ v.awl.caps[u].entries =
      if k < d.awl.caps[u].first then d.awl.caps[u].entries
      else d.awl.caps[u].entries.modify (k - d.awl.caps[u].first) fun e => { e with bad := true } := by
  dsimp only [eccDev]
  rw [countUnc_eq]
  exact ⟨rfl, congrArg Cap.entries (upd_same d.awl.caps u _)⟩

/-- A stream's sample repeats. -/
theorem eccDev_stream (d : Dev) (h : HStream) : let v := eccDev d (.streamFifo h)
    v = { uncCounted d 6 with mix := { d.mix with streams := v.mix.streams } } ∧
      v.mix.streams[h].fifo = d.mix.streams[h].fifo.modify 0 fun x => { x with v := d.mix.streams[h].last } := by
  dsimp only [eccDev]
  rw [countUnc_eq]
  exact ⟨rfl, congrArg Stream.fifo (stream_same (uncCounted d 6) h _)⟩

/-- An image copy that a tile can't load from. -/
theorem eccDev_image (d : Dev) (t : LTile) : let v := eccDev d (.imageCopy t)
    v = { uncCounted d 8 with core := { d.core with tiles := v.core.tiles } } ∧ v.core.tiles[t] = { d.core.tiles[t] with copyBad := true } := by
  dsimp only [eccDev]
  rw [countUnc_eq]
  exact ⟨rfl, tile_same (uncCounted d 8) t _⟩

/-- Settles O51: by place, an uncorrectable word acts on the part that has counted it. -/
theorem uncorrectableWords : Obligations.UncorrectableWords := by
  intro q d errs p c w cap h k s n src dst t o id cid place run cnt gives spare unread spoilt dropped
  refine ⟨fun reset => next_congr (eccRead_reset d place errs reset), fun up => ?_⟩
  have lost (pl : EccPlace) (none_ : readAt d pl errs = none) := eccRead_lost d pl errs up none_
  have acts (pl : EccPlace) (u : Dev) (eq : eccDev d pl = u) : gives pl u := fun none_ => next_congr ((lost pl none_).trans eq)
  have count (x : Nat) : countUnc d x = cnt x := countUnc_eq d x
  refine ⟨fun m corrects => next_congr (eccRead_corrected d place errs m up corrects), fun used isSpare pl mem => ?_, fun used serves => ?_,
    fun gone pl mem => ?_, ?_, ?_, fun none_ => ⟨_, next_congr (lost _ none_), ?_⟩, fun none_ => ⟨_, next_congr (lost _ none_), eccDev_capture d cap w⟩,
    fun none_ => ⟨_, next_congr (lost _ none_), eccDev_stream d h⟩, acts _ _ (count 7), fun f found => acts _ _ ?_, fun none_ => acts _ _ ?_,
    acts _ _ (congrArg (eccQueue · id) (count 8)), fun none_ => ⟨_, next_congr (lost _ none_), eccDev_image d t⟩, acts _ _ ?_,
    fun header => acts _ _ ?_, fun rec_ found => acts _ _ ?_, fun none_ => acts _ _ ?_, acts _ _ (count 9)⟩
  · obtain ⟨wher, eq⟩ := eccDev_tile d p pl mem
    exact acts pl _ (eq.trans ((if_neg (Bool.eq_false_iff.1 used)).trans (eccTile_spare d p wher isSpare)))
  · have serving (wher : Nat) : (if retired d p.val then d else eccTile d p wher) = physFail (cnt wher) p 1 :=
      (if_neg (Bool.eq_false_iff.1 used)).trans (eccTile_serves d p wher serves)
    exact ⟨acts _ _ (serving 1), acts _ _ (serving 1), acts _ _ (serving 2)⟩
  · obtain ⟨wher, eq⟩ := eccDev_tile d p pl mem
    exact acts pl _ (eq.trans (if_pos gone))
  · refine acts _ _ ?_
    dsimp only [eccDev]
    rw [count]
    rfl
  · refine acts _ _ ?_
    dsimp only [eccDev]
    rw [count]
    rfl
  · have eq : eccDev d (.delayLine c w) = eccDelay (cnt 4) c w := congrArg (eccDelay · c w) (count 4)
    have parts := eccDelay_parts (cnt 4) c w
    rw [← eq] at parts
    exact parts
  · dsimp only [eccDev]
    rw [found, count]
  · dsimp only [eccDev]
    rw [none_, count]
  · dsimp only [eccDev]
    rw [count]
    rfl
  · dsimp only [eccDev]
    rw [count]
    rfl
  · dsimp only [eccDev]
    rw [count]
    exact (congrArg (fun m : Option (List Byte) => match m with
      | some r => { cnt 9 with admin := { d.admin with records := Mem.put d.admin.records n.val (invalidRecord r) } }
      | none => cnt 9) found)
  · dsimp only [eccDev]
    rw [count]
    exact (congrArg (fun m : Option (List Byte) => match m with
      | some r => { cnt 9 with admin := { d.admin with records := Mem.put d.admin.records n.val (invalidRecord r) } }
      | none => cnt 9) none_)

end Sys2Proof.Machine
end

section
/-!
PROOFS. The failure of a tile and its spare (R507 to R512).
-/

namespace Sys2Proof.Machine

/-! ### What an abandoned activation and ended measurements leave -/

/-- What the failure of a tile leaves of the audio domain while it looks for a spare, but for an activation. -/
def Dev.footing (d : Dev) : Core × Cobbler × Timebase × Rails × Guard × Bank Power 16 := (d.core, d.cob, d.tb, d.rails, d.guard, d.power)

theorem abandonAct_footing (d : Dev) : (abandonAct d).footing = { d with core := { d.core with act := none } }.footing := by
  unfold abandonAct
  split
  next none_ => rw [← none_]
  next a some_ =>
    dsimp only
    split
    · simp only [Dev.footing, refuse_frame]
    · rfl

/-- Without one under way nothing is abandoned. -/
theorem abandonAct_none (d : Dev) (none_ : d.core.act = none) : abandonAct d = d := by
  unfold abandonAct
  rw [none_]

theorem measAbort_service (d : Dev) (c k : Ch) (st : Nat) : (measAbort d c st).chs[k].service = d.chs[k].service := by
  unfold measAbort
  dsimp only
  split
  · rfl
  · split
    · rw [ch_get]
      split <;> rfl
    · split
      · rw [ch_get, forCh_ch_get (fun _ x => { x with prot := { x.prot with ssCount := 0, sweep := false } }) _ _ (halves_nodup d _)]
        split <;> split <;> rfl
      · exact measStop_holds (fun x => x.service = d.chs[k].service) (fun _ h => h) (fun _ _ h => h) d c k st rfl

theorem measAbort_none (d : Dev) (c : Ch) (st : Nat) (none_ : ∀ k : Ch, d.chs[k].meas = none) : measAbort d c st = d := by
  unfold measAbort
  dsimp only
  rw [none_]

/-! ### The part while it looks for a spare -/

/-- A part whose tile `t` has failed: the physical tile retired, an activation and the measurements on its channels ended. -/
def tileLost (d : Dev) (t : LTile) : Dev :=
  forCh (chansOf t) (fun e c => measAbort e c stAborted) (abandonAct (retireTile d d.core.tiles[t].phys))

theorem tileLost_footing (d : Dev) (t : LTile) : (tileLost d t).footing =
    { retireTile d d.core.tiles[t].phys with core := { d.core with act := none } }.footing :=
  (foldl_keeps Dev.footing _ (fun e c => by simp only [Dev.footing, measAbort_frame]) _ _).trans (abandonAct_footing _)

theorem tileLost_service (d : Dev) (t : LTile) (k : Ch) : (tileLost d t).chs[k].service = d.chs[k].service :=
  (foldl_keeps (fun e => e.chs[k].service) _ (fun e c => measAbort_service e c k _) _ _).trans
    (congrArg (fun v : Bank Chan 128 => v[k].service) (abandonAct_chs _))

/-- Without an activation or a measurement nothing but the physical tile changes. -/
theorem tileLost_quiet (d : Dev) (t : LTile) (idle : d.core.act = none) (unmeasured : ∀ c : Ch, d.chs[c].meas = none) :
    tileLost d t = retireTile d d.core.tiles[t].phys := by
  unfold tileLost
  rw [abandonAct_none (retireTile d d.core.tiles[t].phys) idle]
  exact forCh_holds (fun e => e = retireTile d d.core.tiles[t].phys) _
    (fun e c same => by rw [same]; exact measAbort_none _ c _ unmeasured) _ _ rfl

/-- The spares of a part go by its tiles and the physical tiles retired. -/
theorem sparesOf_congr (d e : Dev) (tiles : e.core.tiles = d.core.tiles) (failed : e.cob.etMtFailed = d.cob.etMtFailed) (l : List Nat) :
    sparesOf e l = sparesOf d l := by
  unfold sparesOf servedBy retired
  rw [tiles, failed]

/-- A spare is no place that says there is none. -/
theorem spare_known (d : Dev) (t : LTile) (p : Nat) (spare : (sparesOf d (kindOf t)).head? = some p) : p ≠ 0x1F := by
  have mem : p ∈ kindOf t := (List.mem_filter.1 (List.mem_of_mem_head? spare)).1
  unfold kindOf at mem
  split at mem
  · have := List.mem_range.1 mem
    omega
  · simp only [List.mem_cons, List.not_mem_nil, or_false] at mem
    omega

/-- The registers of the last failover. -/
def foNoted (d : Dev) (t : LTile) (dst cause count : Nat) : Cobbler := { d.cob with
  etMtFailed := d.cob.etMtFailed.set d.core.tiles[t].phys true
  foLogical := t.val
  foFrom := d.core.tiles[t].phys
  foTo := dst
  foCause := cause
  failovers := count }

theorem noteFailover_cob (d e : Dev) (t : LTile) (dst cause : Nat) (cob : e.cob = (retireTile d d.core.tiles[t].phys).cob) :
    (noteFailover e t d.core.tiles[t].phys dst cause).cob =
      foNoted d t dst cause (if dst = 0x1F then d.cob.failovers else min 0xFF (d.cob.failovers + 1)) := by
  unfold noteFailover foNoted
  dsimp only
  rw [cob, satN_min]
  rfl

/-! ### A spare that loads -/

/-- The part as the spare `p` starts to load. -/
def spareLoads (d : Dev) (t : LTile) (p cause : Nat) : Dev :=
  let half := (chansOf t).any fun c => decide (t.val < 16) && decide (d.chs[c].mod.handoff ≠ [])
  let e := forCh (if t.val < 16 then chansOf t else []) (fun e c => e.ch c fun x => { x with mod := { x.mod with handoff := [] } }) (tileLost d t)
  noteFailover (e.tile t (loadedTile d.core.image t half p)) t d.core.tiles[t].phys p cause

/-- The part with the channels of a tile out of service. -/
def tileGone (d : Dev) (t : LTile) (cause : Nat) : Dev :=
  noteFailover (forCh (chansOf t) (fun e c => outOfService e c 1) ((tileLost d t).tile t fun x => { x with failed := true })) t
    d.core.tiles[t].phys 0x1F cause

/-- The lowest free spare of a tile's kind. -/
def tileSpare (d : Dev) (t : LTile) : Option Nat := (sparesOf (retireTile d d.core.tiles[t].phys) (kindOf t)).head?

theorem tileFail_on (d : Dev) (t : LTile) (cause : Nat) (serves : d.core.tiles[t].failed = false) : tileFail d t cause =
    match tileSpare d t with
    | some p => if d.core.tiles[t].copyBad then tileGone d t cause else spareLoads d t p cause
    | none => tileGone d t cause := by
  have footing := tileLost_footing d t
  have spares : sparesOf (tileLost d t) (kindOf t) = sparesOf (retireTile d d.core.tiles[t].phys) (kindOf t) :=
    sparesOf_congr _ _ (congrArg (·.1.tiles) footing) (congrArg (·.2.1.etMtFailed) footing) _
  unfold tileSpare
  rw [← spares]
  exact if_neg (Bool.eq_false_iff.1 serves)

theorem tileFail_spare (d : Dev) (t : LTile) (p cause : Nat) (serves : d.core.tiles[t].failed = false) (spare : tileSpare d t = some p)
    (copy : d.core.tiles[t].copyBad = false) : tileFail d t cause = spareLoads d t p cause := by
  rw [tileFail_on d t cause serves, spare]
  exact if_neg (Bool.eq_false_iff.1 copy)

theorem tileFail_gone (d : Dev) (t : LTile) (cause : Nat) (serves : d.core.tiles[t].failed = false)
    (none_ : tileSpare d t = none ∨ d.core.tiles[t].copyBad = true) : tileFail d t cause = tileGone d t cause := by
  rw [tileFail_on d t cause serves]
  split
  next p some_ => exact if_pos (none_.resolve_left (by rw [some_]; nofun))
  · rfl

/-- The part the spare loads in, before its tile is put in place. -/
theorem handoffs_only (d : Dev) (l : List Ch) : let f := fun (e : Dev) (c : Ch) => e.ch c fun x => { x with mod := { x.mod with handoff := [] } }
    forCh l f d = { d with chs := (forCh l f d).chs } ∧ ∀ k : Ch, (forCh l f d).chs[k].prot = d.chs[k].prot := by
  refine ⟨forCh_ch_only (fun _ x => { x with mod := { x.mod with handoff := [] } }) l d, fun k => ?_⟩
  refine forCh_holds (fun e => e.chs[k].prot = d.chs[k].prot) _ (fun e a same => ?_) l d rfl
  rw [ch_get]
  split <;> exact same

/-- What the obligation asks of a spare that starts to load. -/
theorem spareLoads_parts (d : Dev) (t : LTile) (p cause : Nat) (serves : d.core.tiles[t].failed = false) (known : p ≠ 0x1F) : let u := spareLoads d t p cause
    u.core.tiles[t].phys = p ∧ u.core.tiles[t].loading = some p ∧ u.core.tiles[t].failed = false ∧
    (∀ k : LTile, k ≠ t → u.core.tiles[k] = d.core.tiles[k]) ∧ u.core.act = none ∧ u.cob = foNoted d t p cause (min 0xFF (d.cob.failovers + 1)) ∧
    u.tb = d.tb ∧ u.rails = d.rails ∧ u.guard = d.guard ∧ u.power = d.power := by
  unfold spareLoads
  dsimp only
  generalize ((chansOf t).any fun c => decide (t.val < 16) && decide (d.chs[c].mod.handoff ≠ [])) = half
  obtain ⟨only, -⟩ := handoffs_only (tileLost d t) (if t.val < 16 then chansOf t else [])
  have footing : _ = _ := (congrArg Dev.footing only).trans (tileLost_footing d t)
  generalize forCh _ _ (tileLost d t) = e at footing ⊢
  have core : e.core = { d.core with act := none } := congrArg (·.1) footing
  have own := tile_same e t (loadedTile d.core.image t half p)
  have other := fun k => tile_other e t k (loadedTile d.core.image t half p)
  rw [core] at own other
  refine ⟨congrArg (·.phys) own, congrArg (·.loading) own, (congrArg (·.failed) own).trans serves, other, congrArg (·.act) core, ?_,
    congrArg (·.2.2.1) footing, congrArg (·.2.2.2.1) footing, congrArg (·.2.2.2.2.1) footing, congrArg (·.2.2.2.2.2) footing⟩
  rw [noteFailover_cob d (e.tile t _) t p cause (congrArg (·.2.1) footing), if_neg known]

/-- A spare that loads with nothing under way. -/
theorem spareLoads_quiet (d : Dev) (t : LTile) (p cause : Nat) (idle : d.core.act = none) (unmeasured : ∀ c : Ch, d.chs[c].meas = none) :
    let u := spareLoads d t p cause
    u = { d with chs := u.chs, core := { d.core with tiles := u.core.tiles }, cob := u.cob } ∧ ∀ c : Ch, u.chs[c].prot = d.chs[c].prot := by
  unfold spareLoads
  dsimp only
  rw [tileLost_quiet d t idle unmeasured]
  obtain ⟨only, prot⟩ := handoffs_only (retireTile d d.core.tiles[t].phys) (if t.val < 16 then chansOf t else [])
  rw [only]
  exact ⟨rfl, prot⟩

/-! ### Channels of a tile without a spare -/

/-- A channel out of service for its tile, and unreleased. -/
def Chan.tileless (x : Chan) : Prop := x.prot.oos = 1 ∧ x.prot.released = false

/-- A channel of the tile out of service is tileless, and stays so, where it was in service; another stays in service. -/
theorem outOfService_tileless (d : Dev) (a c : Ch) :
    (d.chs[c].tileless → (outOfService d a 1).chs[c].tileless) ∧
    (d.chs[c].prot.oos = 0 → if a = c then (outOfService d a 1).chs[c].tileless else (outOfService d a 1).chs[c].prot.oos = 0) := by
  by_cases serves : d.chs[a].prot.oos = 0
  · obtain ⟨x, chs, service, off, released⟩ := outOfService_chs d a 1 serves c
    have oos : x.prot.oos = d.chs[c].prot.oos := congrArg (·.2.2) service
    by_cases same : a = c
    · subst same
      rw [chs, if_pos rfl, if_pos rfl]
      exact ⟨fun _ => ⟨rfl, (off (halves_self d a)).1⟩, fun _ => ⟨rfl, (off (halves_self d a)).1⟩⟩
    · rw [chs, if_neg (Ne.symm same), if_neg same]
      exact ⟨fun h => ⟨oos.trans h.1, released h.2⟩, oos.trans⟩
  · rw [outOfService_out d a 1 serves]
    refine ⟨id, fun h => ?_⟩
    rw [if_neg fun same : a = c => serves (same ▸ h)]
    exact h

/-- The channels of a list that were in service are tileless once all of it has gone out of service. -/
theorem forCh_tileless (l : List Ch) (d : Dev) (c : Ch) (mem : c ∈ l) (serves : d.chs[c].prot.oos = 0) :
    (forCh l (fun e a => outOfService e a 1) d).chs[c].tileless := by
  induction l generalizing d with
  | nil => exact nomatch mem
  | cons a l ih =>
    have step := (outOfService_tileless d a c).2 serves
    by_cases same : a = c
    · rw [if_pos same] at step
      exact forCh_holds (fun e => e.chs[c].tileless) _ (fun e b => (outOfService_tileless e b c).1) l _ step
    · rw [if_neg same] at step
      exact ih _ (List.mem_of_ne_of_mem (Ne.symm same) mem) step

/-- What the obligation asks of a tile without a spare. -/
theorem tileGone_parts (d : Dev) (t : LTile) (cause : Nat) : let u := tileGone d t cause
    u.core.tiles[t].failed = true ∧ (∀ k : LTile, k ≠ t → u.core.tiles[k] = d.core.tiles[k]) ∧ u.core.act = none ∧
    u.cob = foNoted d t 0x1F cause d.cob.failovers ∧ u.rails = d.rails ∧ u.tb = d.tb ∧
    ∀ c ∈ chansOf t, d.chs[c].prot.oos = 0 → u.chs[c].prot.oos = 1 ∧ u.chs[c].prot.released = false := by
  have footing := tileLost_footing d t
  have steady := foldl_keeps Dev.steady (fun e c => outOfService e c 1) (fun e c => outOfService_steady e c 1) (chansOf t)
    ((tileLost d t).tile t fun x => { x with failed := true })
  have tileless := forCh_tileless (chansOf t) ((tileLost d t).tile t fun x => { x with failed := true })
  have service := tileLost_service d t
  have core : (tileLost d t).core = { d.core with act := none } := congrArg (·.1) footing
  have own := tile_same (tileLost d t) t fun x => { x with failed := true }
  have other := fun k => tile_other (tileLost d t) t k fun x => { x with failed := true }
  rw [core] at own other
  unfold tileGone
  dsimp only
  have cob := noteFailover_cob d (forCh (chansOf t) (fun e c => outOfService e c 1) ((tileLost d t).tile t fun x => { x with failed := true })) t 0x1F cause
    ((congrArg (·.1) steady).trans (congrArg (·.2.1) footing))
  have gone : (forCh (chansOf t) (fun e c => outOfService e c 1) ((tileLost d t).tile t fun x => { x with failed := true })).core = _ :=
    congrArg (·.2.2.2.2) steady
  refine ⟨?_, fun k ne => ?_, ?_, cob, (congrArg (·.2.1) steady).trans (congrArg (·.2.2.2.1) footing),
    (congrArg (·.2.2.1) steady).trans (congrArg (·.2.2.1) footing), fun c mem serves => tileless c mem ((congrArg (·.2.2) (service c)).trans serves)⟩
  · exact (congrArg (fun x : Core => x.tiles[t].failed) gone).trans (congrArg (·.failed) own)
  · exact (congrArg (fun x : Core => x.tiles[k]) gone).trans (other k ne)
  · exact (congrArg (·.act) gone).trans (congrArg (·.act) core)

/-- Settles O52: a spare that loads by `spareLoads_parts`, channels that go out of service by `tileGone_parts`. -/
theorem tileFailover : Obligations.TileFailover := by
  intro q d t cause x fails spare quiet noted
  have fail (on : fails) : tileFailureDev d t cause.val = tileFail d t cause.val := by
    have some_ : cause.val ≠ 0 := fun zero => on.2.1 (Fin.ext zero)
    exact if_neg (by rw [on.1, Bool.false_or, decide_eq_true_eq]; exact some_)
  refine ⟨fun p on some_ copy => ?_, fun on none_ => ?_, fun no => next_congr ?_, fun loads => next_congr (if_pos loads),
    fun idle => next_congr (if_neg (by rw [show d.core.tiles[t].loading = none from idle]; nofun))⟩
  · obtain ⟨phys, loading, failed, other, act, cob, tb, rails, guard, power⟩ :=
      spareLoads_parts d t p cause.val on.2.2 (spare_known _ t p some_)
    exact ⟨_, next_congr ((fail on).trans (tileFail_spare d t p cause.val on.2.2 some_ copy)), phys, loading, failed, other, act, cob, tb, rails, guard,
      power, fun still => spareLoads_quiet d t p cause.val still.1 still.2⟩
  · exact ⟨_, next_congr ((fail on).trans (tileFail_gone d t cause.val on.2.2 none_)), tileGone_parts d t cause.val⟩
  · by_cases up : d.guard.audioReset = false ∧ cause ≠ 0
    · have failed : d.core.tiles[t].failed = true := eq_true_of_ne_false fun serves => no ⟨up.1, up.2, serves⟩
      refine (if_neg ?_).trans (if_pos failed)
      rw [up.1, Bool.false_or, decide_eq_true_eq]
      exact fun zero => up.2 (Fin.ext zero)
    · refine if_pos ?_
      rw [Bool.or_eq_true, decide_eq_true_eq]
      rw [Classical.not_and_iff_not_or_not, Bool.not_eq_false, Classical.not_not] at up
      exact up.imp_right (congrArg Fin.val)

end Sys2Proof.Machine
end

section
/-!
PROOFS. A supply fault during a short check (R197, R522, R535): the counterexample to what a reset keeps of a latch.
-/

namespace Sys2Proof.Machine

/-! ### Latches under an audio reset -/

theorem mapTile_latched (d : Dev) (t : LTile) (c : Ch) : (mapTile d t).chs[c].prot.latched = d.chs[c].prot.latched := by
  unfold mapTile
  dsimp only
  split
  · rfl
  · split
    · rfl
    · refine forCh_holds (fun e => e.chs[c].prot.latched = d.chs[c].prot.latched) _ (fun e a same => ?_) _ _ rfl
      rw [ch_get]
      split <;> exact same

/-- An audio reset keeps each latch. -/
theorem audioDown_latched (d : Dev) (c : Ch) : (audioDown d).chs[c].prot.latched = d.chs[c].prot.latched := by
  unfold audioDown
  dsimp only
  rw [trackUnbound_chs]
  refine (foldl_keeps (fun e => e.chs[c].prot.latched) mapTile (fun e t => mapTile_latched e t c) _ _).trans ?_
  dsimp only
  rw [tab_get, nvEnd_chs]
  rfl

/-! ### Latches under a guard release -/

theorem dropWork_latched (d : Dev) (a c : Ch) (h : d.chs[c].prot.latched = true) : (dropWork d a).chs[c].prot.latched = true :=
  measStop_holds (fun x => x.prot.latched = true) (fun _ h => h) (fun _ _ h => h) _ a c _
    (checkAbandon_holds (fun x => x.prot.latched = true) (fun _ _ => rfl) d a c h)

/-- The work of a channel that leads a check is dropped with the channel latched, whether it was before or not. -/
theorem dropWork_checked (d : Dev) (c : Ch) (k : Check) (leads : lead d c = c) (run : d.chs[c].prot.check = some k) :
    (dropWork d c).chs[c].prot.latched = true := by
  refine measStop_holds (fun x => x.prot.latched = true) (fun _ h => h) (fun _ _ h => h) _ c c _ ?_
  have run' : d.chs[lead d c].prot.check = some k :=
    (congrArg (fun x : Ch => d.chs[x].prot.check) leads).trans run
  rw [checkAbandon, checkFinish_chs d c 0x0D _ k run' c, leads, if_pos (halves_self d c)]
  rfl

/-- A guard release of every channel latches the first of them where it leads a short check. -/
theorem releaseAll_checked (d : Dev) (cause : Nat) (c : Ch) (rest : List Ch) (first : ixs 128 = c :: rest) (k : Check) (leads : lead d c = c)
    (run : d.chs[c].prot.check = some k) : (releaseAll d cause).chs[c].prot.latched = true := by
  rw [releaseAll_off, first]
  exact forCh_holds (fun e => e.chs[c].prot.latched = true) dropWork (fun e a => dropWork_latched e a c) rest _ (dropWork_checked d c k leads run)

/-- A supply fault latches the first channel where it leads a short check. -/
theorem supplyFault_checked (q : List Instr) (d u : Dev) (c : Ch) (rest : List Ch) (first : ixs 128 = c :: rest) (k : Check) (leads : lead d c = c)
    (up : d.guard.audioReset = false) (run : d.chs[c].prot.check = some k) (ran : exec .supplyFault ⟨q, d⟩ = .next ⟨q, u⟩) :
    u.chs[c].prot.latched = true := by
  have fault : supplyFaultDev d = u := congrArg State.dev (Host.Outcome.next.inj ran)
  have down : u = audioDown (releaseAll d 0) := fault.symm.trans (if_neg (Bool.eq_false_iff.1 up))
  subst down
  exact (audioDown_latched (releaseAll d 0) c).trans (releaseAll_checked d 0 c rest first k leads run)

/-! ### A pair of which one half is latched -/

/-- The even half of the first pair. -/
def evenHalf : Ch := 0

theorem evenHalf_first : ∃ rest, ixs 128 = evenHalf :: rest := ⟨_, rfl⟩

theorem evenHalf_leads (d : Dev) : lead d evenHalf = evenHalf := ite_self _

/-- Half of a bridged pair in step 1 of its short check. -/
def checkedHalf (latched : Bool) (x : Chan) : Chan := { x with
  cfg := { x.cfg with bridged := true }
  prot := { x.prot with drive := .check, latched := latched, check := some ⟨1, 40, false, false, 0, 0, 0, 0, 0, []⟩ } }

/-- Channels 0 and 1 as a bridged pair in its short check, which CLEAR_LATCH starts on both halves where only the odd one is latched. -/
def halfLatched : Dev :=
  ({ Dev.reset with guard := { Dev.reset.guard with audioReset := false } }.ch evenHalf (checkedHalf false)).ch 1 (checkedHalf true)

theorem halfLatched_even : halfLatched.chs[evenHalf] = checkedHalf false Dev.reset.chs[evenHalf] := by
  rw [halfLatched, ch_other _ 1 evenHalf _ (by decide), ch_same]

theorem halfLatched_check : halfLatched.chs[evenHalf].prot.check = some ⟨1, 40, false, false, 0, 0, 0, 0, 0, []⟩ :=
  congrArg (·.prot.check) halfLatched_even

theorem halfLatched_unlatched : halfLatched.chs[evenHalf].prot.latched = false := congrArg (·.prot.latched) halfLatched_even

/-- Refutes O58: SUPPLY_FAULT in `halfLatched` abandons the pair's check, which latches both halves (`supplyFault_checked`), and the even half
wasn't latched. -/
theorem not_resets : ¬ Obligations.Resets := by
  intro resets
  obtain ⟨-, -, -, -, -, -, fault, -⟩ := resets.2 [] halfLatched 0 false
  obtain ⟨u, ran, -, -, chans, -⟩ := fault rfl
  obtain ⟨-, -, -, kept, -⟩ := chans evenHalf
  obtain ⟨rest, first⟩ := evenHalf_first
  have latched := supplyFault_checked [] halfLatched u evenHalf rest first _ (evenHalf_leads halfLatched) rfl halfLatched_check ran
  exact Bool.false_ne_true (halfLatched_unlatched.symm.trans (kept.symm.trans latched))

end Sys2Proof.Machine
end
